-- ==== Sys2Proof/Word.lean ====
section
/-! DEFINITION. The word types of the HN-416: 32-bit memory words of four bytes, 24-bit word addresses
(spec/00_scope.md "Numbers and addresses"), 32-bit millisecond times (R166). -/

namespace Sys2Proof

/-- One byte of memory, of a text or of a link frame. -/
abbrev Byte := BitVec 8

/-- One memory word (spec/11 section 11.1). -/
abbrev Word := BitVec 32

/-- A word address, 0 to 16,777,215 (spec/00 "Numbers and addresses"). -/
abbrev Addr := BitVec 24

/-- A value of the millisecond counter (R166). -/
abbrev Time := BitVec 32

end Sys2Proof
end

