-- ==== Sys2Proof/Config.lean ====
section
/-! DEFINITION. What the HN-416 fixes for every tower: the capacities of Table 1-1 (spec/00_scope.md) and of
the tables of the chapters; and the one free value, what an answer of an unlisted status decides (log entry 12). -/

namespace Sys2Proof.Machine

/-- What the trailer status of a returned frame answers (Table 11-12). -/
inductive Answer where
  | empty
  | accepted
  | busy
  | rejected
  deriving DecidableEq, Repr, Inhabited

end Sys2Proof.Machine

namespace Sys2Proof.Config

/-- FREE VALUE: which of the four decisions of R150 a returned frame takes whose checks pass and whose trailer status is a
code Table 11-12 does not list, 4 to 255 (log entry 12). -/
opaque unlistedAnswer : Byte → Machine.Answer

/-- Floor table entries (Table 1-1, R2). -/
def maxFloors : Nat := 160

/-- Car slots (Table 1-1, R5). -/
def maxCars : Nat := 32

/-- Display link rings (Table 1-1, R140). -/
def rings : Nat := 6

/-- Ring positions of one ring (R140). -/
def maxPosition : Nat := 32

/-- Node table entries (Table 1-1, R171). -/
def maxNodes : Nat := 192

/-- Live assignments (R61). -/
def maxAssignments : Nat := 256

/-- References of one terminal queue (R66). -/
def queueLimit : Nat := 4

/-- Message entries (R86). -/
def maxMessages : Nat := 128

/-- Trigger entries (R104). -/
def maxTriggers : Nat := 32

/-- Override channels (R130). -/
def channels : Nat := 4

/-- Report ring slots (R180). -/
def reportSlots : Nat := 64

/-- Reports the waiting queue holds (R181). -/
def reportQueueLimit : Nat := 8

/-- Tags of one link engine (R144). -/
def tags : Nat := 256

/-- Bytes a text buffer holds (R96). -/
def textBytes : Nat := 96

/-- Samples of a position history, a candidate history and a line history (R20, R27, R127). -/
def historyLimit : Nat := 8

/-- Words of the anchor block (R167). -/
def anchorWords : Nat := 4096

/-- Host accesses an own access lets pass before host accesses are held (R179). -/
def passOverLimit : Nat := 32

/-- The status records: 32 cars, 192 nodes, 6 rings, 4 channels, 1 counters record (R185). -/
def statusRecords : Nat := 235

end Sys2Proof.Config
end

