-- ==== Sys2Proof/Syntax.lean ====
section
/-! DEFINITION. The commands of the HN-416: one constructor of `Instr` for each row of spec/opcode_table.json.

A command that is a host write carries the write as the bus does: a word address (where the row does not fix
it), the data word and the byte enables (spec/00 "Numbers and addresses", R164). A command that is an event of
one unit names the unit by the number the spec gives it. -/

namespace Sys2Proof

/-- One host access (R164): a write, with word address, data and byte enables (bit i enables byte i), or a read, whose
byte enables play no part (R178). -/
inductive HostAccess where
  | write (addr : Addr) (data : Word) (be : BitVec 4)
  | read (addr : Addr) (be : BitVec 4)
  deriving DecidableEq, Repr

/-- The two ports of a ring (R140). -/
inductive Port where
  | a
  | b
  deriving DecidableEq, Repr

/-- The regions of a display, in the fixed order of R110. -/
inductive Region where
  | floor
  | arrow
  | trip
  | prompt
  | line
  | banner
  deriving DecidableEq, Repr

/-- The commands: each constructor is one row of spec/opcode_table.json, named after its mnemonic. -/
inductive Instr where
  /-- RESET_N (R166): assertion and release. The strap pins stand at `anchor` at the release; `passed` are the
  host accesses performed while the line was asserted, in their order, which pass through and are watched by nothing. -/
  | resetN (anchor : BitVec 4) (passed : List HostAccess)
  /-- TAKE_FULL (R168): a host write of the take word, asking for 1. -/
  | takeFull (data : Word) (be : BitVec 4)
  /-- TAKE_PARAMS (R168): a host write of the take word, asking for 2. -/
  | takeParams (data : Word) (be : BitVec 4)
  /-- TAKE_WORD_READ (R167): PATH's own read of the take word. -/
  | takeWordRead
  /-- MODIFIED (R169): a host write at word `offset` of the anchor block. -/
  | modified (offset : Nat) (data : Word) (be : BitVec 4)
  /-- TAKE_READ (R168): one own read of the take class completes. -/
  | takeRead
  /-- TAKE_RESULT_WRITE (R173): the held result write is performed. -/
  | takeResultWrite
  /-- LATCH_CLEAR (R132): a host write of the service word with the latch-clear bit of `channel`. -/
  | latchClear (channel : Nat)
  /-- COUNTERS_CLEAR (R187): a host write of the service word with the counters-clear bit. -/
  | countersClear
  /-- STATISTICS_CLEAR (R187): a host write of the service word with the statistics-clear bit. -/
  | statisticsClear
  /-- REPAINT (R125): a host write of the service word with the repaint bit. -/
  | repaint
  /-- HOST_WRITE (R164): any host write. -/
  | hostWrite (addr : Addr) (data : Word) (be : BitVec 4)
  /-- MIRROR_MERGE (R177): a host write to a record slot word. -/
  | mirrorMerge (addr : Addr) (data : Word) (be : BitVec 4)
  /-- CAR_RECORD (R14): a host write to a closing word of the CAR_TABLE window. -/
  | carRecord (addr : Addr) (data : Word) (be : BitVec 4)
  /-- ASSIGN_NEW (R62): a host write to a closing word of ASSIGN_RING whose slot holds a NEW record. -/
  | assignNew (addr : Addr) (data : Word) (be : BitVec 4)
  /-- ASSIGN_CANCEL (R73): as ASSIGN_NEW, a CANCEL record. -/
  | assignCancel (addr : Addr) (data : Word) (be : BitVec 4)
  /-- ASSIGN_REASSIGN (R74): as ASSIGN_NEW, a REASSIGN record. -/
  | assignReassign (addr : Addr) (data : Word) (be : BitVec 4)
  /-- MESSAGE_DEFINE (R88): a host write to a closing word of MESSAGE_TABLE whose slot holds a DEFINE. -/
  | messageDefine (addr : Addr) (data : Word) (be : BitVec 4)
  /-- MESSAGE_ACTIVATE (R89): as MESSAGE_DEFINE, an ACTIVATE. -/
  | messageActivate (addr : Addr) (data : Word) (be : BitVec 4)
  /-- MESSAGE_CANCEL (R90): as MESSAGE_DEFINE, a CANCEL. -/
  | messageCancel (addr : Addr) (data : Word) (be : BitVec 4)
  /-- MESSAGE_CLEAR (R90): as MESSAGE_DEFINE, a CLEAR. -/
  | messageClear (addr : Addr) (data : Word) (be : BitVec 4)
  /-- OVERRIDE_ACTIVATE (R129): a host write to the override record's closing word, whose record activates. -/
  | overrideActivate (addr : Addr) (data : Word) (be : BitVec 4)
  /-- OVERRIDE_RELEASE (R129): as OVERRIDE_ACTIVATE, a record that releases. -/
  | overrideRelease (addr : Addr) (data : Word) (be : BitVec 4)
  /-- TEXT_AREA_WRITE (R102): a host write into a TEXT_AREA window. -/
  | textAreaWrite (addr : Addr) (data : Word) (be : BitVec 4)
  /-- TEXT_READ (R100): the waiting text read completes. -/
  | textRead
  /-- CONSUME (R182): a host read at `addr` (R178: the byte enables play no part). -/
  | consume (addr : Addr) (be : BitVec 4)
  /-- REPORT_ENTRY_WRITE (R180): one own write of a report entry completes. -/
  | reportEntryWrite
  /-- STATUS_RECORD_WRITE (R185): one own write of a status record completes. -/
  | statusRecordWrite
  /-- SERVICE_WORD_WRITE_BACK (R187): the service word is written back as 0. -/
  | serviceWordWriteBack
  /-- CAR_STALE (R30): the stale timer of `car` expires. -/
  | carStale (car : Nat)
  /-- POSITION_HISTORY_EMPTIED (R30): `car` has been stale for 2^31 ms. -/
  | positionHistoryEmptied (car : Nat)
  /-- SHOW_DEADLINE (R70): the show deadline of the head of terminal `node`'s queue. -/
  | showDeadline (node : Nat)
  /-- LIFETIME (R78): the assignments whose age reaches assign_life_s. -/
  | lifetime
  /-- MESSAGE_EXPIRED (R92): message `id` reaches its expiry. -/
  | messageExpired (id : Nat)
  /-- DWELL_DEADLINE (R117): the dwell deadline of a region of `node`. -/
  | dwellDeadline (node : Nat) (region : Region)
  /-- LINE_ACCEPTED (R128): the accepted state of `line` is tested after a sampling. -/
  | lineAccepted (line : Nat)
  /-- SEND_FRAME (R149): the transmitter of `ring` is free and the arbiter chooses a frame. -/
  | sendFrame (ring : Nat)
  /-- FRAME_RETURN (R150): `bytes` arrive on `port` of `ring`. -/
  | frameReturn (ring : Nat) (port : Port) (bytes : List Byte)
  /-- RETURN_TIMEOUT (R154): return_timeout_ms passes for the OUTSTANDING `tag` of `ring`. -/
  | returnTimeout (ring tag : Nat)
  /-- TRAILING_TIMEOUT (R150): return_timeout_ms passes for the TRAILING `tag` of `ring`. -/
  | trailingTimeout (ring tag : Nat)
  /-- BUSY_BACKOFF (R152): busy_backoff_ms passes for the held frame of `region` (none: the POLL) of the node
  at `position` of `ring`. -/
  | busyBackoff (ring position : Nat) (region : Option Region)
  /-- POLL_TIMER (R156): poll_ms passes without a sending to the node at `position` of `ring`. -/
  | pollTimer (ring position : Nat)
  /-- JOIN_TIMER (R156): a join POLL becomes due for the node at `position` of `ring`. -/
  | joinTimer (ring position : Nat)
  /-- RING_CHECK (R158): ring_check_ms passes since the last TRACE of `ring`. -/
  | ringCheck (ring : Nat)
  /-- TRACE_END (R159): the outstanding TRACE of `ring` ends. -/
  | traceEnd (ring : Nat)
  /-- LINE_SAMPLING (R127): the four override lines stand at `levels` (bit n set: OVRn asserted, that is low)
  and are sampled. -/
  | lineSampling (levels : BitVec 4)
  deriving DecidableEq, Repr

end Sys2Proof
end

