-- ==== Sys2Proof/WellFormed.lean ====
section
/-! DEFINITION. Which commands name a unit the HN-416 has. A command that is not well formed names a car,
message, node, line, channel, ring, position, tag or anchor word outside the numbers the spec gives. -/

namespace Sys2Proof

/-- Whether a command's operands name units that exist (Table 1-1 of spec/00, R140, R144, R167). -/
def Instr.wellFormed : Instr → Bool
  | .modified offset _ _ => offset < Config.anchorWords
  | .latchClear n => n < Config.channels
  | .carStale c => c < Config.maxCars
  | .positionHistoryEmptied c => c < Config.maxCars
  | .showDeadline j => j < Config.maxNodes
  | .messageExpired m => m < Config.maxMessages
  | .dwellDeadline j _ => j < Config.maxNodes
  | .lineAccepted n => n < Config.channels
  | .sendFrame r => r < Config.rings
  | .frameReturn r _ _ => r < Config.rings
  | .returnTimeout r t => r < Config.rings && t < Config.tags
  | .trailingTimeout r t => r < Config.rings && t < Config.tags
  | .busyBackoff r p _ => r < Config.rings && 1 ≤ p && p ≤ Config.maxPosition
  | .pollTimer r p => r < Config.rings && 1 ≤ p && p ≤ Config.maxPosition
  | .joinTimer r p => r < Config.rings && 1 ≤ p && p ≤ Config.maxPosition
  | .ringCheck r => r < Config.rings
  | .traceEnd r => r < Config.rings
  | .resetN _ _ => true
  | .takeFull _ _ => true
  | .takeParams _ _ => true
  | .takeWordRead => true
  | .takeRead => true
  | .takeResultWrite => true
  | .countersClear => true
  | .statisticsClear => true
  | .repaint => true
  | .hostWrite _ _ _ => true
  | .mirrorMerge _ _ _ => true
  | .carRecord _ _ _ => true
  | .assignNew _ _ _ => true
  | .assignCancel _ _ _ => true
  | .assignReassign _ _ _ => true
  | .messageDefine _ _ _ => true
  | .messageActivate _ _ _ => true
  | .messageCancel _ _ _ => true
  | .messageClear _ _ _ => true
  | .overrideActivate _ _ _ => true
  | .overrideRelease _ _ _ => true
  | .textAreaWrite _ _ _ => true
  | .textRead => true
  | .consume _ _ => true
  | .reportEntryWrite => true
  | .statusRecordWrite => true
  | .serviceWordWriteBack => true
  | .lifetime => true
  | .lineSampling _ => true

end Sys2Proof
end

