-- ==== Sys2Proof/Decode.lean ====
section
/-! DEFINITION. The decoder over the words of spec/opcode_table.json. The table gives no row any bits (every row's
"fields" list is empty and none has a "fixed" entry), so no word spells a command. -/

namespace Sys2Proof

/-- The command that the `nbits`-bit word `w` spells: none, since no row of spec/opcode_table.json has bits. -/
def decodeTableWord (_nbits _w : Nat) : Option Instr := none

end Sys2Proof
end

