-- ==== Sys2Proof/Machine/State.lean ====
section
/-! DEFINITION. The state of the HN-416, block by block (Table 1-2 of spec/00), of the memory behind its memory
port, and the queue of waiting commands; and the state after RESET_N. All plain data.

Times are values of the 32-bit millisecond counter (R166). A list indexed by a car, node, ring, channel, message or
trigger number has one entry per number the spec gives. -/

namespace Sys2Proof.Machine

/-- Why a step faults. -/
inductive Fault where
  /-- Raised by the meaning of a command that is not well formed (`Instr.wellFormed`): it names a car, message,
  node, line, channel, ring, position, tag or anchor word the HN-416 does not have, which no host, line or timer
  can produce. Safe: the machine stops where no hardware event exists. -/
  | noSuchUnit
  deriving DecidableEq, Repr

/-- Why a step is refused. -/
inductive Refusal where
  /-- Raised by no arm: every row of the table has its meaning. Safe. -/
  | notModelled (mnemonic : String)
  deriving DecidableEq, Repr

/-! ### Codes -/

/-- Deglitch modes (m, n): R5, R128. -/
inductive Deglitch where
  | oneOfOne
  | twoOfThree
  | fourOfEight
  | sevenOfEight
  deriving DecidableEq, Repr

/-- Directions: drive and departure direction (R16), lantern direction (R51), ARROW content (R111). -/
inductive Direction where
  | none
  | up
  | down
  deriving DecidableEq, Repr

/-- Door states (R16). -/
inductive Door where
  | closed
  | opening
  | opened
  | closing
  deriving DecidableEq, Repr

/-- Service modes (R16). -/
inductive ServiceMode where
  | normal
  | independent
  | outOfService
  | fireRecall
  | fireService
  | evacuation
  | inspection
  deriving DecidableEq, Repr

/-- Motion of a car (R22). -/
inductive Motion where
  | still
  | movingUp
  | movingDown
  deriving DecidableEq, Repr

/-- Indication state of a deck (R29). -/
inductive Indication where
  | unknown
  | atFloor
  | moving
  | express
  | between
  | stale
  deriving DecidableEq, Repr

/-! ### PATH: parameters, windows, the take -/

/-- The parameter shadow (R172, Table 9-2). -/
structure Params where
  staleMs : Nat
  speedWindowMs : Nat
  leadMs : Nat
  leadMaxMm : Nat
  vStill : Nat
  dwellMs : Nat
  startStopMs : Nat
  doorCloseMs : Nat
  etaUpHystS : Nat
  lanternLeadS : Nat
  promptShowMs : Nat
  promptBusyMs : Nat
  assignLifeS : Nat
  rotateMs : Nat
  pollMs : Nat
  rejoinMs : Nat
  ringCheckMs : Nat
  /-- return_timeout_ms of rings 0 to 5. -/
  returnTimeoutMs : List Nat
  /-- retries of rings 0 to 5. -/
  retries : List Nat
  busyBackoffMs : Nat
  overrideDeglitch : Deglitch
  deriving DecidableEq, Repr

/-- One window of the watch map (R170). -/
structure Window where
  present : Bool
  base : Nat
  length : Nat
  deriving DecidableEq, Repr

/-- The two kinds of take (R168). -/
inductive TakeKind where
  | full
  | params
  deriving DecidableEq, Repr

/-- The take in progress (R168). `copy` holds the words of the anchor block read so far, in the order read;
`mirror` the words read so far of the record slots of windows 0 to 3 of the new watch map; `result` is the result
write that is due: a refusal code and entry index, or code 0 for a take that passed validation. -/
structure Take where
  kind : TakeKind
  copy : List Word
  mirror : List (List Word)
  result : Option (Nat × Nat)
  deriving DecidableEq, Repr

/-- The path states (R165); TAKING remembers whether the take began from RUNNING. -/
inductive PathState where
  | unconfigured
  | taking (fromRunning : Bool)
  | running
  deriving DecidableEq, Repr

/-- Who waits for the memory port (R179). -/
inductive OwnKind where
  | takeWord
  | takeRead
  | takeResult
  | report
  | text
  deriving DecidableEq, Repr

/-- A waiting own access with its pass-over count (R179). -/
structure OwnAccess where
  kind : OwnKind
  passed : Nat
  deriving DecidableEq, Repr

/-- PATH (chapter 9). `own` is in the order the accesses joined. `mirror` and `lastSeq` are indexed by record
window (0 CAR_TABLE, 1 MESSAGE_TABLE, 2 ASSIGN_RING, 3 OVERRIDE_RECORD); `watch` is empty while there is no map. -/
structure Path where
  state : PathState
  /-- ANCHOR[3:0] as read at the release of RESET_N (R167). -/
  anchor : BitVec 4
  /-- The last known value of the take word (R167). -/
  takeWord : Option Word
  /-- A read of the take word is to judge an earlier host write of it (R167). -/
  takeWordRead : Bool
  watch : List Window
  mirror : List (List Word)
  lastSeq : List (List (BitVec 16))
  take : Option Take
  own : List OwnAccess
  deriving DecidableEq, Repr

/-! ### GEO (chapter 1) -/

/-- A floor table entry in the image (R2). -/
structure Floor where
  level : Nat
  label : List Byte
  landing : Bool
  fireAccess : Bool
  deriving DecidableEq, Repr

/-- The values of a configured car (R5). -/
structure CarConfig where
  vRated : Nat
  zone : Nat
  deglitch : Deglitch
  decks : Nat
  spacing : Nat
  label : List Byte
  express : List Byte
  served0 : List Nat
  served1 : List Nat
  deriving DecidableEq, Repr

/-- The geometry image (R1): the floors in order, and the configured cars. -/
structure Geo where
  floors : List Floor
  cars : List (Option CarConfig)
  deriving DecidableEq, Repr

/-! ### The node table (R110, R171) -/

/-- Node types in use (R171). -/
inductive NodeType where
  | carPanel
  | hallLantern
  | terminal
  | lobbyBoard
  deriving DecidableEq, Repr

/-- A node table entry in use (R110). `bearings` gives the bearing code of each car (R82): 0 none, 6 to 9. -/
structure NodeConfig where
  type : NodeType
  ring : Nat
  position : Nat
  group : Nat
  threshold : Nat
  floorMark : Bool
  floor : Nat
  car : Nat
  deck : Nat
  bearings : List Nat
  deriving DecidableEq, Repr

/-! ### TRK (chapter 2) -/

/-- The tracker's state of one deck (R23 to R34). -/
structure Deck where
  position : Nat
  candidates : List Nat
  accepted : Option Nat
  state : Indication
  visit : Option Nat
  opened : Bool
  deriving DecidableEq, Repr

/-- The tracker's state of one car (Table 2-2). `history` is the position history, oldest first; `timer` the last
take time while the stale timer runs; `decks` holds deck 0 and deck 1. -/
structure Car where
  position : Option Nat
  drive : Direction
  departure : Direction
  door : Door
  mode : ServiceMode
  stops : List Nat
  words : List Word
  history : List (Nat × Time)
  speed : Int
  motion : Motion
  lead : Nat
  timer : Option Time
  decks : List Deck
  deriving DecidableEq, Repr

/-! ### ARR (chapter 3) -/

/-- A held or computed estimate (R44, R48): NONE, or seconds with the OVER mark. -/
inductive Estimate where
  | none
  | secs (n : Nat) (overMark : Bool)
  deriving DecidableEq, Repr

/-- Lantern states (R51). -/
inductive LanternState where
  | dark
  | announce
  | lit
  deriving DecidableEq, Repr

/-- One lantern state (R51); `lit` of LanternState is the manual's OPEN. -/
structure Lantern where
  car : Nat
  deck : Nat
  floor : Nat
  state : LanternState
  shown : Direction
  hold : Bool
  estimate : Estimate
  deriving DecidableEq, Repr

/-- ARR (R51, R50): lantern states in ascending car, deck, floor; the withdrawn mark of each car. -/
structure Arr where
  lanterns : List Lantern
  withdrawn : List Bool
  deriving DecidableEq, Repr

/-! ### PRM (chapter 4) -/

/-- Prompt states (R61). -/
inductive PromptState where
  | none
  | queued
  | showing
  deriving DecidableEq, Repr

/-- A live assignment (Table 4-1). `estimate` is absent while the prompt state is NONE. -/
structure Assignment where
  number : Nat
  order : Nat
  terminal : Nat
  boarding : Nat
  destination : Nat
  car : Nat
  deck : Nat
  stepFree : Bool
  created : Time
  isBoarding : Bool
  prompt : PromptState
  deadline : Option Time
  estimate : Option Estimate
  deriving DecidableEq, Repr

/-- The prompt queue of a terminal (R66): assignment numbers, head first. -/
structure PromptQueue where
  terminal : Nat
  refs : List Nat
  deriving DecidableEq, Repr

/-- PRM (Table 4-3). -/
structure Prm where
  table : List Assignment
  nextOrder : Nat
  queues : List PromptQueue
  withdrawn : List Bool
  dropReported : List Bool
  deriving DecidableEq, Repr

/-! ### MSG, TXF, TRG (chapter 5) -/

/-- A text reference (R86, Table 11-5): area select, signed word offset, length field. -/
structure TextRef where
  area : Nat
  offset : BitVec 32
  length : Nat
  deriving DecidableEq, Repr

/-- Text statuses (R87). -/
inductive TextStatus where
  | pending
  | ready
  | fault
  deriving DecidableEq, Repr

/-- The text of an owner (R96): status (absent: none), buffer, version. -/
structure Text where
  status : Option TextStatus
  buffer : List Byte
  version : Byte
  deriving DecidableEq, Repr

/-- Car filters (R86). -/
inductive CarFilter where
  | any
  | source
  | car (index : Nat)
  deriving DecidableEq, Repr

/-- The stored fields of a message entry (R87). `banner` is the region kind (LINE when false), `range` none is ANY. -/
structure MessageFields where
  priority : Nat
  banner : Bool
  filter : CarFilter
  groups : BitVec 16
  range : Option (Nat × Nat)
  lifetime : Nat
  ref : TextRef
  deriving DecidableEq, Repr

/-- Message entry states (R87). -/
inductive MessageState where
  | empty
  | defined
  | active
  deriving DecidableEq, Repr

/-- A message entry (Table 5-1). `cars` is the active-car set, ascending. -/
structure Message where
  state : MessageState
  fields : Option MessageFields
  expiry : Option Time
  cars : List Nat
  text : Text
  deriving DecidableEq, Repr

/-- Text owners (R96). -/
inductive TextOwner where
  | message (id : Nat)
  | line (channel : Nat)
  | banner (channel : Nat)
  deriving DecidableEq, Repr

/-- Phases of a fetch job (R97). -/
inductive JobPhase where
  | waiting
  | length
  | text
  deriving DecidableEq, Repr

/-- A fetch job (R97). `start` and `words` give its range once checked (R102); `address` is the word it reads next;
`left` the remaining byte count; `fill` the fill buffer. -/
structure Job where
  owner : TextOwner
  ref : TextRef
  phase : JobPhase
  start : Nat
  words : Nat
  address : Nat
  left : Nat
  fill : List Byte
  deriving DecidableEq, Repr

/-- The READY range of an owner under the coherence watch (R102). -/
structure ReadyRange where
  owner : TextOwner
  start : Nat
  words : Nat
  deriving DecidableEq, Repr

/-- The one outstanding text read (R97); its data is discarded when the job it served was abandoned or restarted. -/
structure TextRead where
  address : Nat
  discard : Bool
  deriving DecidableEq, Repr

/-- TXF (R97, R102). -/
structure Txf where
  jobs : List Job
  ready : List ReadyRange
  read : Option TextRead
  deriving DecidableEq, Repr

/-- Edge modes (R104). -/
inductive EdgeMode where
  | level
  | rise
  | fall
  | both
  deriving DecidableEq, Repr

/-- Trigger actions (R104). -/
inductive TriggerAction where
  | activate (message : Nat)
  | cancel (message : Nat)
  | report
  deriving DecidableEq, Repr

/-- An in-use trigger entry (Table 5-2). `held` is HELD, `last` the last condition (none: UNKNOWN). -/
structure Trigger where
  source : Nat
  word : Nat
  mask : Word
  all : Bool
  edge : EdgeMode
  action : TriggerAction
  held : Bool
  last : Option Bool
  deriving DecidableEq, Repr

/-! ### CMP (chapter 6) -/

/-- The content of a region (R111): codes and attributes. -/
structure Content where
  codes : List Byte
  stale : Bool
  direction : Direction
  moving : Bool
  deriving DecidableEq, Repr

/-- Where a region's content comes from (Table 6-2). -/
inductive Source where
  | normal
  | channel (k : Nat)
  deriving DecidableEq, Repr

/-- A region record (Table 6-2). -/
structure RegionRecord where
  region : Region
  content : Content
  version : Byte
  source : Source
  shown : Option Nat
  level : Option Nat
  dwell : Option Time
  deriving DecidableEq, Repr

/-- CMP's record of one node table entry (R110): its region records (none when UNUSED) and its reachable mark. -/
structure NodeRecord where
  regions : List RegionRecord
  reachable : Bool
  deriving DecidableEq, Repr

/-- CMP (R110, R125). -/
structure Cmp where
  nodes : List NodeRecord
  repainting : Bool
  deriving DecidableEq, Repr

/-! ### OVR (chapter 7) -/

/-- A channel's configuration (R130); `range` none is ANY. -/
structure ChannelConfig where
  groups : BitVec 16
  range : Option (Nat × Nat)
  floorBlank : Bool
  arrowBlank : Bool
  deriving DecidableEq, Repr

/-- An override channel (Table 7-2). `samples` is the line's history, oldest first; `test` the deglitch mode of a
sampling whose acceptance test (LINE_ACCEPTED) is still to be made. -/
structure Channel where
  config : Option ChannelConfig
  lineRef : Option TextRef
  lineText : Text
  bannerRef : Option TextRef
  bannerText : Text
  samples : List Bool
  accepted : Bool
  memory : Bool
  latch : Bool
  test : Option Deglitch
  deriving DecidableEq, Repr

/-! ### LNK0 to LNK5 (chapter 8) -/

/-- Frame kinds (R143). -/
inductive FrameKind where
  | poll
  | paint
  | alert
  | trace
  deriving DecidableEq, Repr

/-- An entry of a node's frame queue (R145): a paint request, or a POLL (region none). -/
structure QueueEntry where
  kind : FrameKind
  region : Option Region
  version : Byte
  content : Content
  chime : Nat
  deriving DecidableEq, Repr

/-- A frame outstanding to a node (R147); `held` is the time a busy backoff ends (R152). -/
structure Flight where
  entry : QueueEntry
  held : Option Time
  deriving DecidableEq, Repr

/-- Node states (R155). -/
inductive NodeState where
  | absent
  | active
  | suspect
  | lost
  deriving DecidableEq, Repr

/-- A node of a ring (Table 8-3). `index` is its node table index; `flights` the frames outstanding to it, so that the
outstanding count is their number; `lastSent` restarts the poll timer; `joinFrom` the join timer. -/
structure LinkNode where
  index : Nat
  state : NodeState
  queue : List QueueEntry
  flights : List Flight
  retry : Nat
  restartPending : Bool
  lowBrightness : Bool
  lastSent : Time
  joinFrom : Time
  joinDue : Bool
  deriving DecidableEq, Repr

/-- A returned copy of a TRACE or of a dual-sent frame (R150, R158). -/
structure Copy where
  port : Port
  wrapped : Bool
  hops : Nat
  deriving DecidableEq, Repr

/-- A send record (R144). `position` is 0 for a TRACE; the copies recorded so far are in order of return. -/
structure SendRecord where
  position : Nat
  entry : QueueEntry
  onA : Bool
  onB : Bool
  sent : Time
  sentTenth : Nat
  timeout : Nat
  copies : List Copy
  deriving DecidableEq, Repr

/-- What a tag that is not FREE holds (R144); a TRAILING tag keeps its sending time and timeout (R150). -/
inductive TagUse where
  | outstanding (record : SendRecord)
  | trailing (sent : Time) (timeout : Nat)
  deriving DecidableEq, Repr

/-- Ring states (R157). -/
inductive RingState where
  | untested
  | closed
  | broken
  | down
  deriving DecidableEq, Repr

/-- The statistics of a ring (R162). -/
structure Statistics where
  minimum : Nat
  maximum : Nat
  sent : Nat
  retries : Nat
  late : Nat
  rejected : Nat
  deriving DecidableEq, Repr

/-- A link engine (Table 8-3). `nodes` are positions 1 to N in order; `tags` lists the tags that are not FREE;
`driveA` and `driveB` are the last frames driven on the two ports. -/
structure Ring where
  nodes : List LinkNode
  window : Nat
  state : RingState
  location : Option (Nat × Nat)
  through : Nat
  traceDue : Bool
  traceSent : Option Time
  tags : List (Nat × TagUse)
  lastTag : Nat
  lastServed : Nat
  stats : Statistics
  driveA : List Byte
  driveB : List Byte
  deriving DecidableEq, Repr

/-! ### RPT (chapter 10) -/

/-- The counters of Table 10-2, in its order. -/
inductive CounterId where
  | substitution
  | refusedRecord
  | positionClamp
  | codeHold
  | stopList
  | estimateClamp
  | assignRefusal
  | displaced
  | dropped
  | unknownNumber
  | expired
  | textTruncation
  | triggerTarget
  | missedTrigger
  | repeatTake
  | reportDrop
  deriving DecidableEq, Repr

/-- A report (R184) as its first two entry words, with the counter value at its handing (R180). -/
structure Report where
  word0 : Word
  word1 : Word
  time : Time
  deriving DecidableEq, Repr

/-- Slot states of the report ring (R180). -/
inductive SlotState where
  | free
  | writing
  | unconsumed
  deriving DecidableEq, Repr

/-- A status record's shadow (R185): field words, change count, pending mark. -/
structure StatusRecord where
  fields : List Word
  count : BitVec 16
  pending : Bool
  deriving DecidableEq, Repr

/-- The write sequence the report writer is in (R180, R185, R187): the number of words already written, and what is
being written. An entry's report leaves the waiting queue at its first write. -/
inductive Writer where
  | idle
  | entry (done : Nat) (report : Option Report)
  | record (index done : Nat) (words : List Word)
  | serviceBack
  deriving DecidableEq, Repr

/-- The last write sequence, for the alternation of R185. -/
inductive LastWrite where
  | none
  | entry
  | record
  deriving DecidableEq, Repr

/-- RPT (Table 10-3). `area` is the base of the report area in use; `requests` the pending service word requests
(bits as in Table 11-2); `writeBackDue` a service word write-back that is due; `attention` the ATTN_N output
(true: asserted, low). `lastRecord` is none while no record has been written (Table 10-3). -/
structure Rpt where
  area : Option Nat
  slots : List SlotState
  producer : Nat
  sequence : BitVec 16
  drops : BitVec 16
  waiting : List Report
  writer : Writer
  lastWrite : LastWrite
  lastRecord : Option Nat
  records : List StatusRecord
  counters : List (BitVec 16)
  requests : BitVec 7
  writeBackDue : Bool
  attention : Bool
  deriving DecidableEq, Repr

/-! ### The part, and the machine -/

/-- The display side of the part: what a change of content reaches. -/
structure Disp where
  cmp : Cmp
  lnk : List Ring
  rpt : Rpt
  deriving DecidableEq, Repr

/-- The HN-416 itself: its time base (`now`, with `tenth` counting the 0.1 ms of R162), its input pins, its blocks. -/
structure Part where
  now : Time
  tenth : Nat
  /-- The counter value of the last sampling of the override lines (R127). -/
  sampledAt : Time
  /-- The levels of OVR3 to OVR0 (bit n set: OVRn asserted, low). -/
  lines : BitVec 4
  /-- What the last host read returned on H_D (R164). -/
  hostData : Word
  path : Path
  params : Params
  geo : Geo
  nodes : List (Option NodeConfig)
  trk : List Car
  arr : Arr
  prm : Prm
  msg : List Message
  txf : Txf
  trg : List (Option Trigger)
  ovr : List Channel
  disp : Disp
  deriving DecidableEq, Repr

/-- The machine: the part, the host memory behind its memory port (byte cells in canonical form: see Machine/Ops.lean),
and the commands that wait, first in, first out. -/
structure State where
  part : Part
  mem : List Host.Cell
  pending : List Instr
  deriving DecidableEq, Repr

/-! ### The state after RESET_N -/

/-- The defaults of Table 9-2 (R172). -/
def Params.defaults : Params where
  staleMs := 1000
  speedWindowMs := 600
  leadMs := 1500
  leadMaxMm := 6000
  vStill := 50
  dwellMs := 8000
  startStopMs := 3000
  doorCloseMs := 4000
  etaUpHystS := 3
  lanternLeadS := 4
  promptShowMs := 5000
  promptBusyMs := 2500
  assignLifeS := 180
  rotateMs := 6000
  pollMs := 3000
  rejoinMs := 5000
  ringCheckMs := 1000
  returnTimeoutMs := List.replicate Config.rings 10
  retries := List.replicate Config.rings 3
  busyBackoffMs := 20
  overrideDeglitch := .twoOfThree

/-- PATH after RESET_N with the straps at `anchor` (R165, R166, R167). -/
def Path.reset (anchor : BitVec 4) : Path where
  state := .unconfigured
  anchor := anchor
  takeWord := none
  takeWordRead := false
  watch := []
  mirror := [[], [], [], []]
  lastSeq := [[], [], [], []]
  take := none
  own := []

/-- GEO after RESET_N (Table 1-6). -/
def Geo.reset : Geo where
  floors := []
  cars := List.replicate Config.maxCars none

/-- A deck with no evaluation yet (Table 2-2). -/
def Deck.fresh : Deck where
  position := 0
  candidates := []
  accepted := none
  state := .unknown
  visit := none
  opened := false

/-- A car before its first take (Table 2-2). -/
def Car.fresh : Car where
  position := none
  drive := .none
  departure := .none
  door := .closed
  mode := .normal
  stops := []
  words := []
  history := []
  speed := 0
  motion := .still
  lead := 0
  timer := none
  decks := [Deck.fresh, Deck.fresh]

/-- ARR after RESET_N (Table 3-1). -/
def Arr.reset : Arr where
  lanterns := []
  withdrawn := List.replicate Config.maxCars false

/-- PRM after RESET_N (Table 4-3). The take order starts afresh at 0 (DESIGN CHOICE, log entry 21). -/
def Prm.reset : Prm where
  table := []
  nextOrder := 0
  queues := []
  withdrawn := List.replicate Config.maxCars false
  dropReported := List.replicate Config.channels false

/-- A text that is absent (R87, R135). The empty buffer and version 0 are Table 5-5's for a message; an override text that is absent
is given none, and takes the same (DESIGN CHOICE, log entry 37). -/
def Text.absent : Text where
  status := none
  buffer := []
  version := 0

/-- An EMPTY message entry (Table 5-5). -/
def Message.fresh : Message where
  state := .empty
  fields := none
  expiry := none
  cars := []
  text := Text.absent

/-- TXF after RESET_N (Table 5-5). -/
def Txf.reset : Txf where
  jobs := []
  ready := []
  read := none

/-- Blank content (R111). -/
def Content.blank : Content where
  codes := []
  stale := false
  direction := .none
  moving := false

/-- CMP after RESET_N: no region records (Table 6-7). -/
def Cmp.reset : Cmp where
  nodes := List.replicate Config.maxNodes { regions := [], reachable := false }
  repainting := false

/-- A channel after RESET_N (Table 7-2); the buffers and versions of its absent texts are the model's (DESIGN CHOICE, log entry
37). -/
def Channel.reset : Channel where
  config := none
  lineRef := none
  lineText := Text.absent
  bannerRef := none
  bannerText := Text.absent
  samples := List.replicate Config.historyLimit false
  accepted := false
  memory := false
  latch := false
  test := none

/-- The statistics after RESET_N, after an accepted TAKE_FULL and after a clear (R162). -/
def Statistics.cleared : Statistics where
  minimum := 65535
  maximum := 0
  sent := 0
  retries := 0
  late := 0
  rejected := 0

/-- A link engine with no nodes, as after RESET_N (Table 8-3). -/
def Ring.reset : Ring where
  nodes := []
  window := 0
  state := .untested
  location := none
  through := 0
  traceDue := false
  traceSent := none
  tags := []
  lastTag := 255
  lastServed := 0
  stats := Statistics.cleared
  driveA := []
  driveB := []

/-- The shadows after RESET_N (Table 10-3, layouts of Table 11-11): unconfigured cars with unknown decks, no nodes,
UNTESTED rings, OFF channels, counters 0. -/
def StatusRecord.resetTable : List StatusRecord :=
  let fresh (fields : List Word) : StatusRecord := { fields := fields, count := 0, pending := false }
  List.replicate Config.maxCars (fresh [0#32, 0#32, 0x000000FF#32, 0x000000FF#32])
    ++ List.replicate Config.maxNodes (fresh [0#32])
    ++ List.replicate Config.rings (fresh [0x00FFFF00#32, 0x0000FFFF#32, 0#32, 0#32])
    ++ List.replicate Config.channels (fresh [0#32])
    ++ [fresh (List.replicate 8 0#32)]

/-- RPT after RESET_N (Table 10-3). -/
def Rpt.reset : Rpt where
  area := none
  slots := List.replicate Config.reportSlots .free
  producer := 0
  sequence := 0
  drops := 0
  waiting := []
  writer := .idle
  lastWrite := .none
  lastRecord := none
  records := StatusRecord.resetTable
  counters := List.replicate 16 0
  requests := 0
  writeBackDue := false
  attention := false

/-- The part at the release of RESET_N with the straps at `anchor` and the lines at `lines` (R166, R167). -/
def Part.reset (anchor lines : BitVec 4) : Part where
  now := 0
  tenth := 0
  sampledAt := 0
  lines := lines
  hostData := 0
  path := Path.reset anchor
  params := Params.defaults
  geo := Geo.reset
  nodes := List.replicate Config.maxNodes none
  trk := List.replicate Config.maxCars Car.fresh
  arr := Arr.reset
  prm := Prm.reset
  msg := List.replicate Config.maxMessages Message.fresh
  txf := Txf.reset
  trg := List.replicate Config.maxTriggers none
  ovr := List.replicate Config.channels Channel.reset
  disp := { cmp := Cmp.reset, lnk := List.replicate Config.rings Ring.reset, rpt := Rpt.reset }

/-- The machine right after reset: the part after RESET_N with the straps low and the lines released, memory with
nothing listed, no command waiting. -/
def State.reset : State where
  part := Part.reset 0 0
  mem := []
  pending := []

end Sys2Proof.Machine
end

