-- ==== Sys2Proof/Machine/Ops.lean ====
section
/-! DEFINITION. The operations every block shares: bit fields of words, the memory, time, and the handing of reports,
status changes and counts to RPT. The block has no exception entry; raising ATTN_N and counting are the
effects that stand in its place (R183, R186). -/

namespace Sys2Proof.Machine

/-! ### Bits of a word (spec/11 section 11.1) -/

/-- The number in the `n` bits of `w` from bit `lo` upward. -/
def field (w : Word) (lo n : Nat) : Nat := (w.toNat >>> lo) % 2 ^ n

/-- Bit `i` of `w`. -/
def bitAt (w : Word) (i : Nat) : Bool := w.getLsbD i

/-- Byte `i` of `w`: byte 0 is bits 7:0. -/
def byteAt (w : Word) (i : Nat) : Byte := w.extractLsb' (8 * i) 8

/-- The number `v` placed with its bit 0 at bit `lo` of a word. -/
def place (lo v : Nat) : Word := BitVec.ofNat 32 (v <<< lo)

/-- The word of four bytes, byte 0 first. -/
def wordOfBytes (b0 b1 b2 b3 : Byte) : Word := b3 ++ b2 ++ b1 ++ b0

/-- Byte-by-byte merge of a write into a word: each byte whose enable is set takes the written byte (R177). -/
def mergeWord (old data : Word) (be : BitVec 4) : Word :=
  let pick (i : Nat) : Byte := if be.getLsbD i then byteAt data i else byteAt old i
  wordOfBytes (pick 0) (pick 1) (pick 2) (pick 3)

/-! ### Memory (R164)

Byte cell `4 * a + i` is byte `i` of the word at address `a`. A byte that nothing has written reads as 0
(log entry 2). The canonical form lists strictly rising cells, none of them 0. -/

/-- What an unlisted byte of memory reads as (log entry 2). -/
def memoryAtPowerOn : Byte := 0

/-- The byte of cell `k`. -/
def readByte : List Host.Cell → Nat → Byte
  | [], _ => memoryAtPowerOn
  | (k', v) :: rest, k => if k = k' then v else readByte rest k

/-- Write a byte, keeping the canonical form. -/
def writeByte : List Host.Cell → Nat → Byte → List Host.Cell
  | [], k, v => if v = memoryAtPowerOn then [] else [(k, v)]
  | (k', v') :: rest, k, v =>
    if k < k' then
      if v = memoryAtPowerOn then (k', v') :: rest else (k, v) :: (k', v') :: rest
    else if k = k' then
      if v = memoryAtPowerOn then rest else (k, v) :: rest
    else (k', v') :: writeByte rest k v

/-- The word at address `a`. -/
def readWord (m : List Host.Cell) (a : Addr) : Word :=
  let b (i : Nat) : Byte := readByte m (4 * a.toNat + i)
  wordOfBytes (b 0) (b 1) (b 2) (b 3)

/-- One byte lane of a host or own write. -/
def writeLane (data : Word) (be : BitVec 4) (a : Addr) (m : List Host.Cell) (i : Nat) : List Host.Cell :=
  if be.getLsbD i then writeByte m (4 * a.toNat + i) (byteAt data i) else m

/-- A write of `data` with byte enables `be` at address `a` (R164). -/
def writeWord (m : List Host.Cell) (a : Addr) (data : Word) (be : BitVec 4) : List Host.Cell :=
  [0, 1, 2, 3].foldl (writeLane data be a) m

/-- The part's own writes write whole words. -/
def writeWhole (m : List Host.Cell) (a : Addr) (data : Word) : List Host.Cell := writeWord m a data 0xF#4

/-- A cell list whose cells rise strictly from `low` on, are none of them 0 and lie inside the 64 MiB. -/
def cellsFrom : Nat → List Host.Cell → Bool
  | _, [] => true
  | low, (k, v) :: rest => low ≤ k && v != memoryAtPowerOn && k < 2 ^ 26 && cellsFrom (k + 1) rest

/-- The canonical form of memory. -/
def memoryWf (m : List Host.Cell) : Bool := cellsFrom 0 m

/-! ### Time (R166) -/

/-- The milliseconds since `t`, modulo 2^32. -/
def Part.since (p : Part) (t : Time) : Nat := (p.now - t).toNat

/-- Whether the counter has reached the time `t`: every interval is below 2^31 ms (R166). -/
def Part.reached (p : Part) (t : Time) : Bool := p.since t < 2 ^ 31

/-- The time `ms` milliseconds from now. -/
def Part.after (p : Part) (ms : Nat) : Time := p.now + BitVec.ofNat 32 ms

/-! ### Deglitch modes (R5, R128) -/

/-- The pair (m, n) of a mode. -/
def Deglitch.pair : Deglitch → Nat × Nat
  | .oneOfOne => (1, 1)
  | .twoOfThree => (2, 3)
  | .fourOfEight => (4, 8)
  | .sevenOfEight => (7, 8)

/-- The newest `n` entries of a history kept oldest first. -/
def newest {α : Type} (n : Nat) (history : List α) : List α := history.drop (history.length - n)

/-- Append to a history of at most 8, the oldest leaving first (R20, R27, R127). -/
def pushHistory {α : Type} (history : List α) (x : α) : List α := newest Config.historyLimit (history ++ [x])

/-! ### What every block hands RPT (R181, R185, R186) -/

/-- The place of a counter in Table 10-2. -/
def CounterId.index : CounterId → Nat
  | .substitution => 0
  | .refusedRecord => 1
  | .positionClamp => 2
  | .codeHold => 3
  | .stopList => 4
  | .estimateClamp => 5
  | .assignRefusal => 6
  | .displaced => 7
  | .dropped => 8
  | .unknownNumber => 9
  | .expired => 10
  | .textTruncation => 11
  | .triggerTarget => 12
  | .missedTrigger => 13
  | .repeatTake => 14
  | .reportDrop => 15

/-- The value of a counter. -/
def Rpt.counter (r : Rpt) (c : CounterId) : BitVec 16 := r.counters.getD c.index 0

/-- The index of the records of the status table, in table order (R185). -/
def carRecordIndex (c : Nat) : Nat := c
def nodeRecordIndex (j : Nat) : Nat := 32 + j
def ringRecordIndex (n : Nat) : Nat := 224 + n
def channelRecordIndex (n : Nat) : Nat := 230 + n
def countersRecordIndex : Nat := 234

/-- A status change: the shadow takes the values and the pending mark is set (R185). -/
def Rpt.status (r : Rpt) (index : Nat) (fields : List Word) : Rpt :=
  { r with records := r.records.modify index fun x => { x with fields := fields, pending := true } }

/-- The field words of the counters record: two counters a word, the first in bits 15:0 (Table 11-11). -/
def counterFields (counters : List (BitVec 16)) : List Word :=
  (List.range 8).map fun i =>
    place 0 (counters.getD (2 * i) 0).toNat ||| place 16 (counters.getD (2 * i + 1) 0).toNat

/-- Replace the counters; a change is a status change of the counters record (R186). -/
def Rpt.setCounters (r : Rpt) (counters : List (BitVec 16)) : Rpt :=
  if counters = r.counters then r
  else ({ r with counters := counters }).status countersRecordIndex (counterFields counters)

/-- Count `n` occurrences: 16 bits wide, holding at 65,535 (R186). -/
def Rpt.count (r : Rpt) (c : CounterId) (n : Nat) : Rpt :=
  r.setCounters (r.counters.modify c.index fun v => BitVec.ofNat 16 (min 65535 (v.toNat + n)))

/-- A report handed to RPT: it joins the waiting queue, is dropped and counted when the queue is full, and is
discarded while no report area is in use (R181). The drop count holds at 65,535 (DESIGN CHOICE, log entry 29). -/
def Rpt.hand (r : Rpt) (now : Time) (words : Word × Word) : Rpt :=
  match r.area with
  | none => r
  | some _ =>
    if r.waiting.length < Config.reportQueueLimit then
      { r with waiting := r.waiting ++ [{ word0 := words.1, word1 := words.2, time := now }] }
    else
      ({ r with drops := BitVec.ofNat 16 (min 65535 (r.drops.toNat + 1)) }).count .reportDrop 1

/-- Set the state of a ring slot. ATTN_N is asserted while any slot is UNCONSUMED (R183). -/
def Rpt.setSlot (r : Rpt) (slot : Nat) (st : SlotState) : Rpt :=
  let slots := r.slots.set slot st
  { r with slots := slots, attention := slots.any (· = .unconsumed) }

/-- Change RPT inside the part. -/
def Part.onRpt (p : Part) (f : Rpt → Rpt) : Part := { p with disp := { p.disp with rpt := f p.disp.rpt } }

/-- Hand a report, given by its first two words. -/
def Part.report (p : Part) (words : Word × Word) : Part := p.onRpt (·.hand p.now words)

/-- Count occurrences. -/
def Part.count (p : Part) (c : CounterId) (n : Nat) : Part := p.onRpt (·.count c n)

/-- Hand a status change. -/
def Part.status (p : Part) (index : Nat) (fields : List Word) : Part := p.onRpt (·.status index fields)

/-! ### Lookups -/

/-- The car of index `c` (a fresh one for an index that does not exist). -/
def Part.car (p : Part) (c : Nat) : Car := p.trk.getD c Car.fresh

/-- Deck `d` of a car. -/
def Car.deck (c : Car) (d : Nat) : Deck := c.decks.getD d Deck.fresh

/-- Deck `d` of car `c` as TRK holds it. -/
def Part.deck (p : Part) (c d : Nat) : Deck := (p.car c).deck d

/-- The message entry `m`. -/
def Part.message (p : Part) (m : Nat) : Message := p.msg.getD m Message.fresh

/-- The override channel `k`. -/
def Part.channel (p : Part) (k : Nat) : Channel := p.ovr.getD k Channel.reset

/-- The node table entry `j`. -/
def Part.node (p : Part) (j : Nat) : Option NodeConfig := (p.nodes[j]?).join

/-- The link engine of ring `n`. -/
def Disp.ring (d : Disp) (n : Nat) : Ring := d.lnk.getD n Ring.reset

/-- The node at `position` of a ring. -/
def Ring.node (r : Ring) (position : Nat) : Option LinkNode :=
  if position = 0 then none else r.nodes[position - 1]?

/-- Change the node at `position` of a ring. -/
def Ring.setNode (r : Ring) (position : Nat) (n : LinkNode) : Ring :=
  { r with nodes := if position = 0 then r.nodes else r.nodes.set (position - 1) n }

/-- Replace the link engine of ring `n`. -/
def Disp.setRing (d : Disp) (n : Nat) (r : Ring) : Disp := { d with lnk := d.lnk.set n r }

/-- Whether the path has a running configuration: RUNNING, or TAKING from RUNNING (R165). -/
def Path.configured (p : Path) : Bool :=
  match p.state with
  | .running => true
  | .taking fromRunning => fromRunning
  | .unconfigured => false

end Sys2Proof.Machine
end

