-- ==== Sys2Proof/Machine/Flags.lean ====
section
/-! DEFINITION. The words the part writes (R189): report entries (Table 11-10), status records (Table 11-11), the take
word result (Table 11-2), and the codes inside them. -/

namespace Sys2Proof.Machine

/-! ### Codes -/

/-- Service mode codes (Table 11-6, Table 11-11). -/
def ServiceMode.code : ServiceMode → Nat
  | .normal => 0
  | .independent => 1
  | .outOfService => 2
  | .fireRecall => 3
  | .fireService => 4
  | .evacuation => 5
  | .inspection => 6

/-- Motion codes (Table 11-11). -/
def Motion.code : Motion → Nat
  | .still => 0
  | .movingUp => 1
  | .movingDown => 2

/-- Indication state codes (Table 11-11). -/
def Indication.code : Indication → Nat
  | .unknown => 0
  | .atFloor => 1
  | .moving => 2
  | .express => 3
  | .between => 4
  | .stale => 5

/-- Node state codes (Table 11-11). -/
def NodeState.code : NodeState → Nat
  | .absent => 0
  | .active => 1
  | .suspect => 2
  | .lost => 3

/-- Ring state codes (Table 11-11). -/
def RingState.code : RingState → Nat
  | .untested => 0
  | .closed => 1
  | .broken => 2
  | .down => 3

/-- Frame kind codes (Table 11-12). -/
def FrameKind.code : FrameKind → Nat
  | .poll => 1
  | .paint => 2
  | .alert => 3
  | .trace => 4

/-- Region codes (Table 11-12). -/
def regionNumber : Region → Nat
  | .floor => 1
  | .arrow => 2
  | .trip => 3
  | .prompt => 4
  | .line => 5
  | .banner => 6

/-- The region code of a frame: 0 for none. -/
def regionCode : Option Region → Nat
  | none => 0
  | some r => regionNumber r

/-- Direction codes (Table 11-6, section 11.5). -/
def Direction.code : Direction → Nat
  | .none => 0
  | .up => 1
  | .down => 2

/-- Take kind codes (Table 11-10). -/
def TakeKind.code : TakeKind → Nat
  | .full => 1
  | .params => 2

/-- Channel states (R131). -/
inductive ChannelState where
  | off
  | active
  | latched
  deriving DecidableEq, Repr

/-- A channel's state from its latch and its two sources (R131). -/
def Channel.state (c : Channel) : ChannelState :=
  if c.latch then (if c.accepted || c.memory then .active else .latched) else .off

/-- Channel state codes (Table 11-11). -/
def ChannelState.code : ChannelState → Nat
  | .off => 0
  | .active => 1
  | .latched => 2

/-! ### The take word as the part writes it (Table 11-2) -/

/-- Result mark, result code and entry index. -/
def takeResultWord (code entry : Nat) : Word := place 31 1 ||| place 16 (code % 256) ||| place 0 (entry % 65536)

/-! ### Refusal codes (Table 11-3) -/

def refSignature : Nat := 0x01
def refVersion : Nat := 0x02
def refWindowSize : Nat := 0x03
def refWindowOverlap : Nat := 0x04
def refFloorCount : Nat := 0x05
def refLabel : Nat := 0x06
def refFloorOrder : Nat := 0x07
def refFloorGap : Nat := 0x08
def refCarConfig : Nat := 0x09
def refServedSet : Nat := 0x0A
def refNodeConfig : Nat := 0x0B
def refNodeDuplicate : Nat := 0x0C
def refTriggerConfig : Nat := 0x0D
def refOverrideConfig : Nat := 0x0E
def refParamRange : Nat := 0x0F
def refModified : Nat := 0x10
def refOverrideActive : Nat := 0x11

/-! ### Report entries (Table 11-10): words 0 and 1 -/

/-- Word 0 of a report whose fields are two bytes: kind, bits 15:8, bits 23:16. -/
def reportWord0 (kind f8 f16 : Nat) : Word := place 0 kind ||| place 8 (f8 % 256) ||| place 16 (f16 % 256)

/-- Word 0 of a report with a node field: node index, ring, ring position. -/
def reportNodeWord0 (kind index ring position : Nat) : Word :=
  place 0 kind ||| place 8 (index % 256) ||| place 16 (ring % 8) ||| place 24 (position % 64)

def repTakeDone (kind : TakeKind) (code entry : Nat) : Word × Word :=
  (reportWord0 0x01 kind.code code, place 0 entry)
def repRecordRefused (window slot : Nat) : Word × Word := (reportWord0 0x02 window 0, place 0 slot)
def repCarStale (car : Nat) : Word × Word := (reportWord0 0x03 car 0, 0)
def repCarResumed (car : Nat) : Word × Word := (reportWord0 0x04 car 0, 0)

/-- Reasons of ASSIGN_REFUSED (Table 11-10). -/
inductive AssignReason where
  | badTerminal
  | badCar
  | notServed
  | carWithdrawn
  | duplicate
  | tableFull
  deriving DecidableEq, Repr

def AssignReason.code : AssignReason → Nat
  | .badTerminal => 1
  | .badCar => 2
  | .notServed => 3
  | .carWithdrawn => 4
  | .duplicate => 5
  | .tableFull => 6

/-- `recordKind` is 1 for NEW, 3 for REASSIGN. -/
def repAssignRefused (recordKind : Nat) (number : Nat) (why : AssignReason) : Word × Word :=
  (reportWord0 0x05 recordKind why.code, place 0 (number % 65536))
def repRetiredDisplaced (number : Nat) : Word × Word :=
  (reportWord0 0x06 1 0, place 0 1 ||| place 16 (number % 65536))
def repRetiredWithdrawn (car count : Nat) : Word × Word := (reportWord0 0x06 2 car, place 0 count)
def repRetiredOverride (channel count : Nat) : Word × Word := (reportWord0 0x06 3 channel, place 0 count)
def repAssignDropped (index ring position channel number : Nat) : Word × Word :=
  (reportNodeWord0 0x07 index ring position, place 0 channel ||| place 16 (number % 65536))
def repMessageExpired (id : Nat) : Word × Word := (reportWord0 0x08 id 0, 0)

/-- The owner byte of TEXT_FAULT (Table 11-10). -/
def TextOwner.code : TextOwner → Nat
  | .message id => id
  | .line n => 0x80 + 2 * n
  | .banner n => 0x81 + 2 * n

/-- Causes of a text fault (R98, R99). -/
inductive TextCause where
  | area
  | bounds
  | length
  deriving DecidableEq, Repr

def TextCause.code : TextCause → Nat
  | .area => 1
  | .bounds => 2
  | .length => 3

def repTextFault (owner : TextOwner) (cause : TextCause) : Word × Word :=
  (reportWord0 0x09 owner.code cause.code, 0)
def repTriggerMissed (trigger car message : Nat) : Word × Word :=
  (reportWord0 0x0A trigger car, place 0 (message % 256))
def repTriggerFired (trigger car : Nat) (condition : Bool) : Word × Word :=
  (reportWord0 0x0B trigger car, place 0 condition.toNat)
def repFrameRejected (index ring position : Nat) (kind : FrameKind) (region : Option Region) (version : Byte) :
    Word × Word :=
  (reportNodeWord0 0x0C index ring position,
    place 0 kind.code ||| place 8 (regionCode region) ||| place 16 version.toNat)
def repNodeLost (index ring position : Nat) : Word × Word := (reportNodeWord0 0x0D index ring position, 0)
def repNodeJoined (index ring position : Nat) : Word × Word := (reportNodeWord0 0x0E index ring position, 0)
def repRingBroken (ring a c : Nat) : Word × Word :=
  (reportWord0 0x0F ring 0, place 0 (a % 256) ||| place 8 (c % 256))
def repRingClosed (ring : Nat) : Word × Word := (reportWord0 0x10 ring 0, 0)
def repLinkDown (ring : Nat) : Word × Word := (reportWord0 0x11 ring 0, 0)
def repOverrideOn (channel : Nat) (line memory : Bool) : Word × Word :=
  (reportWord0 0x12 channel (line.toNat + 2 * memory.toNat), 0)
def repOverrideOff (channel : Nat) : Word × Word := (reportWord0 0x13 channel 0, 0)

/-! ### Status record fields (Table 11-11) -/

/-- The word of one deck: indication state and accepted floor, FFH for none. -/
def deckStatusWord (d : Deck) : Word := place 8 d.state.code ||| place 0 (d.accepted.getD 0xFF)

/-- A car record's fields (R38, Table 11-11). -/
def carStatus (configured : Bool) (c : Car) : List Word :=
  [place 31 configured.toNat ||| place 16 c.mode.code ||| place 0 c.motion.code,
    BitVec.ofInt 32 c.speed, deckStatusWord (c.deck 0), deckStatusWord (c.deck 1)]

/-- A node record's fields for a node in use (R162, Table 11-11). -/
def nodeStatus (n : LinkNode) : List Word :=
  [place 31 1 ||| place 28 n.lowBrightness.toNat ||| place 16 (n.retry % 256) ||| place 8 (n.flights.length % 256)
    ||| place 0 n.state.code]

/-- A link record's fields (R162, Table 11-11). -/
def ringStatus (r : Ring) : List Word :=
  let ac : Nat × Nat := r.location.getD (0xFF, 0xFF)
  [place 24 r.through ||| place 16 (ac.2 % 256) ||| place 8 (ac.1 % 256) ||| place 0 r.state.code,
    place 16 r.stats.maximum ||| place 0 r.stats.minimum,
    place 16 r.stats.retries ||| place 0 r.stats.sent,
    place 16 r.stats.rejected ||| place 0 r.stats.late]

/-- A channel record's fields (R138, Table 11-11). -/
def channelStatus (c : Channel) : List Word :=
  [place 17 c.memory.toNat ||| place 16 c.accepted.toNat ||| place 0 c.state.code]

/-- The size in words and the offset in the report area of a status record (Table 11-11). -/
def recordOffset (index : Nat) : Nat :=
  if index < 32 then 256 + 6 * index
  else if index < 224 then 448 + 3 * (index - 32)
  else if index < 230 then 1024 + 6 * (index - 224)
  else if index < 234 then 1060 + 3 * (index - 230)
  else 1072

end Sys2Proof.Machine
end

