-- ==== Sys2Proof/Machine/Operands.lean ====
section
/-! DEFINITION. How the part reads the words the host writes: the records of the watched windows (Tables 11-6 to 11-9)
and the anchor block (Tables 11-1, 11-2, 11-4, 11-5). -/

namespace Sys2Proof.Machine

/-- Word `i` of a record. -/
def recordWord (words : List Word) (i : Nat) : Word := words.getD i 0

/-- The four bytes of a word, byte 0 first. -/
def wordBytes (w : Word) : List Byte := [byteAt w 0, byteAt w 1, byteAt w 2, byteAt w 3]

/-! ### Shared forms (Table 11-5) -/

/-- A floor range: none is ANY, otherwise lowest and highest. -/
def readRange (w : Word) : Option (Nat × Nat) := if bitAt w 31 then none else some (field w 0 8, field w 8 8)

/-- A text reference. -/
def readRef (w0 w1 : Word) : TextRef := { area := field w0 0 2, offset := w1, length := field w0 8 8 }

/-! ### The car record (Table 11-6) -/

/-- A direction code (R16). -/
def readDirection : Nat → Option Direction
  | 0 => some .none
  | 1 => some .up
  | 2 => some .down
  | _ => none

/-- A door state code (R16). -/
def readDoor : Nat → Option Door
  | 0 => some .closed
  | 1 => some .opening
  | 2 => some .opened
  | 3 => some .closing
  | _ => none

/-- A service mode code (R16). -/
def readMode : Nat → Option ServiceMode
  | 0 => some .normal
  | 1 => some .independent
  | 2 => some .outOfService
  | 3 => some .fireRecall
  | 4 => some .fireService
  | 5 => some .evacuation
  | 6 => some .inspection
  | _ => none

/-- The position field of a car record, signed (R15). -/
def carPosition (words : List Word) : Int := (recordWord words 0).toInt

/-- The drive direction field. -/
def carDrive (words : List Word) : Option Direction := readDirection (field (recordWord words 1) 0 8)

/-- The departure direction field. -/
def carDeparture (words : List Word) : Option Direction := readDirection (field (recordWord words 1) 8 8)

/-- The door state field. -/
def carDoor (words : List Word) : Option Door := readDoor (field (recordWord words 2) 0 8)

/-- The service mode field. -/
def carMode (words : List Word) : Option ServiceMode := readMode (field (recordWord words 2) 8 8)

/-- The stop list count field. -/
def carStopCount (words : List Word) : Nat := field (recordWord words 2) 16 8

/-- The eight stop list entries. Entry 1 is byte 0 of word 3 and entry 5 byte 0 of word 4, in the order in which section 11.1
numbers the bytes of a word (DEDUCED, log entry 32). -/
def carStopEntries (words : List Word) : List Nat :=
  (wordBytes (recordWord words 3) ++ wordBytes (recordWord words 4)).map (·.toNat)

/-! ### The assignment record (Table 11-7) -/

def assignKind (words : List Word) : Nat := field (recordWord words 0) 0 8
def assignNumber (words : List Word) : Nat := field (recordWord words 0) 16 16
def assignStepFree (words : List Word) : Bool := bitAt (recordWord words 0) 8
def assignTerminal (words : List Word) : Nat := field (recordWord words 1) 0 16
def assignDestination (words : List Word) : Nat := field (recordWord words 1) 16 16
def assignCar (words : List Word) : Nat := field (recordWord words 2) 0 8
def assignDeck (words : List Word) : Nat := field (recordWord words 2) 8 8

/-! ### The message record (Table 11-8) -/

def messageRequest (words : List Word) : Nat := field (recordWord words 0) 0 8
def messageKindCode (words : List Word) : Nat := field (recordWord words 0) 12 2

/-- A car filter code (R86). -/
def readFilter (code : Nat) : Option CarFilter :=
  if code < 0x20 then some (.car code)
  else if code = 0x40 then some .any
  else if code = 0x41 then some .source
  else none

def messageFilter (words : List Word) : Option CarFilter := readFilter (field (recordWord words 0) 16 8)

/-- The fields a DEFINE or ACTIVATE stores (R87), for a record that passed R86. -/
def messageFields (words : List Word) : MessageFields where
  priority := field (recordWord words 0) 8 3
  banner := messageKindCode words = 1
  filter := (messageFilter words).getD .any
  groups := BitVec.ofNat 16 (field (recordWord words 1) 0 16)
  range := readRange (recordWord words 2)
  lifetime := field (recordWord words 1) 16 16
  ref := readRef (recordWord words 3) (recordWord words 4)

/-! ### The override record (Table 11-9) -/

/-- The request code for channel `n`. -/
def overrideCode (words : List Word) (n : Nat) : Nat := field (recordWord words 0) (8 * n) 8

/-! ### Record windows (Table 9-1, R176) -/

/-- Words of one record of record window `w`. -/
def recordSize (w : Nat) : Nat := if w = 0 then 16 else 8

/-- Slots of record window `w`. -/
def recordSlots : Nat → Nat
  | 0 => 32
  | 1 => 128
  | 2 => 64
  | 3 => 1
  | _ => 0

/-- Words in the slots of record window `w`. -/
def recordWords (w : Nat) : Nat := recordSize w * recordSlots w

/-- The sequence number in a closing word (section 11.3). -/
def sequenceOf (closing : Word) : BitVec 16 := BitVec.ofNat 16 (field closing 0 16)

/-! ### The anchor block (Tables 11-1 and 11-4)

The readings take the block as a function from word offset to word, so that they serve the take copy of either kind. -/

/-- The base of the anchor block (R167). -/
def anchorBase (straps : BitVec 4) : Nat := straps.toNat * 1048576

def takeWordOffset : Nat := 0x002
def serviceWordOffset : Nat := 0x003

/-- The word offsets a take reads, in order: all of the block, or the header and the parameter block (R168). -/
def takeOffset (kind : TakeKind) (i : Nat) : Option Nat :=
  match kind with
  | .full => if i < 4096 then some i else none
  | .params => if i < 4 then some i else if i < 35 then some (0x014 + (i - 4)) else none

/-- The anchor block as the take copy holds it. -/
def Take.word (t : Take) (offset : Nat) : Word :=
  match t.kind with
  | .full => t.copy.getD offset 0
  | .params =>
    if offset < 4 then t.copy.getD offset 0
    else if 0x014 ≤ offset then t.copy.getD (offset - 0x014 + 4) 0 else 0

/-- Window `i` of the watch map. -/
def readWindow (w : Nat → Word) (i : Nat) : Window where
  present := bitAt (w (0x004 + 2 * i)) 31
  base := field (w (0x004 + 2 * i)) 0 24
  length := (w (0x005 + 2 * i)).toNat

/-- The watch map of 8 windows. -/
def readWatch (w : Nat → Word) : List Window := (List.range 8).map (readWindow w)

/-- Parameter `i` as a number. -/
def readParam (w : Nat → Word) (i : Nat) : Nat := (w (0x014 + i)).toNat

/-- Deglitch mode codes (section 11.2). -/
def readDeglitch : Nat → Option Deglitch
  | 0 => some .oneOfOne
  | 1 => some .twoOfThree
  | 2 => some .fourOfEight
  | 3 => some .sevenOfEight
  | _ => none

/-- The parameter block (Table 9-2). -/
def readParams (w : Nat → Word) : Params where
  staleMs := readParam w 0
  speedWindowMs := readParam w 1
  leadMs := readParam w 2
  leadMaxMm := readParam w 3
  vStill := readParam w 4
  dwellMs := readParam w 5
  startStopMs := readParam w 6
  doorCloseMs := readParam w 7
  etaUpHystS := readParam w 8
  lanternLeadS := readParam w 9
  promptShowMs := readParam w 10
  promptBusyMs := readParam w 11
  assignLifeS := readParam w 12
  rotateMs := readParam w 13
  pollMs := readParam w 14
  rejoinMs := readParam w 15
  ringCheckMs := readParam w 16
  returnTimeoutMs := (List.range 6).map fun r => readParam w (17 + r)
  retries := (List.range 6).map fun r => readParam w (23 + r)
  busyBackoffMs := readParam w 29
  overrideDeglitch := (readDeglitch (readParam w 30)).getD .twoOfThree

/-- Ring window W of ring `r`. -/
def readRingWindow (w : Nat → Word) (r : Nat) : Nat := (w (0x033 + r)).toNat

/-- The text before the first 00H (R2). -/
def labelOf (bytes : List Byte) : List Byte := bytes.takeWhile (· ≠ 0)

/-- PRESENT of floor entry `k`. -/
def floorPresent (w : Nat → Word) (k : Nat) : Bool := bitAt (w (0x040 + 2 * k)) 31

/-- Floor entry `k` (R2). -/
def readFloor (w : Nat → Word) (k : Nat) : Floor where
  level := field (w (0x040 + 2 * k)) 0 20
  label := labelOf (wordBytes (w (0x041 + 2 * k)))
  landing := bitAt (w (0x040 + 2 * k)) 30
  fireAccess := bitAt (w (0x040 + 2 * k)) 29

/-- The floor count: the number of leading entries with PRESENT (R2). -/
def floorCount (w : Nat → Word) : Nat := ((List.range Config.maxFloors).takeWhile (floorPresent w)).length

/-- The floor table (R2). -/
def readFloors (w : Nat → Word) : List Floor := (List.range (floorCount w)).map (readFloor w)

/-- Word `i` of car slot `c`. -/
def carWord (w : Nat → Word) (c i : Nat) : Word := w (0x180 + 16 * c + i)

/-- The configured mark of car slot `c`. -/
def carConfigured (w : Nat → Word) (c : Nat) : Bool := bitAt (carWord w c 0) 31

/-- A served set from its five words: floor k at word k / 32, bit k mod 32 (Table 11-4). -/
def readServed (w : Nat → Word) (c first : Nat) : List Nat :=
  (List.range Config.maxFloors).filter fun k => bitAt (carWord w c (first + k / 32)) (k % 32)

/-- The values of car slot `c` (R5). -/
def readCar (w : Nat → Word) (c : Nat) : CarConfig where
  vRated := field (carWord w c 1) 0 16
  zone := field (carWord w c 1) 16 16
  deglitch := (readDeglitch (field (carWord w c 0) 16 3)).getD .oneOfOne
  decks := field (carWord w c 0) 0 4
  spacing := field (carWord w c 2) 0 16
  label := labelOf [byteAt (carWord w c 3) 0, byteAt (carWord w c 3) 1]
  express := labelOf (wordBytes (carWord w c 4))
  served0 := readServed w c 5
  served1 := readServed w c 10

/-- The geometry image (R1). -/
def readGeo (w : Nat → Word) : Geo where
  floors := readFloors w
  cars := (List.range Config.maxCars).map fun c => if carConfigured w c then some (readCar w c) else none

/-- Word `i` of node entry `j`. -/
def nodeWord (w : Nat → Word) (j i : Nat) : Word := w (0x380 + 8 * j + i)

/-- The type code of node entry `j`. -/
def nodeTypeCode (w : Nat → Word) (j : Nat) : Nat := field (nodeWord w j 0) 0 3

/-- A node type code; UNUSED and unrecognised codes give none. -/
def readNodeType : Nat → Option NodeType
  | 1 => some .carPanel
  | 2 => some .hallLantern
  | 3 => some .terminal
  | 4 => some .lobbyBoard
  | _ => none

/-- The bearing code of node entry `j` for car `c`. -/
def readBearing (w : Nat → Word) (j c : Nat) : Nat := field (nodeWord w j (2 + c / 8)) (4 * (c % 8)) 4

/-- Node entry `j`, when in use. -/
def readNode (w : Nat → Word) (j : Nat) : Option NodeConfig :=
  (readNodeType (nodeTypeCode w j)).map fun type =>
    { type := type
      ring := field (nodeWord w j 0) 8 3
      position := field (nodeWord w j 0) 16 6
      group := field (nodeWord w j 0) 24 4
      threshold := field (nodeWord w j 0) 28 3
      floorMark := bitAt (nodeWord w j 0) 31
      floor := field (nodeWord w j 1) 16 16
      car := field (nodeWord w j 1) 0 8
      deck := field (nodeWord w j 1) 8 8
      bearings := (List.range Config.maxCars).map (readBearing w j) }

/-- The node table. -/
def readNodes (w : Nat → Word) : List (Option NodeConfig) := (List.range Config.maxNodes).map (readNode w)

/-- Word `i` of trigger entry `t`. -/
def triggerWord (w : Nat → Word) (t i : Nat) : Word := w (0x980 + 4 * t + i)

/-- The in-use mark of trigger entry `t`. -/
def triggerInUse (w : Nat → Word) (t : Nat) : Bool := bitAt (triggerWord w t 0) 31

/-- An edge mode code. -/
def readEdge : Nat → Option EdgeMode
  | 0 => some .level
  | 1 => some .rise
  | 2 => some .fall
  | 3 => some .both
  | _ => none

/-- An action code with its message ID. -/
def readAction (code message : Nat) : Option TriggerAction :=
  match code with
  | 0 => some (.activate message)
  | 1 => some (.cancel message)
  | 2 => some .report
  | _ => none

/-- Trigger entry `t` as loaded: IDLE, last condition UNKNOWN (R104, R109). -/
def readTrigger (w : Nat → Word) (t : Nat) : Option Trigger :=
  if triggerInUse w t then
    some
      { source := field (triggerWord w t 0) 0 8
        word := field (triggerWord w t 0) 8 4
        mask := triggerWord w t 2
        all := field (triggerWord w t 0) 12 2 = 1
        edge := (readEdge (field (triggerWord w t 0) 16 3)).getD .level
        action := (readAction (field (triggerWord w t 0) 20 3) (field (triggerWord w t 1) 0 8)).getD .report
        held := false
        last := none }
  else none

/-- The trigger table. -/
def readTriggers (w : Nat → Word) : List (Option Trigger) := (List.range Config.maxTriggers).map (readTrigger w)

/-- Word `i` of override channel entry `n`. -/
def channelWord (w : Nat → Word) (n i : Nat) : Word := w (0xA00 + 8 * n + i)

/-- The configuration of channel `n` (R130). -/
def readChannel (w : Nat → Word) (n : Nat) : ChannelConfig where
  groups := BitVec.ofNat 16 (field (channelWord w n 0) 0 16)
  range := readRange (channelWord w n 1)
  floorBlank := field (channelWord w n 0) 16 2 = 1
  arrowBlank := field (channelWord w n 0) 18 2 = 1

/-- An override text's reference, none when its present mark is clear; `first` is 2 for LINE, 4 for BANNER. -/
def readChannelText (w : Nat → Word) (n first : Nat) : Option TextRef :=
  if bitAt (channelWord w n first) 31 then some (readRef (channelWord w n first) (channelWord w n (first + 1)))
  else none

end Sys2Proof.Machine
end

