-- ==== Sys2Proof/Machine/Geometry.lean ====
section
/-! DEFINITION. GEO's lookups (chapter 1): levels, deck offsets, served sets, labels, the floor indicator text; and the
scope tests of override channels (R114, R134), which rest on the same tables. -/

namespace Sys2Proof.Machine

/-! ### Numbers -/

/-- The floor count (R2). -/
def Part.floorCount (p : Part) : Nat := p.geo.floors.length

/-- The level of floor `k` (R2). -/
def Part.level (p : Part) (k : Nat) : Nat := ((p.geo.floors[k]?).map (·.level)).getD 0

/-- The configuration of car `c`, none when the slot is not configured (R5). -/
def Part.carConfig (p : Part) (c : Nat) : Option CarConfig := (p.geo.cars[c]?).join

/-- The decks of car `c`, deck 0 first; none when it is not configured (R7). -/
def Part.decksOf (p : Part) (c : Nat) : List Nat :=
  match p.carConfig c with
  | none => []
  | some cfg => List.range cfg.decks

/-- Whether `d` is a deck of the configured car `c` (R7: otherwise "no such deck"). -/
def Part.isDeck (p : Part) (c d : Nat) : Bool := (p.decksOf c).contains d

/-- The deck offset (R7). -/
def CarConfig.offset (cfg : CarConfig) (d : Nat) : Nat := if d = 0 then 0 else cfg.spacing

/-- The served set of a deck. -/
def CarConfig.served (cfg : CarConfig) (d : Nat) : List Nat := if d = 0 then cfg.served0 else cfg.served1

/-- "Does deck d of car c serve floor k" (R8). -/
def Part.serves (p : Part) (c d k : Nat) : Bool :=
  match p.carConfig c with
  | none => false
  | some cfg => d < cfg.decks && k < p.floorCount && (cfg.served d).contains k

/-- The distance of two levels or positions. -/
def distance (a b : Nat) : Nat := max a b - min a b

/-- The floor whose zone holds the position `x` (R24, R42): at most one, since zones never meet (R3). -/
def Part.floorNear (p : Part) (zone x : Nat) : Option Nat :=
  (List.range p.floorCount).find? fun k => distance x (p.level k) ≤ zone

/-! ### Labels (R11, R12) -/

/-- The floor label of floor `k` (R11). -/
def Part.floorLabel (p : Part) (k : Nat) : List Byte := ((p.geo.floors[k]?).map (·.label)).getD []

/-- The deck mark (R11): none for a single-deck car, 83H lower, 82H upper. -/
def CarConfig.deckMark (cfg : CarConfig) (d : Nat) : List Byte :=
  if cfg.decks ≤ 1 then [] else if d = 0 then [0x83#8] else [0x82#8]

/-- Whether a service mode adds the fire mark (R12). -/
def ServiceMode.fire : ServiceMode → Bool
  | .fireRecall => true
  | .fireService => true
  | .normal => false
  | .independent => false
  | .outOfService => false
  | .evacuation => false
  | .inspection => false

/-- A floor label with its fire mark 85H (R12). -/
def Part.floorBody (p : Part) (mode : ServiceMode) (k : Nat) : List Byte :=
  p.floorLabel k ++
    (if mode.fire && ((p.geo.floors[k]?).map (·.fireAccess)).getD false then [0x85#8] else [])

/-- The floor indicator text of deck `d` of car `c` (R12). -/
def Part.floorText (p : Part) (c d : Nat) : List Byte :=
  match p.carConfig c, (p.deck c d).accepted with
  | some cfg, some a =>
    match (p.deck c d).state with
    | .unknown => []
    | .express =>
      cfg.deckMark d ++ (if cfg.express = [] then p.floorBody (p.car c).mode a else cfg.express)
    | .atFloor => cfg.deckMark d ++ p.floorBody (p.car c).mode a
    | .moving => cfg.deckMark d ++ p.floorBody (p.car c).mode a
    | .between => cfg.deckMark d ++ p.floorBody (p.car c).mode a
    | .stale => cfg.deckMark d ++ p.floorBody (p.car c).mode a
  | _, _ => []

/-! ### Character classes (R4) -/

/-- A code of the third class: neither printable nor glyph. -/
def thirdClass (b : Byte) : Bool := !((0x20 ≤ b.toNat && b.toNat ≤ 0x7E) || (0x80 ≤ b.toNat && b.toNat ≤ 0x9F))

/-- A text with each code of the third class replaced by 20H. -/
def substituted (text : List Byte) : List Byte := text.map fun b => if thirdClass b then 0x20#8 else b

/-- How many codes `substituted` replaces. -/
def substitutions (text : List Byte) : Nat := text.countP thirdClass

/-! ### Node floors and scope (R114, R134) -/

/-- The node floor (R114). -/
def Part.nodeFloor (p : Part) (n : NodeConfig) : Option Nat :=
  match n.type with
  | .carPanel =>
    match (p.deck n.car n.deck).state with
    | .unknown => none
    | .atFloor => (p.deck n.car n.deck).accepted
    | .moving => (p.deck n.car n.deck).accepted
    | .express => (p.deck n.car n.deck).accepted
    | .between => (p.deck n.car n.deck).accepted
    | .stale => (p.deck n.car n.deck).accepted
  | .hallLantern => some n.floor
  | .terminal => some n.floor
  | .lobbyBoard => some n.floor

/-- Whether a floor range holds a node floor: ANY holds every one, no other range holds none (R114, R134). -/
def inRange (range : Option (Nat × Nat)) (floor : Option Nat) : Bool :=
  match range, floor with
  | none, _ => true
  | some _, none => false
  | some (lo, hi), some f => lo ≤ f && f ≤ hi

/-- Whether the scope of channel `k` holds node `n` (R134). -/
def Part.inScope (p : Part) (k : Nat) (n : NodeConfig) : Bool :=
  match (p.channel k).config with
  | none => false
  | some cfg => cfg.groups.getLsbD n.group && inRange cfg.range (p.nodeFloor n)

/-- Whether channel `k` is ACTIVE or LATCHED (R131). -/
def Part.channelOn (p : Part) (k : Nat) : Bool := (p.channel k).state ≠ .off

/-- The governing channel of node `n`: the lowest ACTIVE or LATCHED one whose scope holds it (R134). -/
def Part.governing (p : Part) (n : NodeConfig) : Option Nat :=
  (List.range Config.channels).find? fun k => p.channelOn k && p.inScope k n

end Sys2Proof.Machine
end

