-- ==== Sys2Proof/Machine/LinkQueue.lean ====
section
/-! DEFINITION. The node queue of the link engines (R145, R146): what happens to a paint request from CMP and to a frame
that must be sent again. -/

namespace Sys2Proof.Machine

/-- Whether an entry stands in the ALERT section (R145). -/
def QueueEntry.isAlert (e : QueueEntry) : Bool := e.kind = .alert

/-- Place an entry at the end of the ALERT section. -/
def placeAlert (q : List QueueEntry) (e : QueueEntry) : List QueueEntry :=
  q.filter (·.isAlert) ++ e :: q.filter (!·.isAlert)

/-- Whether the content of an ARROW entry matches a chime count: UP for 1, DOWN for 2 (R145). -/
def QueueEntry.matchesChime (e : QueueEntry) (chime : Nat) : Bool :=
  e.region = some .arrow
    && ((chime = 1 && e.content.direction = .up) || (chime = 2 && e.content.direction = .down))

/-- Chime carry: `new` takes the older frame's count when it carries none itself and matches it (R145). -/
def carryChime (older new : QueueEntry) : QueueEntry :=
  if older.chime ≠ 0 && new.chime = 0 && new.matchesChime older.chime then { new with chime := older.chime }
  else new

/-- A paint request joins a node's queue (R145). -/
def enqueue (q : List QueueEntry) (new : QueueEntry) : List QueueEntry :=
  match q.find? (·.region = new.region) with
  | none => if new.isAlert then placeAlert q new else q ++ [new]
  | some old =>
    let e := carryChime old new
    if old.isAlert = new.isAlert then q.map fun x => if x.region = new.region then e else x
    else
      let rest := q.filter (·.region ≠ new.region)
      if new.isAlert then placeAlert rest e else rest ++ [e]

/-- A frame that must be sent again re-enters the queue at the front of its section, or is discarded in favour of a
queued entry for the same region, which takes its chime (R145, R152, R154). -/
def requeue (q : List QueueEntry) (e : QueueEntry) : List QueueEntry :=
  if q.any (·.region = e.region) then
    q.map fun x => if x.region = e.region then carryChime e x else x
  else if e.isAlert then e :: q
  else q.filter (·.isAlert) ++ e :: q.filter (!·.isAlert)

/-- Whether a node takes queue entries: ACTIVE or SUSPECT (R145, R155). -/
def NodeState.joined : NodeState → Bool
  | .active => true
  | .suspect => true
  | .absent => false
  | .lost => false

/-- The engine takes a paint request for an ACTIVE or SUSPECT node and discards it otherwise (R146). -/
def Disp.request (d : Disp) (ring position : Nat) (e : QueueEntry) : Disp :=
  match (d.ring ring).node position with
  | none => d
  | some n =>
    if n.state.joined then
      d.setRing ring ((d.ring ring).setNode position { n with queue := enqueue n.queue e })
    else d

end Sys2Proof.Machine
end

