-- ==== Sys2Proof/Machine/PromptText.lean ====
section
/-! DEFINITION. What PRM's table and queues say to the Composer: trip lists (R80), queue heads (R66) and the prompt text
(R82). -/

namespace Sys2Proof.Machine

/-! ### Trip lists (R80) -/

/-- Insert a floor into a list ordered by distance from a level, the lower floor first at equal distance. -/
def insertByDistance (p : Part) (board : Nat) (x : Nat) : List Nat → List Nat
  | [] => [x]
  | y :: ys =>
    let dx := distance (p.level x) (p.level board)
    let dy := distance (p.level y) (p.level board)
    if x = y then y :: ys
    else if dx < dy || (dx = dy && x < y) then x :: y :: ys
    else y :: insertByDistance p board x ys

/-- The members of the trip list of (car, deck, boarding floor): each destination once, nearest first (R80). -/
def Part.tripMembers (p : Part) (c d f : Nat) : List Nat :=
  ((p.prm.table.filter fun a => a.car = c && a.deck = d && a.boarding = f).map (·.destination)).foldl
    (fun acc x => insertByDistance p f x acc) []

/-- The shown trip list: the first 8 members, and the MORE mark (R80). -/
def Part.tripShown (p : Part) (c d f : Nat) : List Nat × Bool :=
  let members := p.tripMembers c d f
  (members.take 8, 8 < members.length)

/-- Texts separated by a space (20H). -/
def spaced : List (List Byte) → List Byte
  | [] => []
  | [t] => t
  | t :: ts => t ++ 0x20#8 :: spaced ts

/-- The codes of a TRIP region: the labels in order, and a space and "+" for MORE (R80). -/
def Part.tripText (p : Part) (c d f : Nat) : List Byte :=
  let shown := p.tripShown c d f
  spaced (shown.1.map p.floorLabel) ++ (if shown.2 then [0x20#8, 0x2B#8] else [])

/-! ### Queues and prompts (R66, R82) -/

/-- The live assignment with a number (R61: at most one). -/
def Part.assignment (p : Part) (number : Nat) : Option Assignment := p.prm.table.find? (·.number = number)

/-- The queue of a terminal. -/
def Part.queueOf (p : Part) (terminal : Nat) : List Nat :=
  ((p.prm.queues.find? (·.terminal = terminal)).map (·.refs)).getD []

/-- The head of a terminal's queue: its first reference, when it is SHOWING (R66). -/
def Part.headOf (p : Part) (terminal : Nat) : Option Assignment :=
  match p.queueOf terminal with
  | [] => none
  | n :: _ =>
    match p.assignment n with
    | none => none
    | some a => if a.prompt = .showing then some a else none

/-- A number up to 99 in decimal digits without a leading zero. -/
def decimal (n : Nat) : List Byte :=
  (if n < 10 then [] else [BitVec.ofNat 8 (0x30 + n / 10)]) ++ [BitVec.ofNat 8 (0x30 + n % 10)]

/-- The estimate piece of a prompt (R82). -/
def estimateText : Option Estimate → List Byte
  | none => [0x2D#8, 0x2D#8]
  | some .none => [0x2D#8, 0x2D#8]
  | some (.secs _ true) => [0x3E#8, 0x39#8, 0x39#8]
  | some (.secs 0 false) => [0x4E#8, 0x4F#8, 0x57#8]
  | some (.secs (n + 1) false) => decimal (n + 1)

/-- The prompt text of an assignment at its terminal (R82). -/
def Part.promptText (p : Part) (n : NodeConfig) (a : Assignment) : List Byte :=
  let car : List Byte :=
    match p.carConfig a.car with
    | none => []
    | some cfg => cfg.label ++ cfg.deckMark a.deck
  let bearing := n.bearings.getD a.car 0
  spaced
    ([car] ++ (if bearing = 0 then [] else [[BitVec.ofNat 8 (0x80 + bearing)]])
      ++ [p.floorLabel a.destination, estimateText a.estimate]
      ++ (if a.stepFree then [[0x84#8]] else []))

end Sys2Proof.Machine
end

