-- ==== Sys2Proof/Machine/Composer.lean ====
section
/-! DEFINITION. The Composer (chapter 6): what each region shows, message eligibility and rotation, versions and paint
requests. Every function reads the sources from a `Part` and changes a `Disp` alone: CMP, the link engines
it hands requests to, and RPT's substitution count. -/

namespace Sys2Proof.Machine

/-! ### Regions (R110) -/

/-- The regions of a node, in the fixed order (Table 6-1). -/
def NodeConfig.regions (n : NodeConfig) : List Region :=
  match n.type with
  | .carPanel => [.floor, .arrow, .line]
  | .hallLantern => if n.floorMark then [.floor, .arrow, .trip] else [.arrow, .trip]
  | .terminal => [.prompt, .line]
  | .lobbyBoard => [.line, .banner]

/-- Whether a region rotates messages. -/
def isMessageRegion : Region → Bool
  | .line => true
  | .banner => true
  | .floor => false
  | .arrow => false
  | .trip => false
  | .prompt => false

/-- A region record as formed at an acceptance (R126). -/
def RegionRecord.fresh (r : Region) : RegionRecord where
  region := r
  content := Content.blank
  version := 0
  source := .normal
  shown := none
  level := none
  dwell := none

/-- CMP as formed at an acceptance from the new node table (R126). -/
def freshCmp (nodes : List (Option NodeConfig)) : Cmp where
  nodes := nodes.map fun n =>
    match n with
    | none => { regions := [], reachable := false }
    | some cfg => { regions := cfg.regions.map RegionRecord.fresh, reachable := false }
  repainting := false

/-- The record of a region of node `j`. -/
def Cmp.region (c : Cmp) (j : Nat) (r : Region) : Option RegionRecord :=
  match c.nodes[j]? with
  | none => none
  | some n => n.regions.find? (·.region = r)

/-- Replace a region record of node `j`. -/
def Cmp.setRegion (c : Cmp) (j : Nat) (x : RegionRecord) : Cmp :=
  { c with nodes := c.nodes.modify j fun n =>
      { n with regions := n.regions.map fun y => if y.region = x.region then x else y } }

/-- Whether node `j` is reachable (R124). -/
def Cmp.reachable (c : Cmp) (j : Nat) : Bool := ((c.nodes[j]?).map (·.reachable)).getD false

/-! ### Normal content (R112, R113, R118) -/

/-- Content of codes alone. -/
def Content.ofCodes (codes : List Byte) : Content := { Content.blank with codes := codes }

/-- The FLOOR content of a deck (R112). -/
def floorContent (p : Part) (c d : Nat) : Content :=
  if (p.deck c d).state = .unknown then Content.blank
  else { Content.ofCodes (p.floorText c d) with stale := (p.deck c d).state = .stale }

/-- The ARROW content of a CAR_PANEL (R58). -/
def carArrow (p : Part) (c d : Nat) : Content :=
  if (p.deck c d).state = .unknown || (p.deck c d).state = .stale then Content.blank
  else { Content.blank with direction := (p.car c).drive, moving := (p.car c).motion ≠ .still }

/-- The lantern state of (car, deck, floor), when one exists (R51). -/
def Part.lantern (p : Part) (c d f : Nat) : Option Lantern :=
  p.arr.lanterns.find? fun l => l.car = c && l.deck = d && l.floor = f

/-- Whether the lantern of (car, deck, floor) is ANNOUNCE or OPEN. -/
def Part.lanternLit (p : Part) (c d f : Nat) : Bool :=
  match p.lantern c d f with
  | none => false
  | some l => l.state ≠ .dark

/-- The ARROW content of a HALL_LANTERN (R112). -/
def lanternArrow (p : Part) (c d f : Nat) : Content :=
  match p.lantern c d f with
  | none => Content.blank
  | some l => if l.state = .dark then Content.blank else { Content.blank with direction := l.shown }

/-- The content of a region of node `n` (index `j`) from its normal source, with the bytes replaced in it (R118). -/
def normalContent (p : Part) (j : Nat) (n : NodeConfig) (r : Region) (shown : Option Nat) : Content × Nat :=
  match r with
  | .floor => (floorContent p n.car n.deck, 0)
  | .arrow =>
    ((match n.type with
      | .carPanel => carArrow p n.car n.deck
      | .hallLantern => lanternArrow p n.car n.deck n.floor
      | .terminal => Content.blank
      | .lobbyBoard => Content.blank), 0)
  | .trip =>
    (if p.lanternLit n.car n.deck n.floor then Content.ofCodes (p.tripText n.car n.deck n.floor)
      else Content.blank, 0)
  | .prompt =>
    ((match p.headOf j with
      | none => Content.blank
      | some a => Content.ofCodes (p.promptText n a)), 0)
  | .line =>
    (match shown with
      | none => (Content.blank, 0)
      | some m => (Content.ofCodes (substituted (p.message m).text.buffer), substitutions (p.message m).text.buffer))
  | .banner =>
    (match shown with
      | none => (Content.blank, 0)
      | some m => (Content.ofCodes (substituted (p.message m).text.buffer), substitutions (p.message m).text.buffer))

/-! ### Content under a channel (R122) -/

/-- The override text content: the text when READY, blank otherwise (Table 6-5). -/
def overrideContent (t : Text) : Content × Nat :=
  if t.status = some .ready then (Content.ofCodes (substituted t.buffer), substitutions t.buffer)
  else (Content.blank, 0)

/-- The content, replaced bytes and source of a region (Table 6-5). -/
def composed (p : Part) (j : Nat) (n : NodeConfig) (r : Region) (shown : Option Nat) :
    (Content × Nat) × Source :=
  let normal := (normalContent p j n r shown, Source.normal)
  match p.governing n with
  | none => normal
  | some k =>
    match r with
    | .floor =>
      if ((p.channel k).config.map (·.floorBlank)).getD false then ((Content.blank, 0), .channel k) else normal
    | .arrow =>
      if ((p.channel k).config.map (·.arrowBlank)).getD false then ((Content.blank, 0), .channel k) else normal
    | .trip => ((Content.blank, 0), .channel k)
    | .prompt => ((Content.blank, 0), .channel k)
    | .line => (overrideContent (p.channel k).lineText, .channel k)
    | .banner => (overrideContent (p.channel k).bannerText, .channel k)

/-! ### Eligibility and rotation (R115 to R117) -/

/-- The car filter test (R115, item 6). -/
def filterMatches (m : Message) (filter : CarFilter) (n : NodeConfig) : Bool :=
  match filter with
  | .any => true
  | .car c => n.type = .carPanel && n.car = c
  | .source => n.type = .carPanel && m.cars.contains n.car

/-- Whether a message entry is eligible for a message region of node `n` (R115). -/
def eligible (p : Part) (n : NodeConfig) (r : Region) (m : Message) : Bool :=
  match m.fields with
  | none => false
  | some f =>
    m.state = .active && m.text.status = some .ready && n.threshold < f.priority
      && (if f.banner then r = .banner else r = .line)
      && f.groups.getLsbD n.group && filterMatches m f.filter n && inRange f.range (p.nodeFloor n)

/-- The priority of message `m`. -/
def Part.priorityOf (p : Part) (m : Nat) : Nat := ((p.message m).fields.map (·.priority)).getD 0

/-- The eligible set of a region, ascending. -/
def eligibleSet (p : Part) (n : NodeConfig) (r : Region) : List Nat :=
  (List.range p.msg.length).filter fun m => eligible p n r (p.message m)

/-- The top level of an eligible set: the highest priority in it. -/
def topLevel (p : Part) (set : List Nat) : Nat := (set.map p.priorityOf).foldl max 0

/-- The rotation list: the eligible messages at the top level, ascending. -/
def rotationList (p : Part) (n : NodeConfig) (r : Region) : List Nat :=
  let set := eligibleSet p n r
  set.filter fun m => p.priorityOf m = topLevel p set

/-- The lowest ID of the list above `m`, or the lowest of the list (R116, R117). -/
def nextAfter (list : List Nat) (m : Nat) : Option Nat :=
  match list.find? (m < ·) with
  | some x => some x
  | none => list.head?

/-- The choice of the shown message (Table 6-3). -/
def rotate (p : Part) (n : NodeConfig) (x : RegionRecord) : RegionRecord :=
  let list := rotationList p n x.region
  let top := topLevel p list
  let deadline := some (p.after p.params.rotateMs)
  match list with
  | [] => { x with shown := none, level := none, dwell := none }
  | first :: _ =>
    match x.shown with
    | none => { x with shown := some first, level := some top, dwell := deadline }
    | some m =>
      if x.level ≠ some top then { x with shown := some first, level := some top, dwell := deadline }
      else if list.contains m then x
      else { x with shown := nextAfter list m, dwell := deadline }

/-! ### Recomposition (R119, R120, R123, R124) -/

/-- The attributes a request is handed with. -/
structure RecomposeMode where
  /-- Re-issue: a version and a request even when the content is unchanged (R124). -/
  force : Bool
  /-- The chime count of the lantern change that caused it (R121). -/
  chime : Nat
  deriving DecidableEq, Repr

/-- An input other than a chime or a re-issue. -/
def RecomposeMode.plain : RecomposeMode := { force := false, chime := 0 }

/-- A re-issue (R124). -/
def RecomposeMode.reissue : RecomposeMode := { force := true, chime := 0 }

/-- Whether the recomposed region is handed as though its content differed: it returns from a channel to another
source (R123). -/
def leavesChannel (old new : Source) : Bool :=
  match old with
  | .normal => false
  | .channel _ => old ≠ new

/-- Recompose one region of node `j` (R116, R120, R122, R123). -/
def recompose (p : Part) (d : Disp) (j : Nat) (r : Region) (mode : RecomposeMode) : Disp :=
  match p.node j, d.cmp.region j r with
  | some n, some x =>
    let x1 := if isMessageRegion r then rotate p n x else x
    let made := composed p j n r x1.shown
    let content := made.1.1
    let x2 := { x1 with content := content, source := made.2 }
    if content ≠ x.content || leavesChannel x.source made.2 || mode.force then
      if d.cmp.reachable j then
        let x3 := { x2 with version := x.version + 1 }
        let entry : QueueEntry :=
          { kind := if (p.governing n).isSome then .alert else .paint
            region := some r, version := x3.version, content := content, chime := mode.chime }
        ({ d with cmp := d.cmp.setRegion j x3, rpt := d.rpt.count .substitution made.1.2 }).request
          n.ring n.position entry
      else { d with cmp := d.cmp.setRegion j x2 }
    else { d with cmp := d.cmp.setRegion j x2 }
  | _, _ => d

/-- A region to recompose: node index, region, mode. -/
abbrev Target := Nat × Region × RecomposeMode

/-- Recompose a list of targets in order. -/
def recomposeAll (p : Part) (d : Disp) (targets : List Target) : Disp :=
  targets.foldl (fun d t => recompose p d t.1 t.2.1 t.2.2) d

/-- The targets an input selects: for each node in ascending index, the chosen regions in order (Table 6-4). -/
def targetsOf (p : Part) (choose : Nat → NodeConfig → List Region) : List Target :=
  (List.range p.nodes.length).flatMap fun j =>
    match p.node j with
    | none => []
    | some n => (choose j n).map fun r => (j, r, RecomposeMode.plain)

/-- CMP deals with an input that selects regions. -/
def Part.recomposeFor (p : Part) (choose : Nat → NodeConfig → List Region) : Part :=
  { p with disp := recomposeAll p p.disp (targetsOf p choose) }

/-! ### The inputs of Table 6-4 -/

/-- TRK's change notice naming a car and deck. -/
def Part.cmpDeckChange (p : Part) (c d : Nat) : Part :=
  p.recomposeFor fun _ n =>
    if n.car = c && n.deck = d then
      match n.type with
      | .carPanel => n.regions
      | .hallLantern => n.regions.filter (· = .floor)
      | .terminal => []
      | .lobbyBoard => []
    else []

/-- Whether node `n` is a HALL_LANTERN bound to (car, deck, floor). -/
def NodeConfig.isLanternOf (n : NodeConfig) (c d f : Nat) : Bool :=
  n.type = .hallLantern && n.car = c && n.deck = d && n.floor = f

/-- ARR's lantern change, with its chime count carried by the ARROW requests (R121). -/
def Part.cmpLanternChange (p : Part) (c d f chime : Nat) : Part :=
  let targets := (targetsOf p fun _ n => if n.isLanternOf c d f then [.arrow, .trip] else []).map fun t =>
    if t.2.1 = .arrow then (t.1, t.2.1, { RecomposeMode.plain with chime := chime }) else t
  { p with disp := recomposeAll p p.disp targets }

/-- PRM's head change naming a terminal. -/
def Part.cmpHeadChange (p : Part) (terminal : Nat) : Part :=
  p.recomposeFor fun j n => if j = terminal && n.type = .terminal then [.prompt] else []

/-- ARR's estimate change: the PROMPT of the terminal whose head is the assignment, if it is a head. -/
def Part.cmpEstimateChange (p : Part) (number : Nat) : Part :=
  match p.assignment number with
  | none => p
  | some a =>
    if (p.headOf a.terminal).map (·.number) = some number then p.cmpHeadChange a.terminal else p

/-- PRM's trip list notice. -/
def Part.cmpTripNotice (p : Part) (c d f : Nat) : Part :=
  p.recomposeFor fun _ n => if n.isLanternOf c d f then [.trip] else []

/-- MSG's message notice: every LINE and BANNER region of every node. -/
def Part.cmpMessageNotice (p : Part) : Part := p.recomposeFor fun _ n => n.regions.filter isMessageRegion

/-- OVR's channel change: every region of every node (R122). -/
def Part.cmpChannelChange (p : Part) : Part := p.recomposeFor fun _ n => n.regions

/-- OVR's override text notice: the named region of every node whose source is that channel. -/
def Part.cmpTextNotice (p : Part) (channel : Nat) (banner : Bool) : Part :=
  p.recomposeFor fun j n =>
    n.regions.filter fun r =>
      r = (if banner then .banner else .line)
        && (p.disp.cmp.region j r).map (·.source) = some (.channel channel)

/-- Re-issue every region of node `j` (R124), inside a display side. -/
def reissueIn (p : Part) (d : Disp) (j : Nat) : Disp :=
  match p.node j with
  | none => d
  | some n => recomposeAll p d (n.regions.map fun r => (j, r, RecomposeMode.reissue))

/-- Set the reachable mark of node `j`. -/
def setReachable (d : Disp) (j : Nat) (on : Bool) : Disp :=
  { d with cmp := { d.cmp with nodes := d.cmp.nodes.modify j fun n => { n with reachable := on } } }

/-- Node joined (R124). -/
def nodeJoined (p : Part) (d : Disp) (j : Nat) : Disp := reissueIn p (setReachable d j true) j

/-- Node restarted (R124). -/
def nodeRestarted (p : Part) (d : Disp) (j : Nat) : Disp := reissueIn p d j

/-- Node lost (R124). -/
def nodeLost (d : Disp) (j : Nat) : Disp := setReachable d j false

/-- A repaint: every region of every reachable node is re-issued, ascending (R125). -/
def repaintIn (p : Part) (d : Disp) : Disp :=
  (List.range p.nodes.length).foldl (fun d j => if d.cmp.reachable j then reissueIn p d j else d) d

/-- A dwell deadline: the rotation moves on, then the region is recomposed (R117). -/
def dwellDeadline (p : Part) (d : Disp) (j : Nat) (r : Region) : Disp :=
  match p.node j, d.cmp.region j r with
  | some n, some x =>
    match x.dwell, x.shown with
    | some t, some m =>
      if p.reached t then
        let x' :=
          { x with
            shown := nextAfter (rotationList p n r) m
            dwell := some (p.after p.params.rotateMs) }
        recompose p { d with cmp := d.cmp.setRegion j x' } j r RecomposeMode.plain
      else d
    | _, _ => d
  | _, _ => d

end Sys2Proof.Machine
end

