-- ==== Sys2Proof/Machine/Frames.lean ====
section
/-! DEFINITION. The link frame (section 11.5, R143, R190): building the bytes a link engine sends, and reading and checking
the bytes that arrive. -/

namespace Sys2Proof.Machine

/-! ### CRC-16 and the trailer check (R190) -/

/-- One bit into the CRC register: generator 1021H, not reflected. -/
def crcBit (crc : BitVec 16) : BitVec 16 := if crc.getLsbD 15 then (crc <<< 1) ^^^ 0x1021#16 else crc <<< 1

/-- One byte into the CRC register, most significant bit first. -/
def crcByte (crc : BitVec 16) (b : Byte) : BitVec 16 :=
  let x := crc ^^^ (b.zeroExtend 16 <<< 8)
  crcBit (crcBit (crcBit (crcBit (crcBit (crcBit (crcBit (crcBit x)))))))

/-- The CRC-16 of a run of bytes: the register starts at FFFFH (R190). -/
def crc16 (bytes : List Byte) : BitVec 16 := bytes.foldl crcByte 0xFFFF#16

/-- The trailer check: the complement of the exclusive-or of the three trailer bytes before it (R190). -/
def trailerCheck (status flags hops : Byte) : Byte := ~~~(status ^^^ flags ^^^ hops)

/-! ### Payload and frame (R143, section 11.5) -/

/-- The attribute byte of a region's content (section 11.5). Its bits that carry no attribute, and all of it for a region other
than FLOOR and ARROW, are 0 (DESIGN CHOICE, log entry 36). -/
def attributeByte (region : Option Region) (c : Content) : Byte :=
  match region with
  | some .floor => BitVec.ofNat 8 c.stale.toNat
  | some .arrow => BitVec.ofNat 8 (c.direction.code + 4 * c.moving.toNat)
  | some .trip => 0
  | some .prompt => 0
  | some .line => 0
  | some .banner => 0
  | none => 0

/-- The payload of a queue entry: chime count, attribute byte, codes; none for a POLL or TRACE. -/
def payload (e : QueueEntry) : List Byte :=
  match e.kind with
  | .poll => []
  | .trace => []
  | .paint => BitVec.ofNat 8 e.chime :: attributeByte e.region e.content :: e.content.codes
  | .alert => BitVec.ofNat 8 e.chime :: attributeByte e.region e.content :: e.content.codes

/-- Bytes 0 to 5 + L of a frame (Table 11-12). -/
def frameBody (address tag : Nat) (e : QueueEntry) : List Byte :=
  let load := payload e
  [BitVec.ofNat 8 address, BitVec.ofNat 8 e.kind.code, BitVec.ofNat 8 tag, BitVec.ofNat 8 (regionCode e.region),
    e.version, BitVec.ofNat 8 load.length] ++ load

/-- The CRC bytes, high byte first. -/
def crcBytes (body : List Byte) : List Byte :=
  [(crc16 body).extractLsb' 8 8, (crc16 body).extractLsb' 0 8]

/-- The trailer a frame leaves with: EMPTY, flags clear, hop count 0 (R143). -/
def emptyTrailer : List Byte := [0, 0, 0, trailerCheck 0 0 0]

/-- A frame as the engine builds it. -/
def frameBytes (address tag : Nat) (e : QueueEntry) : List Byte :=
  frameBody address tag e ++ crcBytes (frameBody address tag e) ++ emptyTrailer

/-- The entry a POLL is built from. -/
def pollEntry : QueueEntry where
  kind := .poll
  region := none
  version := 0
  content := Content.blank
  chime := 0

/-- The entry a TRACE is built from. -/
def traceEntry : QueueEntry where
  kind := .trace
  region := none
  version := 0
  content := Content.blank
  chime := 0

/-! ### Arriving frames (R150, R190) -/

/-- The answer a trailer status gives (Table 11-12); of an unlisted status, a free value (log entry 12). -/
def readAnswer (status : Byte) : Answer :=
  match status.toNat with
  | 0 => .empty
  | 1 => .accepted
  | 2 => .busy
  | 3 => .rejected
  | _ => Config.unlistedAnswer status

/-- What the engine reads from an arriving frame that passes its checks. -/
structure Arrived where
  tag : Nat
  status : Byte
  restarted : Bool
  lowBrightness : Bool
  wrapped : Bool
  hops : Nat
  deriving DecidableEq, Repr

/-- What an arrived frame answers. -/
def Arrived.answer (a : Arrived) : Answer := readAnswer a.status

/-- Byte `i` of a frame. -/
def frameByte (bytes : List Byte) (i : Nat) : Byte := bytes.getD i 0

/-- Whether a frame's length, CRC and trailer check are good (R190). -/
def frameGood (bytes : List Byte) : Bool :=
  let l := (frameByte bytes 5).toNat
  6 ≤ bytes.length && l ≤ 100 && bytes.length = l + 12
    && crcBytes (bytes.take (6 + l)) = [frameByte bytes (6 + l), frameByte bytes (7 + l)]
    && frameByte bytes (11 + l)
      = trailerCheck (frameByte bytes (8 + l)) (frameByte bytes (9 + l)) (frameByte bytes (10 + l))

/-- An arriving frame, none when it fails a check (R150, R190). No check looks at the trailer status. -/
def readFrame (bytes : List Byte) : Option Arrived :=
  let l := (frameByte bytes 5).toNat
  if frameGood bytes then
    some
      { tag := (frameByte bytes 2).toNat
        status := frameByte bytes (8 + l)
        restarted := (frameByte bytes (9 + l)).getLsbD 0
        lowBrightness := (frameByte bytes (9 + l)).getLsbD 1
        wrapped := (frameByte bytes (9 + l)).getLsbD 7
        hops := (frameByte bytes (10 + l)).toNat }
  else none

end Sys2Proof.Machine
end

