-- ==== Sys2Proof/Machine/Links.lean ====
section
/-! DEFINITION. The link engines (chapter 8): the transmitter arbiter, sending, returns, node states, ring checks,
statistics. Every operation changes the display side alone (link engines, CMP's reachable marks and re-issues, RPT). -/

namespace Sys2Proof.Machine

/-! ### Status and reports -/

/-- Change RPT inside a display side. -/
def Disp.onRpt (d : Disp) (f : Rpt → Rpt) : Disp := { d with rpt := f d.rpt }

/-- A link status change (R162). -/
def Disp.linkNotice (d : Disp) (ring : Nat) : Disp :=
  d.onRpt (·.status (ringRecordIndex ring) (ringStatus (d.ring ring)))

/-- A node status change (R162). -/
def Disp.nodeNotice (d : Disp) (ring position : Nat) : Disp :=
  match (d.ring ring).node position with
  | none => d
  | some n => d.onRpt (·.status (nodeRecordIndex n.index) (nodeStatus n))

/-- A node status change when its state, retry count or LOW_BRIGHTNESS mark changed (R162). -/
def Disp.nodeNoticeIf (d : Disp) (ring position : Nat) (before : LinkNode) : Disp :=
  match (d.ring ring).node position with
  | none => d
  | some n =>
    if n.state = before.state && n.retry = before.retry && n.lowBrightness = before.lowBrightness then d
    else d.nodeNotice ring position

/-- Replace a node. -/
def Disp.setNode (d : Disp) (ring position : Nat) (n : LinkNode) : Disp :=
  d.setRing ring ((d.ring ring).setNode position n)

/-- Change the statistics of a ring. -/
def Ring.onStats (r : Ring) (f : Statistics → Statistics) : Ring := { r with stats := f r.stats }

/-- A statistics count holds at 65,535 (R162). -/
def statUp (n : Nat) : Nat := min 65535 (n + 1)

/-! ### Tags (R144) -/

/-- What a tag holds; none for FREE. -/
def Ring.tag (r : Ring) (t : Nat) : Option TagUse := (r.tags.find? (·.1 = t)).map (·.2)

/-- A tag becomes FREE. -/
def Ring.freeTag (r : Ring) (t : Nat) : Ring := { r with tags := r.tags.filter (·.1 ≠ t) }

/-- A tag takes a use. -/
def Ring.setTag (r : Ring) (t : Nat) (u : TagUse) : Ring := { r with tags := r.tags.filter (·.1 ≠ t) ++ [(t, u)] }

/-- The first FREE tag at or after the one following the tag given last (R144). -/
def Ring.nextTag (r : Ring) : Option Nat :=
  ((List.range Config.tags).map fun i => (r.lastTag + 1 + i) % Config.tags).find? fun t => (r.tag t).isNone

/-- Whether a tag holds an outstanding TRACE. -/
def TagUse.isTrace : TagUse → Bool
  | .outstanding rec => rec.entry.kind = .trace
  | .trailing _ _ => false

/-- Whether a TRACE of the ring is outstanding (R158). -/
def Ring.tracing (r : Ring) : Bool := r.tags.any (·.2.isTrace)

/-! ### The arbiter (R147, R148) -/

/-- Whether a queue entry may be sent to its node (R147). -/
def entryEligible (window : Nat) (n : LinkNode) (e : QueueEntry) : Bool :=
  !(n.flights.any fun f => f.entry.region = e.region) &&
    match e.kind with
    | .paint => n.flights.length < window
    | .alert => n.flights.length < window + 1
    | .poll => n.flights.length = 0
    | .trace => false

/-- The eligible entry nearest the head of a node's queue. -/
def firstEligible (window : Nat) (n : LinkNode) : Option QueueEntry :=
  if n.state.joined then n.queue.find? (entryEligible window n) else none

/-- The eligible ALERT nearest the head of a node's queue. -/
def firstAlert (window : Nat) (n : LinkNode) : Option QueueEntry :=
  if n.state.joined then n.queue.find? fun e => e.isAlert && entryEligible window n e else none

/-- What the arbiter chooses (R148). -/
inductive Choice where
  | trace
  | alert (position : Nat) (entry : QueueEntry)
  | served (position : Nat) (entry : QueueEntry)
  | join (position : Nat)
  deriving DecidableEq, Repr

/-- The eligible ALERT of the lowest ring position (R148, step 1). -/
def Ring.alertChoice (r : Ring) : Option Choice :=
  ((List.range r.nodes.length).findSome? fun i =>
    match r.node (i + 1) with
    | none => none
    | some n => (firstAlert r.window n).map (Choice.alert (i + 1)))

/-- A due TRACE, when none is outstanding (R148, step 2; R158). -/
def Ring.traceChoice (r : Ring) : Option Choice := if r.traceDue && !r.tracing then some .trace else none

/-- What the round robin sends at a position: an eligible entry, or a due join POLL (R148, step 3). -/
def Ring.serveAt (r : Ring) (position : Nat) : Option Choice :=
  match r.node position with
  | none => none
  | some n =>
    match firstEligible r.window n with
    | some e => some (.served position e)
    | none => if !n.state.joined && n.joinDue && n.flights.isEmpty then some (.join position) else none

/-- The positions in round-robin order: from the one after the last served, wrapping (R148). -/
def Ring.roundRobin (r : Ring) : List Nat :=
  (List.range r.nodes.length).map fun i => (r.lastServed + i) % r.nodes.length + 1

/-- The arbiter's choice (R148). -/
def Ring.choose (r : Ring) : Option Choice :=
  match r.state with
  | .untested => r.traceChoice
  | .down => r.traceChoice
  | .closed => (r.alertChoice.or r.traceChoice).or (r.roundRobin.findSome? r.serveAt)
  | .broken => (r.alertChoice.or r.traceChoice).or (r.roundRobin.findSome? r.serveAt)

/-! ### Sending (R149) -/

/-- Whether a frame for a node goes out on both ports: the ring is BROKEN (R149). -/
def RingState.dual : RingState → Bool
  | .broken => true
  | .untested => false
  | .closed => false
  | .down => false

/-- Whether a TRACE goes out on both ports: the ring is not CLOSED (R158). -/
def RingState.traceDual : RingState → Bool
  | .closed => false
  | .untested => true
  | .broken => true
  | .down => true

/-- The frame goes out: tag, send record, statistics, ports (R144, R149). -/
def Ring.launch (r : Ring) (p : Part) (ring tag position : Nat) (e : QueueEntry) (dual : Bool) : Ring :=
  let rec' : SendRecord :=
    { position := position, entry := e, onA := true, onB := dual, sent := p.now, sentTenth := p.tenth,
      timeout := p.params.returnTimeoutMs.getD ring 0, copies := [] }
  let bytes := frameBytes position tag e
  { (r.setTag tag (.outstanding rec')).onStats fun s => { s with sent := statUp s.sent } with
    lastTag := tag, driveA := bytes, driveB := if dual then bytes else r.driveB }

/-- An entry leaves its queue and becomes outstanding; the poll timer restarts (R149). -/
def LinkNode.sending (n : LinkNode) (e : QueueEntry) (now : Time) : LinkNode :=
  { n with
    queue := n.queue.filter (·.region ≠ e.region)
    flights := n.flights ++ [{ entry := e, held := none }]
    lastSent := now }

/-- Send a chosen frame under a tag (R149). -/
def Ring.send (r : Ring) (p : Part) (ring tag : Nat) : Choice → Ring
  | .trace =>
    { r.launch p ring tag 0 traceEntry r.state.traceDual with traceDue := false, traceSent := some p.now }
  | .alert position e =>
    match r.node position with
    | none => r
    | some n => (r.setNode position (n.sending e p.now)).launch p ring tag position e r.state.dual
  | .served position e =>
    match r.node position with
    | none => r
    | some n =>
      { (r.setNode position (n.sending e p.now)).launch p ring tag position e r.state.dual with
        lastServed := position }
  | .join position =>
    match r.node position with
    | none => r
    | some n =>
      { (r.setNode position { n.sending pollEntry p.now with joinDue := false, joinFrom := p.now }).launch
          p ring tag position pollEntry r.state.dual with
        lastServed := position }

/-- Whether the ring has something to send. -/
def Ring.canSend (r : Ring) : Bool := r.choose.isSome && r.nextTag.isSome

/-- The transmitter of ring `ring` is free: the arbiter's choice is sent (R148, R149). -/
def Part.sendFrame (p : Part) (ring : Nat) : Part :=
  let r := p.disp.ring ring
  match r.choose, r.nextTag with
  | some c, some tag => { p with disp := p.disp.setRing ring (r.send p ring tag c) }
  | _, _ => p

/-! ### Node losses and joins (R155, R156) -/

/-- The tags of the frames outstanding to a position become FREE (R155). -/
def Ring.abandonAt (r : Ring) (position : Nat) : Ring :=
  { r with tags := r.tags.filter fun x =>
      match x.2 with
      | .outstanding rec => rec.position ≠ position || rec.entry.kind = .trace
      | .trailing _ _ => true }

/-- A node becomes LOST (R155); `report` is false when the ring entered DOWN (R161). -/
def Part.loseNode (p : Part) (d : Disp) (ring position : Nat) (report : Bool) : Disp :=
  match (d.ring ring).node position with
  | none => d
  | some n =>
    let r := (d.ring ring).abandonAt position
    let n' : LinkNode :=
      { n with
        state := .lost, queue := [], flights := [], retry := 0, restartPending := false,
        joinFrom := p.now, joinDue := false }
    let d1 := nodeLost (d.setRing ring (r.setNode position n')) n.index
    let d2 := if report then d1.onRpt (·.hand p.now (repNodeLost n.index ring position)) else d1
    d2.nodeNotice ring position

/-- A join POLL decided ACCEPTED (R156). -/
def Part.joinNode (p : Part) (d : Disp) (ring position : Nat) (n : LinkNode) (a : Arrived) : Disp :=
  let n' : LinkNode :=
    { n with
      state := .active, retry := 0, restartPending := a.restarted, lowBrightness := a.lowBrightness, flights := [] }
  let d1 := nodeJoined p (d.setNode ring position n') n.index
  let d2 := if n.state = .lost then d1.onRpt (·.hand p.now (repNodeJoined n.index ring position)) else d1
  d2.nodeNotice ring position

/-! ### Decisions (R151 to R154) -/

/-- A frame leaves the outstanding count. -/
def LinkNode.retired (n : LinkNode) (e : QueueEntry) : LinkNode :=
  { n with flights := n.flights.filter fun f => f.entry.region ≠ e.region }

/-- The time since a sending in units of 0.1 ms (R151, R162). -/
def Part.roundTrip (p : Part) (rec : SendRecord) : Nat := (p.since rec.sent * 10 + p.tenth) - rec.sentTenth

/-- A round-trip time enters the statistics (R162). -/
def Statistics.roundTrip (s : Statistics) (t : Nat) : Statistics :=
  { s with minimum := min s.minimum t, maximum := max s.maximum t }

/-- ACCEPTED for an ACTIVE or SUSPECT node (R151). -/
def Part.decideAccepted (p : Part) (d : Disp) (ring : Nat) (rec : SendRecord) (n : LinkNode) (a : Arrived) : Disp :=
  let restarting : Bool := a.restarted && !n.restartPending
  let n' : LinkNode :=
    { n.retired rec.entry with
      retry := 0, state := .active, lowBrightness := a.lowBrightness, restartPending := a.restarted }
  let r := ((d.ring ring).setNode rec.position n').onStats (·.roundTrip (p.roundTrip rec))
  let d1 := (d.setRing ring r).nodeNoticeIf ring rec.position n
  if restarting then nodeRestarted p d1 n.index else d1

/-- BUSY for an ACTIVE or SUSPECT node: the frame is held and stays in the outstanding count (R152). -/
def Part.decideBusy (p : Part) (d : Disp) (ring : Nat) (rec : SendRecord) (n : LinkNode) : Disp :=
  let until' := p.after p.params.busyBackoffMs
  d.setNode ring rec.position
    { n with flights := n.flights.map fun f =>
        if f.entry.region = rec.entry.region then { f with held := some until' } else f }

/-- REJECTED for an ACTIVE or SUSPECT node (R153). -/
def Part.decideRejected (p : Part) (d : Disp) (ring : Nat) (rec : SendRecord) (n : LinkNode) : Disp :=
  let r := ((d.ring ring).setNode rec.position (n.retired rec.entry)).onStats fun s =>
    { s with rejected := statUp s.rejected }
  (d.setRing ring r).onRpt
    (·.hand p.now
      (repFrameRejected n.index ring rec.position rec.entry.kind rec.entry.region rec.entry.version))

/-- A failure for an ACTIVE or SUSPECT node (R154). -/
def Part.decideFailed (p : Part) (d : Disp) (ring : Nat) (rec : SendRecord) (n : LinkNode) : Disp :=
  let r := (d.ring ring).onStats fun s => { s with retries := statUp s.retries }
  if p.params.retries.getD ring 0 < n.retry + 1 then
    p.loseNode (d.setRing ring (r.setNode rec.position { n with retry := n.retry + 1 })) ring rec.position true
  else
    let n' : LinkNode :=
      { n.retired rec.entry with retry := n.retry + 1, state := .suspect, queue := requeue n.queue rec.entry }
    (d.setRing ring (r.setNode rec.position n')).nodeNoticeIf ring rec.position n

/-- A frame for a node is decided by an answer; none is a timeout (R150 to R154, R156). A join POLL decided REJECTED does not
raise the REJECTED answers statistic (DESIGN CHOICE, log entry 27). -/
def Part.decideFrame (p : Part) (d : Disp) (ring tag : Nat) (rec : SendRecord) (answer : Option Arrived) : Disp :=
  match (d.ring ring).node rec.position with
  | none => d
  | some n =>
    match n.state.joined, answer with
    | true, none => p.decideFailed d ring rec n
    | true, some a =>
      match a.answer with
      | .accepted => p.decideAccepted d ring rec n a
      | .busy => p.decideBusy (d.setRing ring ((d.ring ring).freeTag tag)) ring rec n
      | .rejected => p.decideRejected d ring rec n
      | .empty => p.decideFailed d ring rec n
    | false, none => d.setNode ring rec.position (n.retired rec.entry)
    | false, some a =>
      match a.answer with
      | .accepted => p.joinNode d ring rec.position n a
      | .busy => d.setNode ring rec.position (n.retired rec.entry)
      | .rejected => d.setNode ring rec.position (n.retired rec.entry)
      | .empty => d.setNode ring rec.position (n.retired rec.entry)

/-! ### Returns (R150, R157) -/

/-- The copies a frame was sent as. -/
def SendRecord.sentCopies (rec : SendRecord) : Nat := rec.onA.toNat + rec.onB.toNat

/-- A copy is recorded (R150, R158). -/
def SendRecord.withCopy (rec : SendRecord) (port : Port) (a : Arrived) : SendRecord :=
  { rec with copies := rec.copies ++ [{ port := port, wrapped := a.wrapped, hops := a.hops }] }

/-- A late return is counted (R150, R162). -/
def Ring.countLate (r : Ring) : Ring := r.onStats fun s => { s with late := statUp s.late }

/-- A return on the OUTSTANDING tag of a TRACE (R150): its copy is recorded. Once every copy sent has returned the TRACE has ended
(R158), and a further return is late though TRACE_END has yet to act on the tag (DESIGN CHOICE, log entry 35). -/
def Ring.returnTrace (r : Ring) (tag : Nat) (rec : SendRecord) (port : Port) (a : Arrived) : Ring :=
  if rec.copies.length < rec.sentCopies then r.setTag tag (.outstanding (rec.withCopy port a)) else r.countLate

/-- A frame for a node that a CLOSED ring gives back on port A makes a TRACE due when none is outstanding (R157). A frame sent on
both ports, when the ring was BROKEN, makes none due though it returns on port A after the ring has become CLOSED (DESIGN CHOICE,
log entry 31). -/
def Ring.noticeReturn (r : Ring) (rec : SendRecord) (port : Port) : Ring :=
  if r.state = .closed && rec.onA && !rec.onB && port = .a && !r.tracing then { r with traceDue := true } else r

/-- A good frame arrives whose tag is OUTSTANDING (R150). A copy sent on both ports with an unlisted status is not EMPTY, so it
decides (log entry 12). The tag becomes TRAILING, as R150 says, also when the copy that decides is the second to return, the first
having been EMPTY (DESIGN CHOICE, log entry 34). -/
def Part.returnOutstanding (p : Part) (ring tag : Nat) (rec : SendRecord) (port : Port) (a : Arrived) : Disp :=
  let d := p.disp
  let r := d.ring ring
  if rec.entry.kind = .trace then d.setRing ring (r.returnTrace tag rec port a)
  else
    let r1 := r.noticeReturn rec port
    if rec.onA && rec.onB then
      if a.status = 0 then
        if rec.copies.isEmpty then d.setRing ring (r1.setTag tag (.outstanding (rec.withCopy port a)))
        else p.decideFrame (d.setRing ring (r1.freeTag tag)) ring tag rec (some a)
      else p.decideFrame (d.setRing ring (r1.setTag tag (.trailing rec.sent rec.timeout))) ring tag rec (some a)
    else p.decideFrame (d.setRing ring (r1.freeTag tag)) ring tag rec (some a)

/-- A frame arrives on a port (R150). An unused ring discards it (R140). -/
def Part.frameReturn (p : Part) (ring : Nat) (port : Port) (bytes : List Byte) : Part :=
  let r := p.disp.ring ring
  match r.nodes, readFrame bytes with
  | [], _ => p
  | _, none => p
  | _ :: _, some a =>
    match r.tag a.tag with
    | none => { p with disp := p.disp.setRing ring r.countLate }
    | some (.trailing _ _) => { p with disp := p.disp.setRing ring (r.freeTag a.tag) }
    | some (.outstanding rec) => { p with disp := p.returnOutstanding ring a.tag rec port a }

/-! ### Timeouts and backoff (R150, R152, R154) -/

/-- Whether the OUTSTANDING frame of a tag has timed out; a TRACE ends by TRACE_END (R158). -/
def Part.returnDue (p : Part) (ring tag : Nat) : Bool :=
  match (p.disp.ring ring).tag tag with
  | some (.outstanding rec) => rec.entry.kind ≠ .trace && rec.timeout ≤ p.since rec.sent
  | some (.trailing _ _) => false
  | none => false

/-- An OUTSTANDING frame's timeout passes (R150, R154, R156). -/
def Part.returnTimeout (p : Part) (ring tag : Nat) : Part :=
  if p.returnDue ring tag then
    match (p.disp.ring ring).tag tag with
    | some (.outstanding rec) =>
      { p with disp := p.decideFrame (p.disp.setRing ring ((p.disp.ring ring).freeTag tag)) ring tag rec none }
    | some (.trailing _ _) => p
    | none => p
  else p

/-- Whether a TRAILING tag's time has passed (R150). -/
def Part.trailingDue (p : Part) (ring tag : Nat) : Bool :=
  match (p.disp.ring ring).tag tag with
  | some (.trailing sent timeout) => timeout ≤ p.since sent
  | some (.outstanding _) => false
  | none => false

/-- A TRAILING tag becomes FREE (R150). -/
def Part.trailingTimeout (p : Part) (ring tag : Nat) : Part :=
  if p.trailingDue ring tag then { p with disp := p.disp.setRing ring ((p.disp.ring ring).freeTag tag) } else p

/-- Whether the held frame of a region of a node may return to the queue (R152). -/
def Part.backoffDue (p : Part) (n : LinkNode) (region : Option Region) : Option Flight :=
  n.flights.find? fun f =>
    f.entry.region = region &&
      match f.held with
      | none => false
      | some t => p.reached t

/-- A held frame leaves the outstanding count and returns to the queue (R152, R145). -/
def Part.busyBackoff (p : Part) (ring position : Nat) (region : Option Region) : Part :=
  match (p.disp.ring ring).node position with
  | none => p
  | some n =>
    match p.backoffDue n region with
    | none => p
    | some f =>
      let n' : LinkNode := { n.retired f.entry with queue := requeue n.queue f.entry }
      { p with disp := p.disp.setNode ring position n' }

/-! ### Poll and join timers (R156) -/

/-- Whether the poll timer of a node is due: nothing sent for poll_ms, no POLL queued or outstanding (R156). -/
def Part.pollDue (p : Part) (n : LinkNode) : Bool :=
  n.state.joined && p.params.pollMs ≤ p.since n.lastSent && !n.queue.any (·.kind = .poll)
    && !n.flights.any (·.entry.kind = .poll)

/-- A POLL entry is placed at the tail of the queue (R145, R156). -/
def Part.pollTimer (p : Part) (ring position : Nat) : Part :=
  match (p.disp.ring ring).node position with
  | none => p
  | some n =>
    if p.pollDue n then
      { p with disp := p.disp.setNode ring position { n with queue := n.queue ++ [pollEntry] } }
    else p

/-- Whether the join timer of a node has run out (R156). -/
def Part.joinTimerDue (p : Part) (n : LinkNode) : Bool :=
  !n.state.joined && !n.joinDue && p.params.rejoinMs ≤ p.since n.joinFrom

/-- A join POLL becomes due (R156). -/
def Part.joinTimer (p : Part) (ring position : Nat) : Part :=
  match (p.disp.ring ring).node position with
  | none => p
  | some n =>
    if p.joinTimerDue n then { p with disp := p.disp.setNode ring position { n with joinDue := true } } else p

/-! ### Ring checks (R158 to R161) -/

/-- Whether ring_check_ms has passed since the last TRACE (R158). -/
def Part.ringCheckDue (p : Part) (r : Ring) : Bool :=
  !r.nodes.isEmpty && !r.traceDue &&
    match r.traceSent with
    | none => false
    | some t => p.params.ringCheckMs ≤ p.since t

/-- A TRACE becomes due (R158). -/
def Part.ringCheck (p : Part) (ring : Nat) : Part :=
  let r := p.disp.ring ring
  if p.ringCheckDue r then { p with disp := p.disp.setRing ring { r with traceDue := true } } else p

/-- The outstanding TRACE with its tag. -/
def Ring.outstandingTrace (r : Ring) : Option (Nat × SendRecord) :=
  r.tags.findSome? fun x =>
    match x.2 with
    | .outstanding rec => if rec.entry.kind = .trace then some (x.1, rec) else none
    | .trailing _ _ => none

/-- Whether a TRACE ends: every copy sent has returned, or its timeout has passed (R158). -/
def Part.traceOver (p : Part) (rec : SendRecord) : Bool :=
  rec.sentCopies ≤ rec.copies.length || rec.timeout ≤ p.since rec.sent

/-- Results of a TRACE (R158). -/
inductive TraceResult where
  | through
  | wrapped (a b : Nat)
  | none
  deriving DecidableEq, Repr

/-- Whether a returned copy went through: a copy sent on A alone by its port, a copy of a dual TRACE by its wrapped mark
(R142, R158; log entry 11). -/
def copyThrough (dual : Bool) (c : Copy) : Bool := if dual then !c.wrapped else c.port = .b

/-- The hop count of the copy returned on the port it was sent from, 0 when none did. -/
def wrappedHops (dual : Bool) (port : Port) (copies : List Copy) : Nat :=
  ((copies.find? fun c => !copyThrough dual c && c.port = port).map (·.hops)).getD 0

/-- The result of a TRACE from its recorded copies (R158). -/
def traceResult (rec : SendRecord) : TraceResult :=
  let dual := rec.onA && rec.onB
  if rec.copies.any (copyThrough dual) then .through
  else if rec.copies.isEmpty then .none
  else .wrapped (wrappedHops dual .a rec.copies) (wrappedHops dual .b rec.copies)

/-- The ring enters CLOSED or DOWN: location unknown, through count 0 (R159). -/
def Ring.enter (r : Ring) (st : RingState) : Ring := { r with state := st, location := none, through := 0 }

/-- The break location of a wrapped TRACE (R160). -/
def Ring.breakAt (r : Ring) (a b : Nat) : Nat × Nat := (a, r.nodes.length + 1 - b)

/-- The ring after a TRACE result, and the report it hands (Table 8-2). -/
def Ring.afterTrace (r : Ring) (ring : Nat) (result : TraceResult) : Ring × Option (Word × Word) :=
  match r.state, result with
  | .untested, .through => (r.enter .closed, some (repRingClosed ring))
  | .untested, .wrapped a b =>
    ({ r with state := .broken, location := some (r.breakAt a b), through := 0 },
      some (repRingBroken ring (r.breakAt a b).1 (r.breakAt a b).2))
  | .untested, .none => (r.enter .down, some (repLinkDown ring))
  | .closed, .through => (r, none)
  | .closed, .wrapped _ _ => ({ r.enter .broken with traceDue := true }, none)
  | .closed, .none => ({ r.enter .broken with traceDue := true }, none)
  | .broken, .through =>
    if 2 ≤ r.through + 1 then (r.enter .closed, some (repRingClosed ring))
    else ({ r with through := r.through + 1 }, none)
  | .broken, .wrapped a b =>
    ({ r with location := some (r.breakAt a b), through := 0 },
      if r.location = some (r.breakAt a b) then none
      else some (repRingBroken ring (r.breakAt a b).1 (r.breakAt a b).2))
  | .broken, .none => (r.enter .down, some (repLinkDown ring))
  | .down, .through => (r.enter .closed, some (repRingClosed ring))
  | .down, .wrapped a b =>
    ({ r with state := .broken, location := some (r.breakAt a b), through := 0 },
      some (repRingBroken ring (r.breakAt a b).1 (r.breakAt a b).2))
  | .down, .none => (r, none)

/-- Every ACTIVE or SUSPECT node of a ring that entered DOWN becomes LOST, in ascending position (R161). -/
def Part.loseRing (p : Part) (d : Disp) (ring : Nat) : Disp :=
  (List.range (d.ring ring).nodes.length).foldl
    (fun d i =>
      match (d.ring ring).node (i + 1) with
      | none => d
      | some n => if n.state.joined then p.loseNode d ring (i + 1) false else d) d

/-- The outstanding TRACE of a ring ends and its result acts (R158, R159, R161, R162). -/
def Part.traceEnd (p : Part) (ring : Nat) : Part :=
  let r := p.disp.ring ring
  match r.outstandingTrace with
  | none => p
  | some (tag, rec) =>
    if p.traceOver rec then
      let made := (r.freeTag tag).afterTrace ring (traceResult rec)
      let d := p.disp.setRing ring made.1
      let d1 := if made.1.state = .down && r.state ≠ .down then p.loseRing d ring else d
      let d2 :=
        match made.2 with
        | none => d1
        | some words => d1.onRpt (·.hand p.now words)
      { p with disp := d2.linkNotice ring }
    else p

/-! ### Statistics clear and formation (R163, R187) -/

/-- Every link engine clears its statistics and hands a link status change (R187). -/
def clearStatistics (d : Disp) : Disp :=
  (List.range d.lnk.length).foldl
    (fun d n => (d.setRing n ((d.ring n).onStats fun _ => Statistics.cleared)).linkNotice n) d

/-- A node as formed at an acceptance (R155, R156). -/
def LinkNode.fresh (index : Nat) (now : Time) : LinkNode where
  index := index
  state := .absent
  queue := []
  flights := []
  retry := 0
  restartPending := false
  lowBrightness := false
  lastSent := now
  joinFrom := now
  joinDue := true

/-- The node table index of the node at a ring and position. -/
def nodeAt (nodes : List (Option NodeConfig)) (ring position : Nat) : Option Nat :=
  (List.range nodes.length).find? fun j =>
    match (nodes[j]?).join with
    | none => false
    | some n => n.ring = ring && n.position = position

/-- A link engine as formed at an acceptance from the new node table and ring window (R163, Table 8-3). -/
def freshRing (nodes : List (Option NodeConfig)) (ring window : Nat) (now : Time) : Ring :=
  let own := (List.range Config.maxPosition).filterMap fun i => nodeAt nodes ring (i + 1)
  { Ring.reset with
    nodes := own.map fun j => LinkNode.fresh j now
    window := window
    traceDue := !own.isEmpty
    lastServed := own.length }

end Sys2Proof.Machine
end

