-- ==== Sys2Proof/Machine/Messages.lean ====
section
/-! DEFINITION. The Message Table, the Text Fetch Engine and the Trigger Unit (chapter 5). Their operations change the
message entries, the fetch jobs and watched ranges, the triggers, the override texts and, through CMP and RPT,
the display side; nothing else (`Part.onlyMsg`). -/

namespace Sys2Proof.Machine

/-- `p` with what MSG, TXF and TRG may change taken from `q`. -/
def Part.onlyMsg (p q : Part) : Part :=
  { p with msg := q.msg, txf := q.txf, trg := q.trg, ovr := q.ovr, disp := q.disp }

/-- Replace message entry `m`. -/
def Part.setMessage (p : Part) (m : Nat) (e : Message) : Part := { p with msg := p.msg.set m e }

/-- Replace channel `k`. -/
def Part.setChannel (p : Part) (k : Nat) (c : Channel) : Part := { p with ovr := p.ovr.set k c }

/-! ### Text owners (R96) -/

/-- The 136 text owners in ascending owner order (R103). -/
def textOwners : List TextOwner :=
  (List.range Config.maxMessages).map TextOwner.message
    ++ (List.range Config.channels).flatMap fun k => [TextOwner.line k, TextOwner.banner k]

/-- The text of an owner. -/
def Part.ownerText (p : Part) : TextOwner → Text
  | .message m => (p.message m).text
  | .line k => (p.channel k).lineText
  | .banner k => (p.channel k).bannerText

/-- Replace the text of an owner. -/
def Part.setOwnerText (p : Part) (o : TextOwner) (t : Text) : Part :=
  match o with
  | .message m => p.setMessage m { p.message m with text := t }
  | .line k => p.setChannel k { p.channel k with lineText := t }
  | .banner k => p.setChannel k { p.channel k with bannerText := t }

/-- The stored reference of an owner. -/
def Part.ownerRef (p : Part) : TextOwner → Option TextRef
  | .message m => (p.message m).fields.map (·.ref)
  | .line k => (p.channel k).lineRef
  | .banner k => (p.channel k).bannerRef

/-- The notice of a completion or fault: a message notice or an override text notice (R100, R135). -/
def Part.ownerNotice (p : Part) : TextOwner → Part
  | .message _ => p.cmpMessageNotice
  | .line k => p.cmpTextNotice k false
  | .banner k => p.cmpTextNotice k true

/-! ### The job list (R97) -/

/-- The data of the outstanding read is to be discarded. -/
def Txf.discardRead (t : Txf) : Txf := { t with read := t.read.map fun r => { r with discard := true } }

/-- Whether the head job is the owner's. -/
def Txf.headIs (t : Txf) (o : TextOwner) : Bool := (t.jobs.head?).map (·.owner) = some o

/-- An owner's job leaves the list; a read outstanding for it is left to complete (R97). -/
def Txf.abandon (t : Txf) (o : TextOwner) : Txf :=
  let t1 := if t.headIs o then t.discardRead else t
  { t1 with jobs := t1.jobs.filter (·.owner ≠ o) }

/-- A job as requested. -/
def Job.fresh (o : TextOwner) (ref : TextRef) : Job where
  owner := o
  ref := ref
  phase := .waiting
  start := 0
  words := 0
  address := 0
  left := 0
  fill := []

/-- An owner's range leaves the coherence watch. -/
def Txf.unwatch (t : Txf) (o : TextOwner) : Txf := { t with ready := t.ready.filter (·.owner ≠ o) }

/-- A job is requested: an earlier job of the owner is abandoned first (R91, R97). -/
def Txf.requestJob (t : Txf) (o : TextOwner) (ref : TextRef) : Txf :=
  let t1 := t.abandon o
  { t1 with jobs := t1.jobs ++ [Job.fresh o ref] }

/-- The TEXT_AREA window an area select names, when configured (R98). -/
def Part.textWindow (p : Part) (area : Nat) : Option Window :=
  if area = 3 then none
  else
    match p.path.watch[5 + area]? with
    | none => none
    | some w => if w.present then some w else none

/-- The start address of a reference in a window, none when it lies outside (R98). -/
def startAddress (w : Window) (ref : TextRef) : Option Nat :=
  let a : Int := (w.base : Int) + ref.offset.toInt
  if (w.base : Int) ≤ a && a < (w.base + w.length : Nat) then some a.toNat else none

/-- The checks of a job that becomes head: a fault cause, or the job in LENGTH or TEXT (R98). -/
def Part.checkJob (p : Part) (j : Job) : Except TextCause Job :=
  match p.textWindow j.ref.area with
  | none => .error .area
  | some w =>
    match startAddress w j.ref with
    | none => .error .bounds
    | some a =>
      if j.ref.length = 0 then
        .ok { j with phase := .length, start := a, words := 1, address := a, left := 0, fill := [] }
      else
        let n := min j.ref.length Config.textBytes
        let words := (n + 3) / 4
        if w.base + w.length < a + words then .error .bounds
        else .ok { j with phase := .text, start := a, words := words, address := a, left := n, fill := [] }

/-- A job faults (R101, R135). -/
def Part.faultJob (p : Part) (o : TextOwner) (cause : TextCause) : Part :=
  let t := (p.txf.unwatch o)
  let p1 : Part := { p with txf := { t with jobs := t.jobs.filter (·.owner ≠ o) } }
  let p2 := p1.setOwnerText o { p1.ownerText o with status := some .fault }
  (p2.report (repTextFault o cause)).ownerNotice o

/-- A job completes (R100). -/
def Part.completeJob (p : Part) (j : Job) : Part :=
  let t := p.txf.unwatch j.owner
  let p1 : Part :=
    { p with txf :=
      { t with
        jobs := t.jobs.filter (·.owner ≠ j.owner)
        ready := t.ready ++ [{ owner := j.owner, start := j.start, words := j.words }] } }
  let p2 := p1.setOwnerText j.owner
    { status := some .ready, buffer := j.fill, version := (p1.ownerText j.owner).version + 1 }
  p2.ownerNotice j.owner

/-- Replace the head job. -/
def Part.setHead (p : Part) (j : Job) : Part := { p with txf := { p.txf with jobs := j :: p.txf.jobs.tail } }

/-- The head job is checked when it has just become head; faulting jobs leave and the next is checked. The fuel is the
number of jobs: each round checks one and stops or removes it (R97, R98). Each check of a length field above 96 counts one
truncation, so a job that R102 starts again counts again (DESIGN CHOICE, log entry 23). -/
def Part.checkHeads : Nat → Part → Part
  | 0, p => p
  | fuel + 1, p =>
    match p.txf.jobs with
    | [] => p
    | j :: _ =>
      if j.phase = .waiting then
        let startable : Bool :=
          ((p.textWindow j.ref.area).bind fun w => startAddress w j.ref).isSome
        let p1 := if startable && Config.textBytes < j.ref.length then p.count .textTruncation 1 else p
        match p1.checkJob j with
        | .error cause => Part.checkHeads fuel (p1.faultJob j.owner cause)
        | .ok j' => p1.setHead j'
      else p

/-- TXF issues the head job's next read when none is outstanding (R97). -/
def Part.issueRead (p : Part) : Part :=
  match p.txf.read, p.txf.jobs with
  | none, j :: _ =>
    if j.phase = .waiting then p
    else { p with txf := { p.txf with read := some { address := j.address, discard := false } } }
  | _, _ => p

/-- TXF after any change: the head is checked, then reads (R97, R98). -/
def Part.txfPump (p : Part) : Part :=
  p.onlyMsg (Part.checkHeads (p.txf.jobs.length + 1) p).issueRead

/-! ### Text reads (R99, R100) -/

/-- The end of the window a job reads in. -/
def Part.jobEnd (p : Part) (j : Job) : Nat :=
  match p.textWindow j.ref.area with
  | none => 0
  | some w => w.base + w.length

/-- Give a job in TEXT the bytes of a word; it completes when none remain (R100). -/
def Part.takeBytes (p : Part) (j : Job) (bytes : List Byte) : Part :=
  let got := bytes.take j.left
  let j' := { j with fill := j.fill ++ got, left := j.left - got.length, address := j.address + 1, phase := .text }
  if j'.left = 0 then p.completeJob j' else p.setHead j'

/-- The data of a text read that was not discarded (R99, R100). -/
def Part.feedHead (p : Part) (w : Word) : Part :=
  match p.txf.jobs with
  | [] => p
  | j :: _ =>
    match j.phase with
    | .waiting => p
    | .text => p.takeBytes j (wordBytes w)
    | .length =>
      let n := (byteAt w 0).toNat
      let words := (n + 4) / 4
      if n = 0 || Config.textBytes < n then p.faultJob j.owner .length
      else if p.jobEnd j < j.start + words then p.faultJob j.owner .bounds
      else p.takeBytes { j with words := words, left := n } [byteAt w 1, byteAt w 2, byteAt w 3]

/-- The outstanding text read returns `w` (R97). -/
def Part.textData (p : Part) (w : Word) : Part :=
  match p.txf.read with
  | none => p
  | some r =>
    let p1 : Part := { p with txf := { p.txf with read := none } }
    p.onlyMsg (if r.discard then p1 else p1.feedHead w)

/-! ### Coherence watch (R102, R103) -/

/-- Whether a host write at `a` lies in the range of a job in LENGTH or TEXT. -/
def Job.covers (j : Job) (a : Nat) : Bool := j.phase ≠ .waiting && j.start ≤ a && a < j.start + j.words

/-- Whether the head job is the owner's and covers `a`. -/
def Txf.headCovers (t : Txf) (o : TextOwner) (a : Nat) : Bool :=
  match t.jobs with
  | [] => false
  | j :: _ => j.owner = o && j.covers a

/-- Whether the owner's READY range covers `a`. -/
def Txf.readyCovers (t : Txf) (o : TextOwner) (a : Nat) : Bool :=
  t.ready.any fun r => r.owner = o && r.start ≤ a && a < r.start + r.words

/-- The head job restarts: it returns to WAITING, at the tail when other jobs wait (R102). -/
def Txf.restartHead (t : Txf) : Txf :=
  match t.jobs with
  | [] => t
  | j :: rest => { t.discardRead with jobs := rest ++ [Job.fresh j.owner j.ref] }

/-- A refetch: the READY range leaves the watch and a job with the stored reference is appended (R103). -/
def Part.refetch (p : Part) (o : TextOwner) : Part :=
  match p.ownerRef o with
  | none => p
  | some ref => { p with txf := { (p.txf.unwatch o) with jobs := p.txf.jobs ++ [Job.fresh o ref] } }

/-- A host write into a TEXT_AREA window at address `a`: every owner it touches, in ascending owner order. -/
def Part.textWrite (p : Part) (a : Nat) : Part :=
  p.onlyMsg <|
    (textOwners.filter fun o => p.txf.headCovers o a || p.txf.readyCovers o a).foldl
      (fun q o =>
        if p.txf.headCovers o a then { q with txf := q.txf.restartHead } else q.refetch o) p

/-! ### Message entries (R86 to R95) -/

/-- Hand CMP a message notice when the entry differs in an item of R94 from what it was in `before`. -/
def Part.messageNotice (p before : Part) (m : Nat) : Part :=
  let x := p.message m
  let y := before.message m
  if x.state = y.state && x.fields = y.fields && x.text.status = y.text.status && x.text.version = y.text.version
    && x.cars = y.cars then p
  else p.cmpMessageNotice

/-- TRG's triggers HELD on message `m` return to IDLE (R93, R108). -/
def releaseTriggers (m : Nat) (t : Option Trigger) : Option Trigger :=
  match t with
  | none => none
  | some t => some (if t.action = .activate m then { t with held := false } else t)

/-- An ACTIVE entry becomes DEFINED: expiry, active-car set, release notice, message notice (R93). -/
def Part.leaveActive (p : Part) (m : Nat) : Part :=
  let p1 := p.setMessage m { p.message m with state := .defined, expiry := none, cars := [] }
  ({ p1 with trg := p1.trg.map (releaseTriggers m) }).cmpMessageNotice

/-- The expiry an activation with a lifetime sets (R89). -/
def Part.expiryFor (p : Part) (lifetime : Nat) : Option Time :=
  if lifetime = 0 then none else some (p.after (lifetime * 1000))

/-- The text reference after DEFINE or ACTIVATE (R91): `old` is the reference held before. -/
def Part.dealReference (p : Part) (m : Nat) (old : Option TextRef) (new : TextRef) : Part :=
  let e := p.message m
  if old = some new && (e.text.status = some .ready || e.text.status = some .pending) then p
  else
    let p1 := p.setMessage m { e with text := { e.text with status := some .pending } }
    { p1 with txf := (p1.txf.unwatch (.message m)).requestJob (.message m) new }

/-- A DEFINE that passed R86 (R88). -/
def Part.msgDefine (p : Part) (m : Nat) (f : MessageFields) : Part :=
  p.onlyMsg <|
    let e := p.message m
    let st := if e.state = .empty then .defined else e.state
    let p1 := p.setMessage m { e with state := st, fields := some f }
    (p1.dealReference m (e.fields.map (·.ref)) f.ref).messageNotice p m

/-- An ACTIVATE that passed R86 (R89). -/
def Part.msgActivate (p : Part) (m : Nat) (f : MessageFields) : Part :=
  p.onlyMsg <|
    let e := p.message m
    let p1 := p.setMessage m { e with state := .active, fields := some f, expiry := p.expiryFor f.lifetime }
    (p1.dealReference m (e.fields.map (·.ref)) f.ref).messageNotice p m

/-- A CANCEL (R90). -/
def Part.msgCancel (p : Part) (m : Nat) : Part :=
  if (p.message m).state = .active then p.onlyMsg (p.leaveActive m) else p

/-- A CLEAR (R90). -/
def Part.msgClear (p : Part) (m : Nat) : Part :=
  if (p.message m).state = .empty then p
  else
    p.onlyMsg <|
      let p1 := if (p.message m).state = .active then p.leaveActive m else p
      let e := p1.message m
      let p2 := p1.setMessage m
        { state := .empty, fields := none, expiry := none, cars := [], text := { e.text with status := none, buffer := [] } }
      ({ p2 with txf := (p2.txf.abandon (.message m)).unwatch (.message m) }).cmpMessageNotice

/-- Whether the fields of a DEFINE or ACTIVATE are refused (R86). -/
def Part.badMessage (p : Part) (words : List Word) : Bool :=
  let badKind := decide (1 < messageKindCode words)
  let badFilter :=
    match messageFilter words with
    | none => true
    | some .any => false
    | some .source => false
    | some (.car c) => (p.carConfig c).isNone
  let badRange :=
    match readRange (recordWord words 2) with
    | none => false
    | some (lo, hi) => decide (hi < lo) || decide (p.floorCount ≤ hi)
  badKind || badFilter || badRange

/-- A refused message record (R86). -/
def Part.refuseMessage (p : Part) (m : Nat) : Part := (p.count .refusedRecord 1).report (repRecordRefused 1 m)

/-- A message record is handled by its request (R86). -/
def Part.msgRecord (p : Part) (m : Nat) (words : List Word) : Part :=
  match messageRequest words with
  | 1 => if p.badMessage words then p.refuseMessage m else p.msgDefine m (messageFields words)
  | 2 => if p.badMessage words then p.refuseMessage m else p.msgActivate m (messageFields words)
  | 3 => p.msgCancel m
  | 4 => p.msgClear m
  | _ => p.refuseMessage m

/-- Whether message `m` has reached its expiry (R92). -/
def Part.expiryDue (p : Part) (m : Nat) : Bool :=
  (p.message m).state = .active &&
    match (p.message m).expiry with
    | none => false
    | some t => p.reached t

/-- An ACTIVE entry reaches its expiry (R92). -/
def Part.msgExpire (p : Part) (m : Nat) : Part :=
  if p.expiryDue m then (p.onlyMsg (p.leaveActive m)).report (repMessageExpired m) else p

/-! ### Triggers (R105 to R108) -/

/-- Insert a car into an ascending set, once. -/
def insertCar (c : Nat) : List Nat → List Nat
  | [] => [c]
  | x :: xs => if c = x then x :: xs else if c < x then c :: x :: xs else x :: insertCar c xs

/-- Replace trigger `t`. -/
def Part.setTrigger (p : Part) (t : Nat) (x : Trigger) : Part := { p with trg := p.trg.set t (some x) }

/-- The stored lifetime of message `m`. -/
def Part.lifetimeOf (p : Part) (m : Nat) : Nat := ((p.message m).fields.map (·.lifetime)).getD 0

/-- The watched condition (R105). -/
def Trigger.condition (x : Trigger) (words : List Word) : Bool :=
  let hit := recordWord words x.word &&& x.mask
  if x.all then hit = x.mask else hit ≠ 0

/-- A LEVEL trigger with action ACTIVATE (R106). TRUE to FALSE on an ACTIVE entry with car filter SOURCE whose set does not
hold the car and is empty makes it DEFINED, as R106's row reads (DESIGN CHOICE, log entry 24). -/
def Part.levelActivate (p : Part) (x : Trigger) (m : Nat) (last new : Bool) : Part :=
  let e := p.message m
  match new, last, e.state with
  | true, _, .empty => p.count .triggerTarget 1
  | true, _, .defined =>
    (p.setMessage m
      { e with state := .active, cars := insertCar x.source e.cars, expiry := p.expiryFor (p.lifetimeOf m) }).cmpMessageNotice
  | true, _, .active =>
    (p.setMessage m { e with cars := insertCar x.source e.cars }).messageNotice p m
  | false, true, .active =>
    let p1 := p.setMessage m { e with cars := e.cars.filter (· ≠ x.source) }
    if e.cars.filter (· ≠ x.source) = [] && e.fields.map (·.filter) = some .source then p1.leaveActive m
    else p1.messageNotice p m
  | false, true, .empty => p
  | false, true, .defined => p
  | false, false, _ => p

/-- A trigger's CANCEL of message `m` (R106, R107). -/
def Part.triggerCancel (p : Part) (m : Nat) : Part :=
  if (p.message m).state = .active then p.leaveActive m else p

/-- An edge trigger's ACTIVATE (R107); `t` is the trigger index. -/
def Part.edgeActivate (p : Part) (t : Nat) (x : Trigger) (m : Nat) : Part :=
  let e := p.message m
  if x.held then (p.count .missedTrigger 1).report (repTriggerMissed t x.source m)
  else if e.state = .empty then p.count .triggerTarget 1
  else
    let p1 := p.setMessage m
      { e with state := .active, cars := insertCar x.source e.cars, expiry := p.expiryFor (p.lifetimeOf m) }
    (p1.setTrigger t { x with held := true }).messageNotice p m

/-- Whether an edge mode acts on a pair of conditions (R107). -/
def EdgeMode.acts (e : EdgeMode) (last new : Bool) : Bool :=
  match e with
  | .level => false
  | .rise => !last && new
  | .fall => last && !new
  | .both => last != new

/-- The action of a trigger whose last condition is known (R106, R107). -/
def Part.triggerAct (p : Part) (t : Nat) (x : Trigger) (last new : Bool) : Part :=
  match x.edge with
  | .level =>
    match x.action with
    | .activate m => p.levelActivate x m last new
    | .cancel m => if new then p.triggerCancel m else p
    | .report => p
  | .rise => if EdgeMode.rise.acts last new then edge else p
  | .fall => if EdgeMode.fall.acts last new then edge else p
  | .both => if EdgeMode.both.acts last new then edge else p
where
  /-- The action of an edge trigger on its edge (R107). -/
  edge : Part :=
    match x.action with
    | .activate m => p.edgeActivate t x m
    | .cancel m => p.triggerCancel m
    | .report => p.report (repTriggerFired t x.source new)

/-- The new condition becomes the last condition (R105, steps 2 and 4). -/
def Part.recordCondition (p : Part) (t : Nat) (new : Bool) : Part :=
  match (p.trg[t]?).join with
  | none => p
  | some x => p.setTrigger t { x with last := some new }

/-- One trigger at a hand-on of car `c`'s words (R105). -/
def Part.evaluateTrigger (p : Part) (c : Nat) (words : List Word) (t : Nat) : Part :=
  match (p.trg[t]?).join with
  | none => p
  | some x =>
    if x.source ≠ c then p
    else
      let new := x.condition words
      match x.last with
      | none => p.recordCondition t new
      | some last => (p.triggerAct t x last new).recordCondition t new

/-- TRK's hand-on of a car's record words (R105). -/
def Part.trgHandOn (p : Part) (c : Nat) (words : List Word) : Part :=
  p.onlyMsg ((List.range p.trg.length).foldl (fun q t => q.evaluateTrigger c words t) p)

end Sys2Proof.Machine
end

