-- ==== Sys2Proof/Machine/Arrival.lean ====
section
/-! DEFINITION. The Arrival Unit (chapter 3): estimates, held values, hall lanterns. Its operations change the lantern
states, the withdrawn marks, the held values inside assignments, and (through CMP) the display side; nothing
else (`Part.onlyArr`). -/

namespace Sys2Proof.Machine

/-- `p` with what ARR may change taken from `q`. -/
def Part.onlyArr (p q : Part) : Part := { p with arr := q.arr, prm := q.prm, disp := q.disp }

/-! ### Stops (R42) -/

/-- The deck stop floor of a stop list entry (R42). -/
def Part.deckStopFloor (p : Part) (cfg : CarConfig) (d s : Nat) : Option Nat :=
  if d = 0 then some s else p.floorNear cfg.zone (p.level s + cfg.spacing)

/-- The deck stop level of a stop list entry (R42). -/
def Part.deckStopLevel (p : Part) (cfg : CarConfig) (d s : Nat) : Nat := p.level s + cfg.offset d

/-- The next stop floor of deck `d` of car `c` (R42). -/
def Part.nextStop (p : Part) (c d : Nat) : Option Nat :=
  match p.carConfig c, (p.car c).stops with
  | some cfg, s :: _ => p.deckStopFloor cfg d s
  | _, _ => none

/-! ### Computing an estimate (R44 to R47) -/

/-- The path from `pos` to floor `t` along the stop list: distance and stops visited before `t` (R45). -/
def pathTo (p : Part) (cfg : CarConfig) (d t : Nat) (pos dist stops : Nat) : List Nat → Nat × Nat
  | [] => (dist + distance pos (p.level t), stops)
  | s :: rest =>
    let level := p.deckStopLevel cfg d s
    if p.deckStopFloor cfg d s = some t then (dist + distance pos level, stops)
    else pathTo p cfg d t level (dist + distance pos level) (stops + 1) rest

/-- The door allowance (R46). -/
def doorAllowance (params : Params) : Door → Nat
  | .opened => params.doorCloseMs
  | .opening => params.doorCloseMs
  | .closing => params.doorCloseMs / 2
  | .closed => 0

/-- total_ms of deck `d` of car `c` to floor `t` (R45, R46). -/
def Part.totalMs (p : Part) (cfg : CarConfig) (c d t : Nat) : Nat :=
  let path := pathTo p cfg d t (p.deck c d).position 0 0 (p.car c).stops
  let travel := path.1 * 1000 / cfg.vRated
  let first := if (p.car c).motion = .still then p.params.startStopMs else p.params.startStopMs / 2
  travel + (first + path.2 * p.params.startStopMs) + path.2 * p.params.dwellMs
    + doorAllowance p.params (p.car c).door

/-- Seconds, rounded up, clamped to 99 with OVER; the flag says that the clamp counter rises (R47). -/
def clampSeconds (totalMs : Nat) : Estimate × Bool :=
  let s := (totalMs + 999) / 1000
  if 99 < s then (.secs 99 true, true) else (.secs s false, false)

/-- ARR's withdrawn mark of car `c` (R50). -/
def Part.arrWithdrawn (p : Part) (c : Nat) : Bool := p.arr.withdrawn.getD c false

/-- The estimate of deck `d` of car `c` to floor `t`, and whether it was clamped (R44 to R47). -/
def Part.estimate (p : Part) (c d t : Nat) : Estimate × Bool :=
  match p.carConfig c with
  | none => (.none, false)
  | some cfg =>
    if p.arrWithdrawn c || (p.deck c d).state = .stale || (p.deck c d).state = .unknown then (.none, false)
    else if (p.deck c d).state = .atFloor && (p.deck c d).accepted = some t then (.secs 0 false, false)
    else clampSeconds (p.totalMs cfg c d t)

/-! ### Held values (R48) -/

/-- The value an estimate counts as in a comparison: 100 with OVER (R48). -/
def comparison (n : Nat) (overMark : Bool) : Nat := if overMark then 100 else n

/-- The held value after a new result (R48); `held` none is absent. -/
def holdValue (hysteresis : Nat) (held : Option Estimate) (new : Estimate) : Estimate :=
  match held with
  | none => new
  | some .none => new
  | some (.secs h ho) =>
    match new with
    | .none => .none
    | .secs n o =>
      if n = 0 && !o then new
      else if o then new
      else if comparison n o < comparison h ho then new
      else if comparison n o = comparison h ho then .secs h ho
      else if comparison h ho + hysteresis ≤ comparison n o then new
      else .secs h ho

/-! ### Prompt consumers (R41, R43, R49) -/

/-- Change the live assignment with a number. -/
def Part.setAssignment (p : Part) (number : Nat) (f : Assignment → Assignment) : Part :=
  { p with prm := { p.prm with table := p.prm.table.map fun a => if a.number = number then f a else a } }

/-- Give a prompt consumer its held value; a change is handed to CMP (R49). -/
def Part.setHeld (p : Part) (number : Nat) (old : Option Estimate) (new : Estimate) : Part :=
  let p1 := p.setAssignment number fun a => { a with estimate := some new }
  if old = some new then p1 else p1.cmpEstimateChange number

/-- Recompute the estimate of the assignment with a number; `fresh` makes its held value absent first (R43). -/
def Part.promptEstimate (p : Part) (number : Nat) (fresh : Bool) : Part :=
  p.onlyArr <|
    match p.assignment number with
    | none => p
    | some a =>
      if a.prompt = .none then p
      else
        let made := p.estimate a.car a.deck a.boarding
        let p1 := if made.2 then p.count .estimateClamp 1 else p
        let old := if fresh then none else a.estimate
        p1.setHeld number old (holdValue p.params.etaUpHystS old made.1)

/-- PRM's notice that a prompt state has become NONE: the held value is discarded, no change is handed (R43). -/
def Part.promptEnded (p : Part) (number : Nat) : Part :=
  p.onlyArr (p.setAssignment number fun a => { a with estimate := none })

/-! ### Lanterns (R51 to R57) -/

/-- Replace lantern `i`. -/
def Part.setLantern (p : Part) (i : Nat) (l : Lantern) : Part :=
  { p with arr := { p.arr with lanterns := p.arr.lanterns.set i l } }

/-- The chime of an entry into ANNOUNCE (R53). -/
def chimeOf : Direction → Nat
  | .up => 1
  | .down => 2
  | .none => 0

/-- A lantern state changes and the change is handed to CMP (R53, R57). -/
def Part.changeLantern (p : Part) (i : Nat) (l : Lantern) (chime : Nat) : Part :=
  (p.setLantern i l).cmpLanternChange l.car l.deck l.floor chime

/-- The lantern goes DARK: its shown direction becomes NONE (R57). -/
def Lantern.darkened (l : Lantern) : Lantern := { l with state := .dark, shown := .none }

/-- Whether lantern `l` stands at its deck's next stop floor. -/
def Part.isNext (p : Part) (l : Lantern) : Bool := p.nextStop l.car l.deck = some l.floor

/-- Enter ANNOUNCE, or pass through it to OPEN, with the entry values of R53. -/
def Part.lightLantern (p : Part) (i : Nat) (l : Lantern) (st : LanternState) : Part :=
  let dir := (p.car l.car).departure
  p.changeLantern i { l with state := st, shown := dir } (chimeOf dir)

/-- Whether the doors of car `c` are OPENING or OPEN. -/
def Part.doorsOpen (p : Part) (c : Nat) : Bool := (p.car c).door = .opening || (p.car c).door = .opened

/-- Whether deck `d` of car `c` stands open at floor `f` on an opened visit (R52 (b), R65). -/
def Part.standsOpenAt (p : Part) (c d f : Nat) : Bool :=
  (p.deck c d).state = .atFloor && (p.deck c d).accepted = some f && (p.deck c d).visit = some f
    && (p.deck c d).opened && p.doorsOpen c

/-- R56: an ANNOUNCE or OPEN lantern goes dark. -/
def Part.lanternDarken (p : Part) (i : Nat) : Part :=
  match p.arr.lanterns[i]? with
  | none => p
  | some l =>
    let isStale : Bool := (p.deck l.car l.deck).state = .stale
    if (l.state = .announce && (!p.isNext l || isStale || p.arrWithdrawn l.car)) || (l.state = .lit && isStale)
    then p.changeLantern i l.darkened 0 else p

/-- R57: a lit lantern follows the departure direction. -/
def Part.lanternTurn (p : Part) (i : Nat) : Part :=
  match p.arr.lanterns[i]? with
  | none => p
  | some l =>
    if l.state ≠ .dark && l.shown ≠ (p.car l.car).departure then
      p.changeLantern i { l with shown := (p.car l.car).departure } 0
    else p

/-- Whether a held estimate lights a lantern: a number no greater than lantern_lead_s, without OVER (R52 (a)). -/
def withinLead (lead : Nat) : Estimate → Bool
  | .none => false
  | .secs n overMark => !overMark && n ≤ lead

/-- R52: a DARK lantern at the next stop leaves DARK; a lantern elsewhere loses its re-announce hold. -/
def Part.lanternLight (p : Part) (i : Nat) : Part :=
  match p.arr.lanterns[i]? with
  | none => p
  | some l =>
    if !p.isNext l then p.setLantern i { l with hold := false }
    else if l.state = .dark && !p.arrWithdrawn l.car then
      if p.standsOpenAt l.car l.deck l.floor then p.lightLantern i l .lit
      else if withinLead p.params.lanternLeadS l.estimate && !l.hold then p.lightLantern i l .announce
      else p
    else p

/-- The indices of the lantern states of a car and deck, in ascending floor order (R57). -/
def Part.lanternsOf (p : Part) (c d : Nat) : List Nat :=
  (List.range p.arr.lanterns.length).filter fun i =>
    match p.arr.lanterns[i]? with
    | none => false
    | some l => l.car = c && l.deck = d

/-- Redetermine the deck's lantern consumer and compute its estimate; every other lantern of the deck holds NONE
(R41, R43, R49). -/
def Part.lanternConsumer (p : Part) (c d : Nat) : Part :=
  match p.nextStop c d with
  | none =>
    { p with arr := { p.arr with lanterns := p.arr.lanterns.map fun l =>
        if l.car = c && l.deck = d then { l with estimate := .none } else l } }
  | some f =>
    let made := p.estimate c d f
    let p1 := if made.2 && (p.lantern c d f).isSome then p.count .estimateClamp 1 else p
    { p1 with arr := { p1.arr with lanterns := p1.arr.lanterns.map fun l =>
        if l.car = c && l.deck = d then
          if l.floor = f then { l with estimate := holdValue p.params.etaUpHystS (some l.estimate) made.1 }
          else { l with estimate := .none }
        else l } }

/-- The lantern rules of one deck: the consumer, then R56, R57 and R52 for each lantern in ascending floor order. -/
def Part.evaluateDeckLanterns (p : Part) (c d : Nat) : Part :=
  let p1 := p.lanternConsumer c d
  (p1.lanternsOf c d).foldl (fun q i => ((q.lanternDarken i).lanternTurn i).lanternLight i) p1

/-- TRK's evaluation notice for car `c` (R43). -/
def Part.arrEvaluation (p : Part) (c : Nat) : Part :=
  p.onlyArr <|
    let p1 := (p.decksOf c).foldl (fun q d => q.evaluateDeckLanterns c d) p
    ((p1.prm.table.filter (·.car = c)).map (·.number)).foldl (fun q n => q.promptEstimate n false) p1

/-- An arrival with open doors reaches ARR (R54). -/
def Part.arrArrival (p : Part) (c d f : Nat) : Part :=
  p.onlyArr <|
    ((p.lanternsOf c d).filter fun i => ((p.arr.lanterns[i]?).map (·.floor)) = some f).foldl
      (fun q i =>
        match q.arr.lanterns[i]? with
        | none => q
        | some l =>
          let l := { l with hold := false }
          match l.state with
          | .dark =>
            if q.isNext l && !q.arrWithdrawn c then q.lightLantern i l .lit else q.setLantern i l
          | .announce => q.changeLantern i { l with state := .lit } 0
          | .lit => q.setLantern i l) p

/-- A departure reaches ARR (R55). -/
def Part.arrDeparture (p : Part) (c d f : Nat) : Part :=
  p.onlyArr <|
    ((p.lanternsOf c d).filter fun i => ((p.arr.lanterns[i]?).map (·.floor)) = some f).foldl
      (fun q i =>
        match q.arr.lanterns[i]? with
        | none => q
        | some l =>
          let l := { l with hold := true }
          if l.state = .dark then q.setLantern i l else q.changeLantern i l.darkened 0) p

/-- The withdrawal notice reaches ARR (R50). -/
def Part.arrWithdraw (p : Part) (c : Nat) : Part :=
  p.onlyArr <|
    let p1 := { p with arr := { p.arr with withdrawn := p.arr.withdrawn.set c true } }
    let p2 := ((p1.lanternsOf c 0) ++ (p1.lanternsOf c 1)).foldl
      (fun q i =>
        match q.arr.lanterns[i]? with
        | none => q
        | some l =>
          let l := { l with estimate := .none }
          if l.state = .dark then q.setLantern i l else q.changeLantern i l.darkened 0) p1
    (p2.prm.table.filter fun a => a.car = c && a.prompt ≠ .none).foldl
      (fun q a => q.setHeld a.number a.estimate .none) p2

/-- The return notice reaches ARR (R50). -/
def Part.arrReturn (p : Part) (c : Nat) : Part :=
  { p with arr := { p.arr with withdrawn := p.arr.withdrawn.set c false } }

/-! ### Formation (R51) -/

/-- Insert a lantern state in ascending (car, deck, floor), once. -/
def insertLantern (l : Lantern) : List Lantern → List Lantern
  | [] => [l]
  | x :: xs =>
    if x.car = l.car && x.deck = l.deck && x.floor = l.floor then x :: xs
    else if l.car < x.car || (l.car = x.car && (l.deck < x.deck || (l.deck = x.deck && l.floor < x.floor))) then
      l :: x :: xs
    else x :: insertLantern l xs

/-- ARR as formed at an acceptance: one DARK lantern state for each binding (R51, R59). -/
def freshArr (nodes : List (Option NodeConfig)) : Arr where
  lanterns := nodes.foldl
    (fun acc n =>
      match n with
      | none => acc
      | some cfg =>
        if cfg.type = .hallLantern then
          insertLantern
            { car := cfg.car, deck := cfg.deck, floor := cfg.floor, state := .dark, shown := .none, hold := false,
              estimate := .none } acc
        else acc) []
  withdrawn := List.replicate Config.maxCars false

end Sys2Proof.Machine
end

