-- ==== Sys2Proof/Machine/Prompt.lean ====
section
/-! DEFINITION. The Prompt Manager (chapter 4): the assignment table, terminal queues, trip list notices. Its operations
change PRM and, through ARR and CMP, the held values and the display side; nothing else (`Part.onlyPrm`). -/

namespace Sys2Proof.Machine

/-- `p` with what PRM may change taken from `q`. -/
def Part.onlyPrm (p q : Part) : Part := { p with prm := q.prm, disp := q.disp }

/-! ### Queues (R66 to R70) -/

/-- Change the queue of a terminal. -/
def Part.setQueue (p : Part) (terminal : Nat) (refs : List Nat) : Part :=
  { p with prm := { p.prm with queues := p.prm.queues.map fun q =>
      if q.terminal = terminal then { q with refs := refs } else q } }

/-- Whether the assignment with a number is SHOWING. -/
def Part.isShowing (p : Part) (number : Nat) : Bool := (p.assignment number).map (·.prompt) = some .showing

/-- Whether the assignment with a number is step-free. -/
def Part.isStepFree (p : Part) (number : Nat) : Bool := ((p.assignment number).map (·.stepFree)).getD false

/-- The queue with a new reference in its ordered place: the head, step-free entries, the others (R66). -/
def Part.joined (p : Part) (refs : List Nat) (number : Nat) (stepFree : Bool) : List Nat :=
  if stepFree then
    let ahead (n : Nat) : Bool := p.isShowing n || p.isStepFree n
    refs.takeWhile ahead ++ number :: refs.dropWhile ahead
  else refs ++ [number]

/-- The showing interval of a new head (R69). -/
def showInterval (params : Params) (references : Nat) (stepFree : Bool) : Nat :=
  let base := if references ≤ 1 then params.promptShowMs else params.promptBusyMs
  if stepFree then 2 * base else base

/-- The first reference of a terminal's queue becomes head when it is QUEUED; the head change is handed to CMP, and
an empty queue hands its own (R69, R70, R72). -/
def Part.becomeHead (p : Part) (terminal : Nat) : Part :=
  match p.queueOf terminal with
  | [] => p.cmpHeadChange terminal
  | n :: rest =>
    match p.assignment n with
    | none => p
    | some a =>
      if a.prompt = .queued then
        let until' := p.after (showInterval p.params (rest.length + 1) a.stepFree)
        (p.setAssignment n fun x => { x with prompt := .showing, deadline := some until' }).cmpHeadChange terminal
      else p

/-- The head of a queue leaves it with prompt state NONE, staying live; ARR discards its held value (R68, R70). -/
def Part.endShowing (p : Part) (terminal : Nat) : Part :=
  match p.queueOf terminal with
  | [] => p
  | n :: rest =>
    ((p.setAssignment n fun x => { x with prompt := .none, deadline := none }).setQueue terminal rest).promptEnded n

/-- A live entry enters its terminal's queue (R67, R68). -/
def Part.enterQueue (p : Part) (number terminal : Nat) (stepFree : Bool) : Part :=
  let full : Bool := Config.queueLimit ≤ (p.queueOf terminal).length
  let p1 := if full then p.endShowing terminal else p
  let refs := p1.queueOf terminal
  let p2 := (p1.setQueue terminal (p1.joined refs number stepFree)).setAssignment number
    fun x => { x with prompt := .queued }
  let p3 := p2.promptEstimate number true
  if full || refs = [] then p3.becomeHead terminal else p3

/-! ### Trip list notices (R81) -/

/-- A car, deck and boarding floor. -/
abbrev TripKey := Nat × Nat × Nat

/-- The key of an assignment's trip list. -/
def Assignment.tripKey (a : Assignment) : TripKey := (a.car, a.deck, a.boarding)

/-- The shown trip list of a key. -/
def Part.tripAt (p : Part) (k : TripKey) : List Nat × Bool := p.tripShown k.1 k.2.1 k.2.2

/-- Hand a trip list notice for each key whose shown list differs from what it was in `before` (R81). -/
def Part.tripNotices (p before : Part) (keys : List TripKey) : Part :=
  (keys.filter fun k => p.tripAt k ≠ before.tripAt k).foldl (fun q k => q.cmpTripNotice k.1 k.2.1 k.2.2) p

/-! ### Removal (R72) -/

/-- Keep the first of each repeated key. -/
def uniqueKeys (keys : List TripKey) : List TripKey :=
  keys.foldl (fun acc k => if acc.contains k then acc else acc ++ [k]) []

/-- Remove every entry that `gone` names, as one event (R72, R83): first every removal, then the new heads in
ascending node index, then the trip list notices. R83 gives this order for an event that removes several entries; an event
that removes one keeps it too, the new head's change before the trip list notice (DESIGN CHOICE, log entry 22). -/
def Part.removeEntries (p : Part) (gone : Assignment → Bool) : Part :=
  p.onlyPrm <|
    let leaving := p.prm.table.filter gone
    let numbers := leaving.map (·.number)
    let headless := (p.prm.queues.filter fun q =>
      match q.refs with
      | [] => false
      | n :: _ => numbers.contains n).map (·.terminal)
    let p1 : Part :=
      { p with prm := { p.prm with
          table := p.prm.table.filter fun a => !gone a
          queues := p.prm.queues.map fun q => { q with refs := q.refs.filter fun n => !numbers.contains n } } }
    let p2 := headless.foldl (fun q t => q.becomeHead t) p1
    p2.tripNotices p (uniqueKeys (leaving.map (·.tripKey)))

/-- Remove the entries that `gone` names and report the event when any was removed (R75, R79). -/
def Part.retireEntries (p : Part) (gone : Assignment → Bool) (words : Nat → Word × Word) : Part :=
  let n := p.prm.table.countP gone
  if n = 0 then p else (p.removeEntries gone).report (words n)

/-! ### NEW (R62 to R65) -/

/-- Checks 3 to 5 of R62, for a car and deck against a boarding floor and a destination (R62, R74). -/
def Part.checkCar (p : Part) (car deck boarding destination : Nat) : Option AssignReason :=
  if !p.isDeck car deck then some .badCar
  else if !p.serves car deck boarding || !p.serves car deck destination || destination = boarding then
    some .notServed
  else if p.prm.withdrawn.getD car false then some .carWithdrawn
  else none

/-- A refusal: counted and reported (R62, R74). -/
def Part.refuseAssign (p : Part) (recordKind number : Nat) (why : AssignReason) : Part :=
  (p.count .assignRefusal 1).report (repAssignRefused recordKind number why)

/-- The entry that makes room in a full table: WAITING, prompt NONE, lowest take order (R64). -/
def Part.displaceable (p : Part) : Option Assignment :=
  (p.prm.table.filter fun a => !a.isBoarding && a.prompt = .none).foldl
    (fun best a =>
      match best with
      | none => some a
      | some b => if a.order < b.order then some a else some b) none

/-- Displacement (R64). -/
def Part.displace (p : Part) (a : Assignment) : Part :=
  ((p.removeEntries fun x => x.number = a.number).count .displaced 1).report (repRetiredDisplaced a.number)

/-- Creation of a live entry at place `order` of the take order (R61, R65): table, queue, trip list. -/
def Part.createEntry (p : Part) (order number terminal boarding destination car deck : Nat) (stepFree : Bool) : Part :=
  p.onlyPrm <|
    let a : Assignment :=
      { number := number, order := order, terminal := terminal, boarding := boarding,
        destination := destination, car := car, deck := deck, stepFree := stepFree, created := p.now,
        isBoarding := p.standsOpenAt car deck boarding, prompt := .none, deadline := none, estimate := none }
    let p1 : Part := { p with prm := { p.prm with table := p.prm.table ++ [a] } }
    (p1.enterQueue number terminal stepFree).tripNotices p [a.tripKey]

/-- A NEW for a terminal under channel `k` is dropped; the first per activation is reported (R63). -/
def Part.dropNew (p : Part) (k terminal number : Nat) (n : NodeConfig) : Part :=
  let p1 := p.count .dropped 1
  if p.prm.dropReported.getD k false then p1
  else
    ({ p1 with prm := { p1.prm with dropReported := p1.prm.dropReported.set k true } }).report
      (repAssignDropped terminal n.ring n.position k number)

/-- The node table entry of a TERMINAL (R62, check 1). -/
def Part.terminalNode (p : Part) (j : Nat) : Option NodeConfig :=
  match p.node j with
  | none => none
  | some n => if n.type = .terminal then some n else none

/-- A NEW is taken: the take order counts it, whatever becomes of it (Table 4-1). -/
def Part.takeNew (p : Part) : Part := { p with prm := { p.prm with nextOrder := p.prm.nextOrder + 1 } }

/-- The checks of R62 on a NEW at place `order` of the take order, and what each leads to (R62 to R65). -/
def Part.examineNew (p : Part) (order : Nat) (words : List Word) : Part :=
  let number := assignNumber words
  let terminal := assignTerminal words
  let car := assignCar words
  let deck := assignDeck words
  let destination := assignDestination words
  match p.terminalNode terminal with
  | none => p.refuseAssign 1 number .badTerminal
  | some n =>
    match p.governing n with
    | some k => p.dropNew k terminal number n
    | none =>
      match p.checkCar car deck n.floor destination with
      | some why => p.refuseAssign 1 number why
      | none =>
        if (p.assignment number).isSome then p.refuseAssign 1 number .duplicate
        else if Config.maxAssignments ≤ p.prm.table.length then
          match p.displaceable with
          | none => p.refuseAssign 1 number .tableFull
          | some a =>
            (p.displace a).createEntry order number terminal n.floor destination car deck (assignStepFree words)
        else p.createEntry order number terminal n.floor destination car deck (assignStepFree words)

/-- A NEW record (R61, R62). -/
def Part.prmNew (p : Part) (words : List Word) : Part := p.takeNew.examineNew p.prm.nextOrder words

/-! ### CANCEL, REASSIGN (R73, R74) -/

/-- A CANCEL record (R73). -/
def Part.prmCancel (p : Part) (words : List Word) : Part :=
  match p.assignment (assignNumber words) with
  | none => p.count .unknownNumber 1
  | some _ => p.removeEntries fun a => a.number = assignNumber words

/-- The effect of a REASSIGN that passed its checks with another car or deck (R74). -/
def Part.reassign (p : Part) (a : Assignment) (car deck : Nat) : Part :=
  p.onlyPrm <|
    let open' := p.standsOpenAt car deck a.boarding
    let p1 := p.setAssignment a.number fun x => { x with car := car, deck := deck, isBoarding := open' }
    let p2 := if a.prompt = .none then p1 else p1.promptEstimate a.number true
    let p3 := if a.prompt = .showing then p2.cmpHeadChange a.terminal else p2
    p3.tripNotices p [a.tripKey, (car, deck, a.boarding)]

/-- A REASSIGN record (R74). -/
def Part.prmReassign (p : Part) (words : List Word) : Part :=
  let number := assignNumber words
  match p.assignment number with
  | none => p.count .unknownNumber 1
  | some a =>
    match p.checkCar (assignCar words) (assignDeck words) a.boarding a.destination with
    | some why => p.refuseAssign 3 number why
    | none =>
      if a.car = assignCar words && a.deck = assignDeck words then p
      else p.reassign a (assignCar words) (assignDeck words)

/-- An assignment record is handled by its kind; an unrecognised kind is refused (R60). -/
def Part.prmRecord (p : Part) (slot : Nat) (words : List Word) : Part :=
  match assignKind words with
  | 1 => p.prmNew words
  | 2 => p.prmCancel words
  | 3 => p.prmReassign words
  | _ => (p.count .refusedRecord 1).report (repRecordRefused 2 slot)

/-! ### Tracking events (R75 to R77) -/

/-- The withdrawal notice reaches PRM (R75). -/
def Part.prmWithdraw (p : Part) (c : Nat) : Part :=
  let p1 : Part := { p with prm := { p.prm with withdrawn := p.prm.withdrawn.set c true } }
  p1.retireEntries (fun a => a.car = c) (repRetiredWithdrawn c)

/-- The return notice reaches PRM (R75). -/
def Part.prmReturn (p : Part) (c : Nat) : Part :=
  { p with prm := { p.prm with withdrawn := p.prm.withdrawn.set c false } }

/-- An arrival with open doors reaches PRM (R76). -/
def Part.prmArrival (p : Part) (c d f : Nat) : Part :=
  { p with prm := { p.prm with table := p.prm.table.map fun a =>
      if a.car = c && a.deck = d && a.boarding = f then { a with isBoarding := true } else a } }

/-- A departure reaches PRM (R77). -/
def Part.prmDeparture (p : Part) (c d f : Nat) : Part :=
  p.removeEntries fun a => a.car = c && a.deck = d && a.boarding = f && a.isBoarding

/-! ### Show deadline, lifetime, flush (R70, R78, R79) -/

/-- The show deadline of a terminal's head (R70). -/
def Part.showDeadlineDue (p : Part) (terminal : Nat) : Bool :=
  match p.headOf terminal with
  | none => false
  | some a =>
    match a.deadline with
    | none => false
    | some t => p.reached t

/-- The head's showing ends and the next reference becomes head (R70). -/
def Part.showDeadline (p : Part) (terminal : Nat) : Part :=
  if p.showDeadlineDue terminal then p.onlyPrm ((p.endShowing terminal).becomeHead terminal) else p

/-- Whether an assignment's age has reached assign_life_s (R78). -/
def Part.pastLife (p : Part) (a : Assignment) : Bool := p.params.assignLifeS * 1000 ≤ p.since a.created

/-- Entries whose age reaches assign_life_s are removed as one event (R78). -/
def Part.lifetime (p : Part) : Part :=
  let n := p.prm.table.countP p.pastLife
  if n = 0 then p else (p.removeEntries p.pastLife).count .expired n

/-- Whether the terminal of an assignment lies in the scope of channel `k`. -/
def Part.inFlush (p : Part) (k : Nat) (a : Assignment) : Bool :=
  match p.node a.terminal with
  | none => false
  | some n => p.inScope k n

/-- OVR's activation notice: the drop mark is cleared and the terminals in scope are flushed (R79). -/
def Part.prmFlush (p : Part) (k : Nat) : Part :=
  let p1 : Part := { p with prm := { p.prm with dropReported := p.prm.dropReported.set k false } }
  p1.retireEntries (p1.inFlush k) (repRetiredOverride k)

/-- PRM as formed at an acceptance: one empty queue per TERMINAL node (R85). The take order starts afresh at 0 (DESIGN
CHOICE, log entry 21). -/
def freshPrm (nodes : List (Option NodeConfig)) : Prm where
  table := []
  nextOrder := 0
  queues := (List.range nodes.length).filterMap fun j =>
    match (nodes[j]?).join with
    | none => none
    | some n => if n.type = .terminal then some { terminal := j, refs := [] } else none
  withdrawn := List.replicate Config.maxCars false
  dropReported := List.replicate Config.channels false

end Sys2Proof.Machine
end

