-- ==== Sys2Proof/Machine/Override.lean ====
section
/-! DEFINITION. The Override Unit (chapter 7): sampling, acceptance, memory requests, channel states and their notices. -/

namespace Sys2Proof.Machine

/-! ### Lines (R127, R128) -/

/-- Whether the lines are to be sampled now: the counter has reached a multiple of 10 not yet sampled (R127). -/
def Part.samplingDue (p : Part) : Bool := p.now.toNat % 10 = 0 && p.now ≠ p.sampledAt

/-- One sampling of the four lines: each new sample joins its history, and its acceptance test becomes due under the
deglitch mode then in the parameter shadow (R127, R128). -/
def Part.sampleLines (p : Part) : Part :=
  if p.samplingDue then
    { p with
      sampledAt := p.now
      ovr := (List.range p.ovr.length).map fun n =>
        let c := p.channel n
        { c with
          samples := pushHistory c.samples (p.lines.getLsbD n)
          test := some p.params.overrideDeglitch } }
  else p

/-- The accepted state after the test of R128: it turns when at least m of the newest n samples differ from it and fewer than m
agree with it. Both can reach m under 4oo8 alone, at four asserted and four released samples, which leave the state as it was: R128
says so of this history, though its condition for turning is met (DESIGN CHOICE, log entry 33). -/
def acceptLine (mode : Deglitch) (samples : List Bool) (accepted : Bool) : Bool :=
  let tested := newest mode.pair.2 samples
  if mode.pair.1 ≤ tested.countP (· ≠ accepted) && tested.countP (· = accepted) < mode.pair.1 then !accepted else accepted

/-! ### Channel states (R131, R133) -/

/-- The status change of channel `k` (R138). -/
def Part.channelNotice (p : Part) (k : Nat) : Part := p.status (channelRecordIndex k) (channelStatus (p.channel k))

/-- A channel goes from OFF to ACTIVE: flush, channel change, OVERRIDE_ON (R133). -/
def Part.activateChannel (p : Part) (k : Nat) : Part :=
  let p1 := p.setChannel k { p.channel k with latch := true }
  ((p1.prmFlush k).cmpChannelChange).report (repOverrideOn k (p.channel k).accepted (p.channel k).memory)

/-- A source of channel `k` has changed (R131): it is asserted while the channel is OFF and a configuration runs, so the
channel activates; the status change follows in every case (R133). -/
def Part.sourceChange (p : Part) (k : Nat) : Part :=
  let c := p.channel k
  let p1 := if !c.latch && (c.accepted || c.memory) && p.path.configured then p.activateChannel k else p
  p1.channelNotice k

/-- The acceptance test of line `k` after a sampling (R128). -/
def Part.testLine (p : Part) (k : Nat) : Part :=
  let c := p.channel k
  match c.test with
  | none => p
  | some mode =>
    let accepted := acceptLine mode c.samples c.accepted
    let p1 := p.setChannel k { c with test := none, accepted := accepted }
    if accepted = c.accepted then p1 else p1.sourceChange k

/-! ### The override record (R129) -/

/-- The memory request of channel `k` takes a request code. -/
def Part.memoryRequest (p : Part) (words : List Word) (k : Nat) : Part :=
  let c := p.channel k
  let m : Bool :=
    match overrideCode words k with
    | 1 => true
    | 2 => false
    | _ => c.memory
  if m = c.memory then p else (p.setChannel k { c with memory := m }).sourceChange k

/-- The override record (R129): refused whole when any code is none of the three. -/
def Part.ovrRecord (p : Part) (words : List Word) : Part :=
  if (List.range Config.channels).any fun n => decide (2 < overrideCode words n) then
    (p.count .refusedRecord 1).report (repRecordRefused 3 0)
  else (List.range Config.channels).foldl (fun q k => q.memoryRequest words k) p

/-! ### Latch clear (R132) -/

/-- A latch clear for channel `k`: it turns a LATCHED channel OFF and is ignored otherwise (R132, R133). -/
def Part.clearLatch (p : Part) (k : Nat) : Part :=
  if (p.channel k).state = .latched then
    (((p.setChannel k { p.channel k with latch := false }).cmpChannelChange).report (repOverrideOff k)).channelNotice k
  else p

end Sys2Proof.Machine
end

