-- ==== Sys2Proof/Machine/Report.lean ====
section
/-! DEFINITION. The Report Writer (chapter 10): consumption, the choice of the next write sequence, the own writes it
makes, and its state after an accepted TAKE_FULL. -/

namespace Sys2Proof.Machine

/-! ### Consumption (R182, R183) -/

/-- A consumption of slot `s`: an UNCONSUMED slot becomes FREE, any other is left alone (R182). -/
def Rpt.consume (r : Rpt) (s : Nat) : Rpt :=
  if r.slots[s]? = some .unconsumed then r.setSlot s .free else r

/-! ### The choice of the next write sequence (R181, R185, R187) -/

/-- Whether a report can be written: one waits and the slot at the producer position is FREE (R181). -/
def Rpt.entryReady (r : Rpt) : Bool := !r.waiting.isEmpty && r.slots[r.producer]? = some .free

/-- Where the search for a pending record starts: after the last one written, at the table's start while none has been
(R185, Table 10-3). -/
def Rpt.searchFrom (r : Rpt) : Nat :=
  match r.lastRecord with
  | none => 0
  | some i => i + 1

/-- The next pending record in table order, from the one after the last written, wrapping (R185). -/
def Rpt.nextRecord (r : Rpt) : Option Nat :=
  ((List.range Config.statusRecords).map fun i => (r.searchFrom + i) % Config.statusRecords).find? fun i =>
    ((r.records[i]?).map (·.pending)).getD false

/-- The words of a record about to be written: the new change count, the fields, the change count again (R185). -/
def StatusRecord.written (x : StatusRecord) : List Word :=
  let mark : Word := place 0 (x.count + 1).toNat
  mark :: x.fields ++ [mark]

/-- The writer begins record `i`: the shadow is taken, its pending mark cleared, its change count raised (R185). -/
def Rpt.beginRecord (r : Rpt) (i : Nat) : Rpt :=
  match r.records[i]? with
  | none => r
  | some x =>
    { r with
      records := r.records.set i { x with count := x.count + 1, pending := false }
      writer := .record i 0 x.written }

/-- The writer's choice between entries and records (R185). -/
def Rpt.chooseSequence (r : Rpt) : Rpt :=
  match r.area with
  | none => r
  | some _ =>
    match r.nextRecord with
    | none => if r.entryReady then { r with writer := .entry 0 none } else r
    | some i =>
      if r.entryReady && r.lastWrite ≠ .entry then { r with writer := .entry 0 none } else r.beginRecord i

/-- The writer chooses when its last sequence has ended; a write-back that is due goes first (R185, R187). -/
def Rpt.choose (r : Rpt) : Rpt :=
  match r.writer with
  | .idle => if r.writeBackDue then { r with writer := .serviceBack, writeBackDue := false } else r.chooseSequence
  | .entry _ _ => r
  | .record _ _ _ => r
  | .serviceBack => r

/-! ### Own writes (R180, R185, R187) -/

/-- A write the part makes: address and word. -/
abbrev OwnWrite := Nat × Word

/-- The closing word of an entry: its sequence number and the drop count as it stands (R180). -/
def Rpt.closingWord (r : Rpt) : Word := place 0 (r.sequence + 1).toNat ||| place 16 r.drops.toNat

/-- Word `i` of a report's entry, for the three field words (R180). -/
def Report.fieldWord (x : Report) : Nat → Word
  | 0 => x.word0
  | 1 => x.word1
  | _ => x.time

/-- The address of word `i` of the slot at the producer position. -/
def Rpt.entryAddress (r : Rpt) (i : Nat) : Nat := r.area.getD 0 + 4 * r.producer + i

/-- The entry's first access: the slot becomes WRITING and the head report leaves the waiting queue (R180, R181). -/
def Rpt.firstWrite (r : Rpt) : Rpt × Option OwnWrite :=
  match r.waiting with
  | [] => ({ r with writer := .idle }, none)
  | x :: rest =>
    ({ r.setSlot r.producer .writing with waiting := rest, writer := .entry 1 (some x) },
      some (r.entryAddress 0, x.fieldWord 0))

/-- The entry's closing-word write: the slot becomes UNCONSUMED, the producer advances, the drop count returns to 0
(R180). -/
def Rpt.closeEntry (r : Rpt) : Rpt × Option OwnWrite :=
  ({ r.setSlot r.producer .unconsumed with
      producer := (r.producer + 1) % Config.reportSlots
      sequence := r.sequence + 1
      drops := 0
      writer := .idle
      lastWrite := .entry },
    some (r.entryAddress 3, r.closingWord))

/-- One own write of an entry, after `done` of its words (R180). -/
def Rpt.writeEntry (r : Rpt) (done : Nat) (x : Option Report) : Rpt × Option OwnWrite :=
  match x with
  | none => r.firstWrite
  | some x =>
    if done < 3 then
      ({ r with writer := .entry (done + 1) (some x) }, some (r.entryAddress done, x.fieldWord done))
    else r.closeEntry

/-- One own write of record `i`, after `done` of its words (R185). -/
def Rpt.writeRecord (r : Rpt) (i done : Nat) (words : List Word) : Rpt × Option OwnWrite :=
  let out : OwnWrite := (r.area.getD 0 + recordOffset i + done, words.getD done 0)
  if done + 1 < words.length then ({ r with writer := .record i (done + 1) words }, some out)
  else ({ r with writer := .idle, lastWrite := .record, lastRecord := some i }, some out)

/-- The report class's own write is performed (R180, R185, R187). -/
def Rpt.write (r : Rpt) (serviceAddress : Nat) : Rpt × Option OwnWrite :=
  match r.writer with
  | .idle => (r, none)
  | .entry done x => r.writeEntry done x
  | .record i done words => r.writeRecord i done words
  | .serviceBack => ({ r with writer := .idle }, some (serviceAddress, 0))

/-! ### Counters clear (R187) -/

/-- Every counter becomes 0 and the counters record becomes pending (R187). -/
def Rpt.clearCounters (r : Rpt) : Rpt :=
  ({ r with counters := List.replicate 16 0 }).status countersRecordIndex (counterFields (List.replicate 16 0))

/-! ### After an accepted TAKE_FULL (R188, Table 10-3) -/

/-- A shadow at an acceptance: its fields, change count 0, pending (R188). -/
def StatusRecord.fresh (fields : List Word) : StatusRecord where
  fields := fields
  count := 0
  pending := true

/-- The write sequence an acceptance leaves: a service word write-back stands, writes for the old area are discarded
(R174, R188). -/
def Writer.kept : Writer → Writer
  | .serviceBack => .serviceBack
  | .idle => .idle
  | .entry _ _ => .idle
  | .record _ _ _ => .idle

/-- RPT after an accepted TAKE_FULL, with the shadows of the other blocks' new states (R188). -/
def Rpt.accepted (r : Rpt) (area : Nat) (shadows : List (List Word)) : Rpt where
  area := some area
  slots := List.replicate Config.reportSlots .free
  producer := 0
  sequence := 0
  drops := 0
  waiting := []
  writer := r.writer.kept
  lastWrite := .record
  lastRecord := some countersRecordIndex
  records := (shadows ++ [counterFields r.counters]).map StatusRecord.fresh
  counters := r.counters
  requests := r.requests
  writeBackDue := r.writeBackDue
  attention := false

end Sys2Proof.Machine
end

