-- ==== Sys2Proof/Machine/Tracker.lean ====
section
/-! DEFINITION. The Car Tracker (chapter 2): one evaluation of a car, step by step (R19), staleness, and what TRK hands to
ARR, PRM, TRG, CMP and RPT. -/

namespace Sys2Proof.Machine

/-- Replace the tracker's state of car `c`. -/
def Part.setCar (p : Part) (c : Nat) (x : Car) : Part := { p with trk := p.trk.set c x }

/-- Replace deck `d` of a car. -/
def Car.setDeck (x : Car) (d : Nat) (k : Deck) : Car := { x with decks := x.decks.set d k }

/-! ### Step 1: interpretation (R15 to R18) -/

/-- The clamp of R15. -/
def clampPosition (x : Int) : Nat := (min (max x 0) 1048575).toNat

/-- Whether a position needed clamping (R15). -/
def positionClamped (x : Int) : Bool := x < 0 || 1048575 < x

/-- How many of the four coded fields are held (R16). -/
def heldCodes (words : List Word) : Nat :=
  (carDrive words).isNone.toNat + (carDeparture words).isNone.toNat + (carDoor words).isNone.toNat
    + (carMode words).isNone.toNat

/-- The stop list: the first count entries, up to the first at or above the floor count (R17). -/
def stopsOf (floors : Nat) (words : List Word) : List Nat :=
  ((carStopEntries words).take (min (carStopCount words) 8)).takeWhile (· < floors)

/-- How often a record raises the stop list counter (R17). -/
def stopFaults (floors : Nat) (words : List Word) : Nat :=
  let first := (carStopEntries words).take (min (carStopCount words) 8)
  (decide (8 < carStopCount words)).toNat + (first.any (floors ≤ ·)).toNat

/-- The interpreted fields replace the last taken ones; the stale timer restarts (R15 to R18, R30). -/
def interpretCar (floors : Nat) (x : Car) (words : List Word) (now : Time) : Car :=
  { x with
    position := some (clampPosition (carPosition words))
    drive := (carDrive words).getD x.drive
    departure := (carDeparture words).getD x.departure
    door := (carDoor words).getD x.door
    mode := (carMode words).getD x.mode
    stops := stopsOf floors words
    words := words.take 15
    timer := some now }

/-- The counts of R15, R16 and R17. -/
def Part.countInterpretation (p : Part) (words : List Word) : Part :=
  ((p.count .positionClamp (positionClamped (carPosition words)).toNat).count .codeHold (heldCodes words)).count
    .stopList (stopFaults p.floorCount words)

/-! ### Steps 2 and 3: history, speed, motion, lead (R20 to R22) -/

/-- The oldest sample within the speed window, searching from the newest to older ones (R21). The list is newest
first. -/
def oldestWithin (now : Time) (window : Nat) (best : Nat × Time) : List (Nat × Time) → Nat × Time
  | [] => best
  | (x, t) :: rest => if (now - t).toNat ≤ window then oldestWithin now window (x, t) rest else best

/-- The speed from the position history, oldest first, in mm/s, upward positive (R21). -/
def speedOf (window : Nat) (history : List (Nat × Time)) : Int :=
  match history.reverse with
  | [] => 0
  | (pn, tn) :: older =>
    let o := oldestWithin tn window (pn, tn) older
    let dt : Nat := (tn - o.2).toNat
    if dt = 0 then 0
    else
      let v : Int := (((pn : Int) - (o.1 : Int)) * 1000).tdiv (dt : Int)
      min (max v (-16000)) 16000

/-- The motion of a speed (R22). -/
def motionOf (vStill : Nat) (speed : Int) : Motion :=
  if (vStill : Int) ≤ speed then .movingUp else if speed ≤ -(vStill : Int) then .movingDown else .still

/-- The lead of a speed (R22). -/
def leadOf (params : Params) (speed : Int) : Nat := min (speed.natAbs * params.leadMs / 1000) params.leadMaxMm

/-- Steps 2 and 3 of an evaluation. -/
def trackMotion (params : Params) (now : Time) (x : Car) : Car :=
  let history := pushHistory x.history (x.position.getD 0, now)
  let speed := speedOf params.speedWindowMs history
  { x with history := history, speed := speed, motion := motionOf params.vStill speed, lead := leadOf params speed }

/-! ### Step 4: candidate, acceptance, indication (R23 to R29) -/

/-- The floor whose level is nearest to `x`, the lower at equal distance; `best` is the best so far (R24). -/
def nearestFloor (p : Part) (x : Nat) : Nat :=
  (List.range p.floorCount).foldl
    (fun best k => if distance x (p.level k) < distance x (p.level best) then k else best) 0

/-- The largest floor with L[k] − Z ≤ q, or 0 (R25). -/
def floorBelow (p : Part) (zone : Nat) (q : Int) : Nat :=
  (List.range p.floorCount).foldl (fun best k => if (p.level k : Int) - zone ≤ q then k else best) 0

/-- The smallest floor with L[k] + Z ≥ q, or the top floor (R26). -/
def floorAbove (p : Part) (zone : Nat) (q : Int) : Nat :=
  match (List.range p.floorCount).find? fun k => decide (q ≤ (p.level k : Int) + zone) with
  | some k => k
  | none => p.floorCount - 1

/-- The candidate floor of a deck at position `x` (R24 to R26). -/
def candidateFloor (p : Part) (cfg : CarConfig) (motion : Motion) (lead x : Nat) (accepted : Option Nat) : Nat :=
  match motion with
  | .still =>
    match p.floorNear cfg.zone x with
    | some k => k
    | none =>
      match accepted with
      | some a => a
      | none => nearestFloor p x
  | .movingUp => max (floorBelow p cfg.zone ((x : Int) + lead)) (accepted.getD 0)
  | .movingDown =>
    match accepted with
    | some a => min (floorAbove p cfg.zone ((x : Int) - lead)) a
    | none => floorAbove p cfg.zone ((x : Int) - lead)

/-- Whether a waiting candidate reaches its deglitch count (R28). -/
def deglitched (mode : Deglitch) (history : List Nat) (candidate : Nat) : Bool :=
  mode.pair.1 ≤ (newest mode.pair.2 history).countP (· = candidate)

/-- The accepted floor after a candidate (R28); `history` already holds it. -/
def acceptFloor (mode : Deglitch) (motion : Motion) (history : List Nat) (accepted : Option Nat) (candidate : Nat) :
    Nat :=
  match accepted with
  | none => candidate
  | some a =>
    match motion with
    | .movingUp => candidate
    | .movingDown => candidate
    | .still => if candidate = a then a else if deglitched mode history candidate then candidate else a

/-- The indication state (R29). -/
def indicationOf (p : Part) (cfg : CarConfig) (c d : Nat) (motion : Motion) (x a : Nat) : Indication :=
  match motion with
  | .still => if distance x (p.level a) ≤ cfg.zone && p.serves c d a then .atFloor else .between
  | .movingUp => if p.serves c d a then .moving else .express
  | .movingDown => if p.serves c d a then .moving else .express

/-- Step 4 for one deck (R23 to R29). -/
def trackDeck (p : Part) (cfg : CarConfig) (c : Nat) (x : Car) (d : Nat) : Car :=
  let k := x.deck d
  let pos := x.position.getD 0 + cfg.offset d
  let candidate := candidateFloor p cfg x.motion x.lead pos k.accepted
  let history := pushHistory k.candidates candidate
  let accepted := acceptFloor cfg.deglitch x.motion history k.accepted candidate
  x.setDeck d
    { k with
      position := pos, candidates := history, accepted := some accepted,
      state := indicationOf p cfg c d x.motion pos accepted }

/-- Steps 1 to 4 on the car's state. -/
def trackCar (p : Part) (cfg : CarConfig) (c : Nat) (words : List Word) : Car :=
  (List.range cfg.decks).foldl (trackDeck p cfg c)
    (trackMotion p.params p.now (interpretCar p.floorCount (p.car c) words p.now))

/-! ### Step 5: visits, arrivals, departures (R32 to R34) -/

/-- Change the visit record of deck `d` of car `c`. -/
def Part.setVisit (p : Part) (c d : Nat) (visit : Option Nat) (opened : Bool) : Part :=
  p.setCar c ((p.car c).setDeck d { p.deck c d with visit := visit, opened := opened })

/-- A departure is handed to ARR and then to PRM (R34). -/
def Part.raiseDeparture (p : Part) (c d f : Nat) : Part := (p.arrDeparture c d f).prmDeparture c d f

/-- An arrival with open doors is handed to ARR and then to PRM, and the door-opened flag is set (R33). -/
def Part.raiseArrival (p : Part) (c d f : Nat) : Part :=
  ((p.arrArrival c d f).prmArrival c d f).setVisit c d (some f) true

/-- The visit of deck `d` ends: its departure is raised when its doors opened (R32, R34). -/
def Part.endVisit (p : Part) (c d : Nat) : Part :=
  match (p.deck c d).visit with
  | none => p
  | some g =>
    let p1 := if (p.deck c d).opened then p.raiseDeparture c d g else p
    p1.setVisit c d none false

/-- A deck AT_FLOOR at `f` continues or begins its visit there (R32). -/
def Part.beginVisit (p : Part) (c d f : Nat) : Part :=
  if (p.deck c d).visit = some f then p else (p.endVisit c d).setVisit c d (some f) false

/-- R33: the arrival, when the doors are open and none was raised for this visit. -/
def Part.openVisit (p : Part) (c d f : Nat) : Part :=
  if p.doorsOpen c && !(p.deck c d).opened then p.raiseArrival c d f else p

/-- Step 5 for one deck (R32 to R34). -/
def Part.updateVisit (p : Part) (c d : Nat) : Part :=
  match (p.deck c d).state, (p.deck c d).accepted with
  | .atFloor, some f => (p.beginVisit c d f).openVisit c d f
  | .atFloor, none => p
  | .moving, _ => p.endVisit c d
  | .express, _ => p.endVisit c d
  | .between, _ => p
  | .stale, _ => p
  | .unknown, _ => p

/-! ### Steps 6 to 8 (R35 to R38) -/

/-- Whether a service mode means withdrawal (R35). -/
def ServiceMode.withdrawn (m : ServiceMode) : Bool := m ≠ .normal

/-- Step 6: the withdrawal or return notice, to PRM and to ARR (R35). -/
def Part.noticeWithdrawal (p : Part) (c : Nat) (before : Car) : Part :=
  let was := before.mode.withdrawn
  let is' := (p.car c).mode.withdrawn
  if !was && is' then (p.prmWithdraw c).arrWithdraw c
  else if was && !is' then (p.prmReturn c).arrReturn c
  else p

/-- Whether deck `d` is named by a change notice (R37). -/
def deckChanged (before after : Car) (d : Nat) : Bool :=
  (before.deck d).accepted ≠ (after.deck d).accepted || (before.deck d).state ≠ (after.deck d).state
    || before.mode ≠ after.mode || before.drive ≠ after.drive
    || decide (before.motion = .still) != decide (after.motion = .still) || before.stops ≠ after.stops

/-- The change notices to CMP (R37). -/
def Part.noticeChanges (p : Part) (c : Nat) (before : Car) : Part :=
  ((p.decksOf c).filter (deckChanged before (p.car c))).foldl (fun q d => q.cmpDeckChange c d) p

/-- The status change to RPT, when a value of the car's status changed (R38). -/
def Part.noticeStatus (p : Part) (c : Nat) (before : Car) : Part :=
  let fields := carStatus true (p.car c)
  if fields = carStatus true before then p else p.status (carRecordIndex c) fields

/-- Whether car `c` is STALE (R30). -/
def Part.isStale (p : Part) (c : Nat) : Bool := (p.deck c 0).state = .stale

/-- One evaluation of a configured car on a record (R19, R31). -/
def Part.evaluateCar (p : Part) (c : Nat) (cfg : CarConfig) (words : List Word) : Part :=
  let before := p.car c
  let p1 := p.countInterpretation words
  let p2 := if p.isStale c then p1.report (repCarResumed c) else p1
  let p3 := p2.setCar c (trackCar p cfg c words)
  let p4 := (List.range cfg.decks).foldl (fun q d => q.updateVisit c d) p3
  let p5 := p4.noticeWithdrawal c before
  let p6 := p5.trgHandOn c (words.take 15)
  ((p6.arrEvaluation c).noticeChanges c before).noticeStatus c before

/-- A car record taken for slot `c` (R14). -/
def Part.trkRecord (p : Part) (c : Nat) (words : List Word) : Part :=
  match p.carConfig c with
  | none => (p.count .refusedRecord 1).report (repRecordRefused 0 c)
  | some cfg => p.evaluateCar c cfg words

/-! ### Staleness (R30) -/

/-- Whether the stale timer of car `c` expires now. -/
def Part.staleDue (p : Part) (c : Nat) : Bool :=
  match (p.car c).timer with
  | none => false
  | some t => !p.isStale c && p.params.staleMs ≤ p.since t

/-- Every deck of a configured car enters STALE. -/
def Car.staled (x : Car) (decks : Nat) : Car :=
  (List.range decks).foldl (fun y d => y.setDeck d { y.deck d with state := .stale }) x

/-- The stale expiry of car `c` (R30). -/
def Part.staleExpiry (p : Part) (c : Nat) : Part :=
  if p.staleDue c then
    let before := p.car c
    let p1 := (p.setCar c (before.staled (p.decksOf c).length)).report (repCarStale c)
    (((p.decksOf c).foldl (fun q d => q.cmpDeckChange c d) p1).arrEvaluation c).noticeStatus c before
  else p

/-- Whether the position history of car `c` is emptied now: STALE for 2^31 ms since the last take (R30). -/
def Part.historyDue (p : Part) (c : Nat) : Bool :=
  match (p.car c).timer with
  | none => false
  | some t => p.isStale c && !(p.car c).history.isEmpty && 2 ^ 31 ≤ p.since t

/-- The position history of a long-stale car is emptied (R30). -/
def Part.emptyHistory (p : Part) (c : Nat) : Part :=
  if p.historyDue c then p.setCar c { p.car c with history := [] } else p

end Sys2Proof.Machine
end

