-- ==== Sys2Proof/Machine/Validation.lean ====
section
/-! DEFINITION. The validation of a take copy (R170): its eight stages, each giving the first failing check as a refusal
code of Table 11-3 and an entry index. Every function reads the take copy as a map from word offset to word. -/

namespace Sys2Proof.Machine

/-- A failed check: refusal code and entry index. -/
abbrev Failure := Nat × Nat

/-- The first failure of a list of checks in order. -/
def firstFailure {α : Type} (items : List α) (check : α → Option Failure) : Option Failure := items.findSome? check

/-- A failure when the condition holds. -/
def failIf (bad : Bool) (code entry : Nat) : Option Failure := if bad then some (code, entry) else none

/-! ### Header (R170) -/

/-- The header stage. -/
def headerStage (w : Nat → Word) : Option Failure :=
  (failIf (w 0x000 != 0x484E0416#32) refSignature 0).or (failIf (w 0x001 != 0x00000001#32) refVersion 0)

/-! ### Windows (R170, Table 9-1) -/

/-- The minimum length in words of window `i` (Table 9-1). -/
def windowMinimum : Nat → Nat
  | 0 => 512
  | 1 => 1024
  | 2 => 512
  | 3 => 8
  | 4 => 2048
  | _ => 1

/-- Whether two runs of words share a word. -/
def shareWord (base1 length1 base2 length2 : Nat) : Bool := base1 < base2 + length2 && base2 < base1 + length1

/-- The checks of window `i`: size, then overlap (R170). -/
def windowFailure (anchor : Nat) (w : Nat → Word) (i : Nat) : Option Failure :=
  let x := readWindow w i
  let short : Bool :=
    (i = 4 && !x.present) || (x.present && (x.length < windowMinimum i || 16777216 < x.base + x.length))
  let overlap : Bool :=
    x.present &&
      (shareWord x.base x.length anchor Config.anchorWords ||
        (List.range i).any fun k =>
          (readWindow w k).present && shareWord x.base x.length (readWindow w k).base (readWindow w k).length)
  (failIf short refWindowSize i).or (failIf overlap refWindowOverlap i)

/-- The windows stage. -/
def windowsStage (anchor : Nat) (w : Nat → Word) : Option Failure :=
  firstFailure (List.range 8) (windowFailure anchor w)

/-! ### Floors (R3) -/

/-- Whether a label holds a code of the third class (R4). -/
def badCodes (label : List Byte) : Bool := label.any thirdClass

/-- The checks of floor entry `k` (R3). -/
def floorFailure (w : Nat → Word) (k : Nat) : Option Failure :=
  let x := readFloor w k
  let below := (readFloor w (k - 1)).level
  ((failIf (x.label.isEmpty || badCodes x.label) refLabel k).or
    (failIf (if k = 0 then x.level ≠ 0 else x.level ≤ below) refFloorOrder k)).or
      (failIf (k ≠ 0 && x.level < below + 2000) refFloorGap k)

/-- The floors stage (R3). -/
def floorsStage (w : Nat → Word) : Option Failure :=
  (failIf (floorCount w < 2) refFloorCount (floorCount w)).or
    (firstFailure (List.range (floorCount w)) (floorFailure w))

/-! ### Cars (R6, R9) -/

/-- Whether a served set breaks R9. -/
def badServed (w : Nat → Word) (served : List Nat) (upper : Bool) (spacing : Nat) : Bool :=
  let count := floorCount w
  !(served.any (· < count)) || served.any (fun k => count ≤ k) ||
    served.any (fun k => !(readFloor w k).landing) ||
    (upper && served.any fun k => (readFloor w k).level < spacing)

/-- The values of a car slot outside their ranges (R6 (a)). -/
def badCarValues (w : Nat → Word) (c : Nat) : Bool :=
  let x := readCar w c
  x.vRated < 500 || 16000 < x.vRated || x.zone < 30 || 900 < x.zone ||
    (readDeglitch (field (carWord w c 0) 16 3)).isNone || (x.decks ≠ 1 && x.decks ≠ 2)

/-- The checks of configured slot `c` (R6). -/
def carFailure (w : Nat → Word) (c : Nat) : Option Failure :=
  let x := readCar w c
  if carConfigured w c then
    ((failIf (badCarValues w c) refCarConfig c).or
      (failIf (x.decks = 2 && (x.spacing < 2000 || 8000 < x.spacing)) refCarConfig c)).or
      ((failIf (x.label.isEmpty || badCodes x.label || badCodes x.express) refCarConfig c).or
        (failIf (badServed w x.served0 false x.spacing || (x.decks = 2 && badServed w x.served1 true x.spacing))
          refServedSet c))
  else none

/-- The cars stage (R6). -/
def carsStage (w : Nat → Word) : Option Failure :=
  (failIf (!carConfigured w 0) refCarConfig 0).or (firstFailure (List.range Config.maxCars) (carFailure w))

/-! ### Nodes (R171) -/

/-- Whether node entry `j` is in use: any type code but UNUSED. -/
def nodeInUse (w : Nat → Word) (j : Nat) : Bool := nodeTypeCode w j ≠ 0

/-- The ring field of node entry `j`. -/
def nodeRing (w : Nat → Word) (j : Nat) : Nat := field (nodeWord w j 0) 8 3

/-- The ring position field of node entry `j`. -/
def nodePosition (w : Nat → Word) (j : Nat) : Nat := field (nodeWord w j 0) 16 6

/-- Whether a car and deck of a binding do not exist in the new geometry image (R171, check 4). -/
def badCarBinding (w : Nat → Word) (car deck : Nat) : Bool :=
  !(car < Config.maxCars && carConfigured w car) || (readCar w car).decks ≤ deck

/-- Whether the binding of a node is bad (R171, check 4). -/
def badBinding (w : Nat → Word) (n : NodeConfig) : Bool :=
  match n.type with
  | .carPanel => badCarBinding w n.car n.deck
  | .hallLantern => badCarBinding w n.car n.deck || floorCount w ≤ n.floor
  | .terminal => floorCount w ≤ n.floor
  | .lobbyBoard => floorCount w ≤ n.floor

/-- Whether a terminal's bearing code is none of those allowed (R171, check 5). -/
def badBearing (code : Nat) : Bool := code ≠ 0 && (code < 6 || 9 < code)

/-- Checks 1 to 5 of an entry in use (R171). A group of four bits and a threshold of three lie in their ranges. -/
def badNode (w : Nat → Word) (j : Nat) : Bool :=
  match readNode w j with
  | none => true
  | some n =>
    Config.rings ≤ n.ring || n.position = 0 || Config.maxPosition < n.position || badBinding w n ||
      (n.type = .terminal && n.bearings.any badBearing)

/-- Whether an entry in use of lower index has the same ring and position (R171). -/
def duplicateNode (w : Nat → Word) (j : Nat) : Bool :=
  (List.range j).any fun k => nodeInUse w k && nodeRing w k = nodeRing w j && nodePosition w k = nodePosition w j

/-- The checks of node entry `j` (R171). -/
def nodeFailure (w : Nat → Word) (j : Nat) : Option Failure :=
  if nodeInUse w j then
    (failIf (badNode w j) refNodeConfig j).or (failIf (duplicateNode w j) refNodeDuplicate j)
  else none

/-- The positions of the nodes of ring `r`. -/
def ringPositions (w : Nat → Word) (r : Nat) : List Nat :=
  ((List.range Config.maxNodes).filter fun j => nodeInUse w j && nodeRing w j = r).map (nodePosition w)

/-- The check of ring `r` (R171): its window, and positions from 1 to N without a gap (they are distinct). -/
def ringFailure (w : Nat → Word) (r : Nat) : Option Failure :=
  let positions := ringPositions w r
  let size := readRingWindow w r
  failIf (!positions.isEmpty && (size = 0 || 4 < size || positions.any (positions.length < ·))) refNodeConfig (192 + r)

/-- The nodes stage (R171). -/
def nodesStage (w : Nat → Word) : Option Failure :=
  (firstFailure (List.range Config.maxNodes) (nodeFailure w)).or
    (firstFailure (List.range Config.rings) (ringFailure w))

/-! ### Triggers (R104) -/

/-- Whether in-use trigger entry `t` fails (R104). -/
def badTrigger (w : Nat → Word) (t : Nat) : Bool :=
  let source := field (triggerWord w t 0) 0 8
  let edge := field (triggerWord w t 0) 16 3
  let action := field (triggerWord w t 0) 20 3
  !(source < Config.maxCars && carConfigured w source) || 14 < field (triggerWord w t 0) 8 4 ||
    triggerWord w t 2 = 0 || 1 < field (triggerWord w t 0) 12 2 || 3 < edge || 2 < action ||
    (action < 2 && Config.maxMessages ≤ field (triggerWord w t 1) 0 8) || (edge = 0 && action = 2)

/-- The triggers stage (R104). -/
def triggersStage (w : Nat → Word) : Option Failure :=
  firstFailure (List.range Config.maxTriggers) fun t =>
    failIf (triggerInUse w t && badTrigger w t) refTriggerConfig t

/-! ### Overrides (R130) -/

/-- Whether override channel entry `n` fails (R130). -/
def badChannel (w : Nat → Word) (n : Nat) : Bool :=
  let badRange : Bool :=
    match readRange (channelWord w n 1) with
    | none => false
    | some (lo, hi) => hi < lo || floorCount w ≤ hi
  1 < field (channelWord w n 0) 16 2 || 1 < field (channelWord w n 0) 18 2 || badRange

/-- The overrides stage (R130). -/
def overridesStage (w : Nat → Word) : Option Failure :=
  firstFailure (List.range Config.channels) fun n => failIf (badChannel w n) refOverrideConfig n

/-! ### Parameters (R172, Table 9-2) -/

/-- The range of parameter `i` (Table 9-2). -/
def paramRange (i : Nat) : Nat × Nat :=
  if 17 ≤ i && i ≤ 22 then (2, 50)
  else if 23 ≤ i && i ≤ 28 then (0, 7)
  else
    match i with
    | 0 => (200, 5000)
    | 1 => (200, 2000)
    | 2 => (0, 3000)
    | 3 => (0, 10000)
    | 4 => (20, 500)
    | 5 => (2000, 30000)
    | 6 => (0, 10000)
    | 7 => (0, 10000)
    | 8 => (0, 9)
    | 9 => (0, 10)
    | 10 => (2000, 15000)
    | 11 => (1000, 15000)
    | 12 => (30, 600)
    | 13 => (2000, 20000)
    | 14 => (1000, 8000)
    | 15 => (1000, 60000)
    | 16 => (100, 5000)
    | 29 => (1, 100)
    | _ => (0, 3)

/-- The parameters stage (R172). -/
def paramsStage (w : Nat → Word) : Option Failure :=
  firstFailure (List.range 31) fun i =>
    failIf (readParam w i < (paramRange i).1 || (paramRange i).2 < readParam w i) refParamRange i

/-! ### The whole (R170) -/

/-- The validation of a take copy: all eight stages, or the header and parameters stages (R170). -/
def validate (anchor : Nat) (kind : TakeKind) (w : Nat → Word) : Option Failure :=
  match kind with
  | .full =>
    (((headerStage w).or (windowsStage anchor w)).or ((floorsStage w).or (carsStage w))).or
      (((nodesStage w).or (triggersStage w)).or ((overridesStage w).or (paramsStage w)))
  | .params => (headerStage w).or (paramsStage w)

end Sys2Proof.Machine
end

