-- ==== Sys2Proof/Machine/Take.lean ====
section
/-! DEFINITION. The configuration take (R168 to R175): the words it reads, and what an acceptance or a refusal does to
every block. -/

namespace Sys2Proof.Machine

/-! ### The words a take reads (R168) -/

/-- A take as it begins. -/
def Take.fresh (kind : TakeKind) : Take where
  kind := kind
  copy := []
  mirror := [[], [], [], []]
  result := none

/-- The words of window `k`'s mirror read so far. -/
def Take.mirrorOf (t : Take) (k : Nat) : List Word := t.mirror.getD k []

/-- The next mirror read: window and address, in ascending window and address, of the present record windows. -/
def Take.nextMirror (t : Take) : Option (Nat × Nat) :=
  (List.range 4).findSome? fun k =>
    let x := readWindow t.word k
    if x.present && (t.mirrorOf k).length < recordWords k then some (k, x.base + (t.mirrorOf k).length) else none

/-- The take's next own read: its word address, and the window when it fills the new mirror (R168). -/
def Take.nextRead (t : Take) (anchor : Nat) : Option (Nat × Option Nat) :=
  match takeOffset t.kind t.copy.length with
  | some offset => some (anchor + offset, none)
  | none =>
    match t.kind with
    | .params => none
    | .full => t.nextMirror.map fun x => (x.2, some x.1)

/-- The take after the word of a read: into the copy, or into the new mirror. -/
def Take.store (t : Take) (window : Option Nat) (word : Word) : Take :=
  match window with
  | none => { t with copy := t.copy ++ [word] }
  | some k => { t with mirror := t.mirror.modify k fun l => l ++ [word] }

/-- After a read: a complete copy is validated, and a take with nothing more to read ends (R168, R170, R173). -/
def Take.conclude (t : Take) (anchor : Nat) (window : Option Nat) : Take :=
  match takeOffset t.kind t.copy.length with
  | some _ => t
  | none =>
    let failed : Option Failure := if window.isNone then validate anchor t.kind t.word else none
    match failed with
    | some f => { t with result := some f }
    | none => if (t.nextRead anchor).isNone then { t with result := some (0, 0) } else t

/-- A host write into a new record window at a word the mirror phase has read (R169). -/
def Take.merge (t : Take) (a : Nat) (data : Word) (be : BitVec 4) : Take :=
  { t with
    mirror := (List.range 4).map fun k =>
      let x := readWindow t.word k
      if x.present && x.base ≤ a && a < x.base + (t.mirrorOf k).length then
        (t.mirrorOf k).modify (a - x.base) fun old => mergeWord old data be
      else t.mirrorOf k }

/-! ### Acceptance of a TAKE_FULL (R174) -/

/-- The sequence numbers the closing words of a mirror hold. -/
def closingSequences (k : Nat) (words : List Word) : List (BitVec 16) :=
  (List.range (words.length / recordSize k)).map fun s =>
    sequenceOf (words.getD (recordSize k * s + (recordSize k - 1)) 0)

/-- The own accesses an acceptance keeps: a waiting service word write-back (R174, R188). -/
def keptOwn (writer : Writer) (own : List OwnAccess) : List OwnAccess :=
  own.filter fun x => x.kind = .report && writer = .serviceBack

/-- PATH after an accepted TAKE_FULL (R174). -/
def Path.accepted (p : Path) (t : Take) (writer : Writer) : Path :=
  { p with
    state := .running
    watch := readWatch t.word
    mirror := t.mirror
    lastSeq := (List.range 4).map fun k => closingSequences k (t.mirrorOf k)
    take := none
    own := keptOwn writer p.own }

/-- The text an override channel has after an acceptance (R135): PENDING, empty, version 0 where present; the buffer and version of
an absent one are the model's (DESIGN CHOICE, log entry 37). -/
def overrideText (ref : Option TextRef) : Text :=
  match ref with
  | none => Text.absent
  | some _ => { status := some .pending, buffer := [], version := 0 }

/-- A channel after an accepted TAKE_FULL, before R137 applies its line (R137, Table 7-2). -/
def Channel.loaded (c : Channel) (w : Nat → Word) (n : Nat) : Channel :=
  { c with
    config := some (readChannel w n)
    lineRef := readChannelText w n 2
    lineText := overrideText (readChannelText w n 2)
    bannerRef := readChannelText w n 4
    bannerText := overrideText (readChannelText w n 4)
    memory := false
    latch := false }

/-- The fetch jobs of the override texts present in a configuration, in their order (R135). -/
def overrideJobs (w : Nat → Word) : List Job :=
  ((List.range Config.channels).flatMap fun n =>
    [(TextOwner.line n, readChannelText w n 2), (TextOwner.banner n, readChannelText w n 4)]).filterMap fun x =>
      x.2.map fun ref => Job.fresh x.1 ref

/-- The shadows of the car, node, ring and channel records after an acceptance (R188, Table 11-11). -/
def acceptedShadows (geo : Geo) (nodes : List (Option NodeConfig)) (rings : List Ring) (channels : List Channel)
    (now : Time) : List (List Word) :=
  geo.cars.map (fun c => carStatus c.isSome Car.fresh)
    ++ (List.range nodes.length).map (fun j =>
      if ((nodes[j]?).join).isSome then nodeStatus (LinkNode.fresh j now) else [0])
    ++ rings.map ringStatus ++ channels.map channelStatus

/-- Every block takes its state after TAKE_FULL at one moment (R174, Table 9-3). -/
def Part.replaced (p : Part) (t : Take) : Part :=
  let w := t.word
  let geo := readGeo w
  let nodes := readNodes w
  let rings := (List.range Config.rings).map fun n => freshRing nodes n (readRingWindow w n) p.now
  let ovr := (List.range Config.channels).map fun n => (p.channel n).loaded w n
  { p with
    path := p.path.accepted t p.disp.rpt.writer
    params := readParams w
    geo := geo
    nodes := nodes
    trk := List.replicate Config.maxCars Car.fresh
    arr := freshArr nodes
    prm := freshPrm nodes
    msg := List.replicate Config.maxMessages Message.fresh
    txf := { jobs := overrideJobs w, ready := [], read := none }
    trg := readTriggers w
    ovr := ovr
    disp :=
      { cmp := freshCmp nodes
        lnk := rings
        rpt := p.disp.rpt.accepted (readWindow w 4).base (acceptedShadows geo nodes rings ovr p.now) } }

/-- R137: each line whose accepted state is ASSERTED is applied as a source becoming asserted, channels ascending. -/
def Part.applyLines (p : Part) : Part :=
  (List.range Config.channels).foldl (fun q k => if (q.channel k).accepted then q.sourceChange k else q) p

/-- The acceptance of a TAKE_FULL: the new configuration, TAKE_DONE, the override texts' checks, the asserted lines
(R173, R174, R135, R137; log entry 16). -/
def Part.acceptFull (p : Part) (t : Take) : Part :=
  (((p.replaced t).report (repTakeDone .full 0 0)).txfPump).applyLines

/-! ### Acceptance of a TAKE_PARAMS (R175) -/

/-- The path state a take ends in unless it is a TAKE_FULL accepted (R165). -/
def PathState.afterTake : PathState → PathState
  | .taking fromRunning => if fromRunning then .running else .unconfigured
  | .running => .running
  | .unconfigured => .unconfigured

/-- The take ends and the path returns to the state it began from (R165, R173). -/
def Part.endTake (p : Part) : Part := { p with path := { p.path with state := p.path.state.afterTake, take := none } }

/-- Cars that the new stale_ms makes stale at once (R30), in ascending index. -/
def Part.staleNow (p : Part) : Part := (List.range Config.maxCars).foldl (fun q c => q.staleExpiry c) p

/-- The acceptance of a TAKE_PARAMS: the parameter shadow, TAKE_DONE, and the two parameters read at each moment
(R175, R30, R78; log entry 16). -/
def Part.acceptParams (p : Part) (t : Take) : Part :=
  (({ p.endTake with params := readParams t.word }).report (repTakeDone .params 0 0)).staleNow.lifetime

/-! ### The end of a take (R173) -/

/-- A refusal: every block keeps its state (R173). -/
def Part.refuseTake (p : Part) (kind : TakeKind) (f : Failure) : Part :=
  p.endTake.report (repTakeDone kind f.1 f.2)

/-- The lowest channel that is ACTIVE or LATCHED (R136). -/
def Part.channelHeld (p : Part) : Option Nat := (List.range Config.channels).find? p.channelOn

/-- The result written at the end of a take: a TAKE_FULL that passed is refused while a channel is not OFF (R173,
R136). -/
def Part.takeResult (p : Part) (t : Take) (due : Failure) : Failure :=
  match t.kind with
  | .params => due
  | .full =>
    if due.1 = 0 then
      match p.channelHeld with
      | some k => (refOverrideActive, k)
      | none => due
    else due

/-- The take ends with a result (R173 to R175). -/
def Part.finishTake (p : Part) (t : Take) (result : Failure) : Part :=
  if result.1 = 0 then
    match t.kind with
    | .full => p.acceptFull t
    | .params => p.acceptParams t
  else p.refuseTake t.kind result

end Sys2Proof.Machine
end

