-- ==== Sys2Proof/Machine/Path.lean ====
section
/-! DEFINITION. The memory path (chapter 9): host writes and reads, the own accesses and the arbiter over the memory port,
and RESET_N. The operations act on a `State` and leave its queue of commands alone. -/

namespace Sys2Proof.Machine

/-- Change the part. -/
def State.onPart (s : State) (f : Part → Part) : State := { s with part := f s.part }

/-- Change PATH. -/
def Part.onPath (p : Part) (f : Path → Path) : Part := { p with path := f p.path }

/-! ### Addresses (R167, R176) -/

/-- The base of the anchor block. -/
def Path.anchorAt (p : Path) : Nat := anchorBase p.anchor

/-- The take word's address. -/
def Path.takeAddress (p : Path) : Nat := p.anchorAt + takeWordOffset

/-- The service word's address. -/
def Path.serviceAddress (p : Path) : Nat := p.anchorAt + serviceWordOffset

/-- Whether an address lies in the anchor block. -/
def Path.inAnchor (p : Path) (a : Nat) : Bool := p.anchorAt ≤ a && a < p.anchorAt + Config.anchorWords

/-- A word address as the bus carries it. -/
def wordAddr (a : Nat) : Addr := BitVec.ofNat 24 a

/-- Window `k` of the watch map in force, when present; none while there is no map (R165). -/
def Path.window (p : Path) (k : Nat) : Option Window :=
  if p.configured then
    match p.watch[k]? with
    | none => none
    | some w => if w.present then some w else none
  else none

/-- The offset of an address in window `k` of the watch map in force. -/
def Path.offsetIn (p : Path) (k a : Nat) : Option Nat :=
  match p.window k with
  | none => none
  | some w => if w.base ≤ a && a < w.base + w.length then some (a - w.base) else none

/-! ### The own-access queue (R179) -/

/-- Whether an own access of a kind waits. -/
def Path.waits (p : Path) (k : OwnKind) : Bool := p.own.any (·.kind = k)

/-- An own access joins the queue when its requester wants it and has none waiting. -/
def Path.join (p : Path) (k : OwnKind) (wanted : Bool) : Path :=
  if wanted && !p.waits k then { p with own := p.own ++ [{ kind := k, passed := 0 }] } else p

/-- An own access leaves the queue: it is performed, or its requester's need is gone. -/
def Path.leave (p : Path) (k : OwnKind) : Path := { p with own := p.own.filter (·.kind ≠ k) }

/-- Every waiting own access has been passed over once more (R179). -/
def Path.passOver (p : Path) : Path := { p with own := p.own.map fun x => { x with passed := x.passed + 1 } }

/-- The oldest own access, when it has waited through 32 host accesses: host accesses are held (R179). -/
def Path.heldFor (p : Path) : Option OwnKind :=
  match p.own with
  | [] => none
  | x :: _ => if Config.passOverLimit ≤ x.passed then some x.kind else none

/-- Whether an own access belongs to the take class (R179). -/
def OwnKind.isTake : OwnKind → Bool
  | .takeWord => true
  | .takeRead => true
  | .takeResult => true
  | .report => false
  | .text => false

/-- The oldest waiting own access of the highest class (R179). -/
def Path.byClass (p : Path) : Option OwnKind :=
  (((p.own.find? (·.kind.isTake)).or (p.own.find? (·.kind = .report))).or (p.own.find? (·.kind = .text))).map (·.kind)

/-- The own access the arbiter gives the port next (R179): a due take result write, the one host accesses are held for,
or the first by class. The one host accesses are held for goes before a higher class also while no host access waits
(DESIGN CHOICE, log entry 28). -/
def Path.ownNext (p : Path) : Option OwnKind :=
  if p.waits .takeResult then some .takeResult else (p.heldFor).or p.byClass

/-! ### What every command ends with -/

/-- Whether a take has a read to make. -/
def Path.takeReads (p : Path) : Bool :=
  match p.take with
  | none => false
  | some t => t.result.isNone

/-- Whether a take result write is due. -/
def Path.resultDue (p : Path) : Bool :=
  match p.take with
  | none => false
  | some t => t.result.isSome

/-- The own accesses each requester has made known join the queue: take class, report, text (R179, log entry 6). -/
def Part.joinOwn (p : Part) : Part :=
  p.onPath fun x =>
    ((((x.join .takeWord x.takeWordRead).join .takeRead x.takeReads).join .takeResult x.resultDue).join .report
      (p.disp.rpt.writer ≠ .idle)).join .text p.txf.read.isSome

/-- TXF checks and reads, RPT chooses its next write, and the own accesses join the queue. -/
def Part.settle (p : Part) : Part := (p.txfPump.onRpt (·.choose)).joinOwn

/-! ### Take requests (R167, R168) -/

/-- PATH enters TAKING from a state (R165, R168). A read of the take word that still waits to judge an earlier write is given
up: a request is received outside TAKING alone (log entry 7). -/
def Path.beginTake (x : Path) (fromRunning : Bool) (kind : TakeKind) : Path :=
  { x with state := .taking fromRunning, take := some (Take.fresh kind), takeWordRead := false }.leave .takeWord

/-- A take begins: the path enters TAKING and remembers where from (R165, R168). -/
def Part.startTake (p : Part) (kind : TakeKind) : Part :=
  match p.path.state with
  | .taking _ => p
  | .unconfigured => p.onPath (·.beginTake false kind)
  | .running => p.onPath (·.beginTake true kind)

/-- A value of the take word is judged (R167). -/
def Part.judge (p : Part) (value : Word) : Part :=
  if value = 1 then p.startTake .full else if value = 2 then p.startTake .params else p

/-- PATH learns the value of the take word (R167). -/
def Part.learn (p : Part) (value : Option Word) : Part := p.onPath fun x => { x with takeWord := value }

/-- The value of the take word after a host write, as far as PATH knows it (R167). -/
def Path.mergedTakeWord (p : Path) (data : Word) (be : BitVec 4) : Option Word :=
  match p.takeWord with
  | some old => some (mergeWord old data be)
  | none => if be = 0xF#4 then some data else none

/-- A host write of the take word, outside a take: judged at once when the word's value is known, otherwise by a read
PATH makes (R167, log entry 7). -/
def Part.takeWordWrite (p : Part) (data : Word) (be : BitVec 4) : Part :=
  let merged := p.path.mergedTakeWord data be
  match p.path.takeWord with
  | some old => (p.learn merged).judge (mergeWord old data be)
  | none => (p.learn merged).onPath fun x => { x with takeWordRead := true }

/-! ### The service word (R187) -/

/-- The bits written: a byte whose enable is clear carries none (log entry 8). -/
def enabledBits (data : Word) (be : BitVec 4) : Word := mergeWord 0 data be

/-- One request bit: 0 to 3 latch clears, 4 counters clear, 5 statistics clear, 6 repaint (Table 11-2, R187). -/
def Part.request (p : Part) (bit : Nat) : Part :=
  match bit with
  | 4 => p.onRpt (·.clearCounters)
  | 5 => { p with disp := clearStatistics p.disp }
  | 6 => { p with disp := repaintIn p p.disp }
  | n => p.clearLatch n

/-- RPT places a request in the pending set, acts on it, and takes it out when it is done (R187); a request already
pending is not made twice. -/
def Part.serveRequest (p : Part) (bit : Nat) : Part :=
  if p.disp.rpt.requests.getLsbD bit then p
  else
    ((p.onRpt fun r => { r with requests := r.requests ||| (1#7 <<< bit) }).request bit).onRpt fun r =>
      { r with requests := r.requests &&& ~~~(1#7 <<< bit) }

/-- A host write of the service word reaches RPT: its requests, then the write-back that is due (R187). Requests of one write are
acted on in ascending bit order, latch clears, counters, statistics, repaint (DESIGN CHOICE, log entry 26). A write while a
write-back is due that has not yet joined the own-access queue shares that one write-back (DESIGN CHOICE, log entry 30). -/
def Part.serviceWrite (p : Part) (value : Word) : Part :=
  let bits := (List.range 7).filter fun i => bitAt value i
  if bits.isEmpty then p
  else (bits.foldl Part.serveRequest p).onRpt fun r => { r with writeBackDue := true }

/-! ### Record capture (R176, R177) -/

/-- The record window whose slots hold an address, with the word's offset in them. -/
def Path.slotWord (p : Path) (a : Nat) : Option (Nat × Nat) :=
  (List.range 4).findSome? fun k =>
    match p.offsetIn k a with
    | none => none
    | some i => if i < recordWords k then some (k, i) else none

/-- The mirror's words of a slot. -/
def Path.slotWords (p : Path) (k slot : Nat) : List Word :=
  ((p.mirror.getD k []).drop (recordSize k * slot)).take (recordSize k)

/-- The mirror after a host write to a slot word (R177). -/
def Path.mergeMirror (p : Path) (k i : Nat) (data : Word) (be : BitVec 4) : Path :=
  { p with mirror := p.mirror.modify k fun l => l.modify i fun old => mergeWord old data be }

/-- The last sequence number taken for a slot. -/
def Path.lastTaken (p : Path) (k slot : Nat) : BitVec 16 := (p.lastSeq.getD k []).getD slot 0

/-- The sequence number becomes the slot's last taken. -/
def Path.setTaken (p : Path) (k slot : Nat) (seq : BitVec 16) : Path :=
  { p with lastSeq := p.lastSeq.modify k fun l => l.set slot seq }

/-- A record goes to its owner: TRK, MSG, PRM or OVR (R177). -/
def Part.handRecord (p : Part) (k slot : Nat) (words : List Word) : Part :=
  match k with
  | 0 => p.trkRecord slot words
  | 1 => p.msgRecord slot words
  | 2 => p.prmRecord slot words
  | _ => p.ovrRecord words

/-- A closing-word write: a repeat is counted, another sequence number takes the record (R177). -/
def Part.closeRecord (p : Part) (k slot : Nat) : Part :=
  let words := p.path.slotWords k slot
  let seq := sequenceOf (words.getD (recordSize k - 1) 0)
  if seq = p.path.lastTaken k slot then p.count .repeatTake 1
  else (p.onPath (·.setTaken k slot seq)).handRecord k slot words

/-- A host write to a word of the record slots (R177). -/
def Part.capture (p : Part) (k i : Nat) (data : Word) (be : BitVec 4) : Part :=
  let p1 := p.onPath (·.mergeMirror k i data be)
  if i % recordSize k = recordSize k - 1 then p1.closeRecord k (i / recordSize k) else p1

/-! ### Host writes (R164, R167, R169, R176) -/

/-- A host write in the anchor block ends a take with MODIFIED (R169). The take's read that still waits leaves the own-access
queue at once (DESIGN CHOICE, log entry 25). -/
def Path.modified (p : Path) : Path :=
  match p.take with
  | none => p
  | some t =>
    match t.result with
    | some _ => p
    | none => { p with take := some { t with result := some (refModified, 0) } }.leave .takeRead

/-- A host write reaches the new mirror of a take (R169). -/
def Path.mergeTake (p : Path) (a : Nat) (data : Word) (be : BitVec 4) : Path :=
  match p.take with
  | none => p
  | some t => { p with take := some (t.merge a data be) }

/-- A host write of the take word (R167, R169). -/
def Part.writeTakeWord (p : Part) (data : Word) (be : BitVec 4) : Part :=
  if p.path.take.isSome then p.learn (p.path.mergedTakeWord data be) else p.takeWordWrite data be

/-- What a host write in the anchor block does (R167, R169). -/
def Part.anchorWrite (p : Part) (a : Nat) (data : Word) (be : BitVec 4) : Part :=
  let p1 :=
    if a = p.path.takeAddress then p.writeTakeWord data be
    else if a = p.path.serviceAddress then p.serviceWrite (enabledBits data be)
    else p
  if p.path.take.isSome then p1.onPath (·.modified) else p1

/-- Whether an address lies in a TEXT_AREA window of the watch map in force (R176). -/
def Path.inTextArea (p : Path) (a : Nat) : Bool := [5, 6, 7].any fun k => (p.offsetIn k a).isSome

/-- What PATH does on watching a host write (R165, R169, R176). -/
def Part.watchWrite (p : Part) (a : Nat) (data : Word) (be : BitVec 4) : Part :=
  let p1 := p.onPath (·.mergeTake a data be)
  if p.path.inAnchor a then p1.anchorWrite a data be
  else
    match p.path.slotWord a with
    | some (k, i) => p1.capture k i data be
    | none => if p.path.inTextArea a then p1.textWrite a else p1

/-! ### Own accesses (R166, R173, R179, R180, R185, R187) -/

/-- An own write of a whole word. -/
def State.ownWrite (s : State) (w : Option OwnWrite) : State :=
  match w with
  | none => s
  | some (a, v) => { s with mem := writeWhole s.mem (wordAddr a) v }

/-- PATH's own read of the take word: learned, and judged as a request (R167). -/
def State.readTakeWord (s : State) : State :=
  let v := readWord s.mem (wordAddr s.part.path.takeAddress)
  s.onPart fun p => ((p.learn (some v)).onPath fun x => { x with takeWordRead := false }).judge v

/-- One own read of a take (R168). The read of the take word teaches its value (R167). -/
def State.readTake (s : State) : State :=
  match s.part.path.take with
  | none => s
  | some t =>
    match t.nextRead s.part.path.anchorAt with
    | none => s
    | some (a, window) =>
      let v := readWord s.mem (wordAddr a)
      s.onPart fun p =>
        let p1 := if a = p.path.takeAddress then p.learn (some v) else p
        p1.onPath fun x => { x with take := some ((t.store window v).conclude x.anchorAt window) }

/-- The held result write is performed and the take ends (R173). -/
def State.writeTakeResult (s : State) : State :=
  match s.part.path.take with
  | none => s
  | some t =>
    match t.result with
    | none => s
    | some due =>
      let result := s.part.takeResult t due
      let word := takeResultWord result.1 result.2
      (s.ownWrite (some (s.part.path.takeAddress, word))).onPart fun p =>
        (p.learn (some word)).finishTake t result

/-- The report class's own write (R180, R185, R187). -/
def State.writeReport (s : State) : State :=
  let made := s.part.disp.rpt.write s.part.path.serviceAddress
  (s.ownWrite made.2).onPart fun p => p.onRpt fun _ => made.1

/-- The text read (R97 to R100). -/
def State.readText (s : State) : State :=
  match s.part.txf.read with
  | none => s
  | some r => s.onPart fun p => p.textData (readWord s.mem (wordAddr r.address))

/-- An own access of a kind is performed: it leaves the queue, acts, and the next ones join (R179). -/
def State.performOwn (s : State) (k : OwnKind) : State :=
  let s1 := s.onPart fun p => p.onPath (·.leave k)
  let s2 :=
    match k with
    | .takeWord => s1.readTakeWord
    | .takeRead => s1.readTake
    | .takeResult => s1.writeTakeResult
    | .report => s1.writeReport
    | .text => s1.readText
  s2.onPart Part.settle

/-- An own access is performed when the arbiter gives it the port; out of its turn nothing happens (log entry 3). -/
def State.ownTurn (s : State) (k : OwnKind) : State :=
  if s.part.path.ownNext = some k then s.performOwn k else s

/-! ### Holding host accesses (R173, R179) -/

/-- A due take result write is performed before any host access (R173). -/
def State.clearResult (s : State) : State :=
  if s.part.path.waits .takeResult then s.performOwn .takeResult else s

/-- What a host access waits for: a due result write, then the own access it is held for, then a result write that
this makes due (R173, R179; log entry 6). -/
def State.release (s : State) : State :=
  let s1 := s.clearResult
  match s1.part.path.heldFor with
  | none => s1
  | some k => (s1.performOwn k).clearResult

/-! ### The two host accesses (R164) -/

/-- A host write: held when the rules say so, performed in memory as given, and watched. -/
def State.hostWrite (s : State) (a : Addr) (data : Word) (be : BitVec 4) : State :=
  let s1 := s.release.onPart fun p => p.onPath (·.passOver)
  { s1 with
    mem := writeWord s1.mem a data be
    part := (s1.part.watchWrite a.toNat data be).settle }

/-- The report slot whose closing word is at an address (R178). -/
def Path.reportSlot (p : Path) (a : Nat) : Option Nat :=
  match p.offsetIn 4 a with
  | none => none
  | some i => if i < 4 * Config.reportSlots && i % 4 = 3 then some (i / 4) else none

/-- What PATH does on watching a host read that returned `value` (R167, R178). -/
def Part.watchRead (p : Part) (a : Nat) (value : Word) : Part :=
  let p1 := if a = p.path.takeAddress then p.learn (some value) else p
  match p.path.reportSlot a with
  | none => p1
  | some slot => p1.onRpt (·.consume slot)

/-- A host read: held when the rules say so; it returns the word in memory, and is watched (R164, R178). -/
def State.hostRead (s : State) (a : Addr) : State :=
  let s1 := s.release.onPart fun p => p.onPath (·.passOver)
  let value := readWord s1.mem a
  s1.onPart fun p => (({ p with hostData := value }).watchRead a.toNat value).settle

/-! ### RESET_N (R164, R166) -/

/-- Memory, and what the last host read returned, after a host access performed while RESET_N is asserted: it passes through
unchanged and is watched by nothing (R164, R166). -/
def passAccess (x : List Host.Cell × Word) : HostAccess → List Host.Cell × Word
  | .write a data be => (writeWord x.1 a data be, x.2)
  | .read a _ => (x.1, readWord x.1 a)

/-- RESET_N asserted and released: memory keeps its content and the writes passed, and the host the data it read; every
block takes its state after RESET_N; the levels of the override lines are the panel's (R166, log entry 9). -/
def State.resetLine (s : State) (anchor : BitVec 4) (passed : List HostAccess) : State :=
  let host := passed.foldl passAccess (s.mem, s.part.hostData)
  { s with
    part := { Part.reset anchor s.part.lines with hostData := host.2 }
    mem := host.1 }

end Sys2Proof.Machine
end

