-- ==== Sys2Proof/Machine/HostCommands.lean ====
section
/-! DEFINITION. The commands the host gives: RESET_N, the writes of the anchor block, of the record windows and of the text areas, and
the reads (chapters 9 and 10). Each write is the one bus operation of R164. -/

namespace Sys2Proof.Machine

/-- A command that names a unit completes when the unit exists; the HN-416 has no such event otherwise (log entry 4). -/
def unitStep (ok : Bool) (s' : State) : Host.Outcome State Fault Refusal := if ok then .next s' else .fault .noSuchUnit

/-- RESET_N (R166). -/
def execResetN (anchor : BitVec 4) (passed : List HostAccess) (s : State) : Host.Outcome State Fault Refusal :=
  .next (s.resetLine anchor passed)

/-- TAKE_FULL (R168): a host write of the take word (log entry 5). -/
def execTakeFull (data : Word) (be : BitVec 4) (s : State) : Host.Outcome State Fault Refusal :=
  .next (s.hostWrite (wordAddr s.part.path.takeAddress) data be)

/-- TAKE_PARAMS (R168): a host write of the take word. -/
def execTakeParams (data : Word) (be : BitVec 4) (s : State) : Host.Outcome State Fault Refusal :=
  .next (s.hostWrite (wordAddr s.part.path.takeAddress) data be)

/-- MODIFIED (R169): a host write at a word of the anchor block. -/
def execModified (offset : Nat) (data : Word) (be : BitVec 4) (s : State) : Host.Outcome State Fault Refusal :=
  unitStep (offset < Config.anchorWords) (s.hostWrite (wordAddr (s.part.path.anchorAt + offset)) data be)

/-- A host write of the service word with one request bit set (Table 11-2). -/
def State.requestWrite (s : State) (bit : Nat) : State :=
  s.hostWrite (wordAddr s.part.path.serviceAddress) (place bit 1) 0xF#4

/-- LATCH_CLEAR (R132, R187). -/
def execLatchClear (channel : Nat) (s : State) : Host.Outcome State Fault Refusal :=
  unitStep (channel < Config.channels) (s.requestWrite channel)

/-- COUNTERS_CLEAR (R187). -/
def execCountersClear (s : State) : Host.Outcome State Fault Refusal :=
  .next (s.requestWrite 4)

/-- STATISTICS_CLEAR (R187). -/
def execStatisticsClear (s : State) : Host.Outcome State Fault Refusal :=
  .next (s.requestWrite 5)

/-- REPAINT (R125, R187). -/
def execRepaint (s : State) : Host.Outcome State Fault Refusal :=
  .next (s.requestWrite 6)

/-- HOST_WRITE (R164): a host write; where it falls and what the mirror then holds decide what is done (log entry 5). -/
def execHostWrite (addr : Addr) (data : Word) (be : BitVec 4) (s : State) : Host.Outcome State Fault Refusal :=
  .next (s.hostWrite addr data be)

/-- MIRROR_MERGE (R177): a host write; where it falls and what the mirror then holds decide what is done (log entry 5). -/
def execMirrorMerge (addr : Addr) (data : Word) (be : BitVec 4) (s : State) : Host.Outcome State Fault Refusal :=
  .next (s.hostWrite addr data be)

/-- CAR_RECORD (R14, R177): a host write; where it falls and what the mirror then holds decide what is done (log entry 5). -/
def execCarRecord (addr : Addr) (data : Word) (be : BitVec 4) (s : State) : Host.Outcome State Fault Refusal :=
  .next (s.hostWrite addr data be)

/-- ASSIGN_NEW (R62, R177): a host write; where it falls and what the mirror then holds decide what is done (log entry 5). -/
def execAssignNew (addr : Addr) (data : Word) (be : BitVec 4) (s : State) : Host.Outcome State Fault Refusal :=
  .next (s.hostWrite addr data be)

/-- ASSIGN_CANCEL (R73, R177): a host write; where it falls and what the mirror then holds decide what is done (log entry 5). -/
def execAssignCancel (addr : Addr) (data : Word) (be : BitVec 4) (s : State) : Host.Outcome State Fault Refusal :=
  .next (s.hostWrite addr data be)

/-- ASSIGN_REASSIGN (R74, R177): a host write; where it falls and what the mirror then holds decide what is done (log entry 5). -/
def execAssignReassign (addr : Addr) (data : Word) (be : BitVec 4) (s : State) : Host.Outcome State Fault Refusal :=
  .next (s.hostWrite addr data be)

/-- MESSAGE_DEFINE (R88, R177): a host write; where it falls and what the mirror then holds decide what is done (log entry 5). -/
def execMessageDefine (addr : Addr) (data : Word) (be : BitVec 4) (s : State) : Host.Outcome State Fault Refusal :=
  .next (s.hostWrite addr data be)

/-- MESSAGE_ACTIVATE (R89, R177): a host write; where it falls and what the mirror then holds decide what is done (log entry 5). -/
def execMessageActivate (addr : Addr) (data : Word) (be : BitVec 4) (s : State) : Host.Outcome State Fault Refusal :=
  .next (s.hostWrite addr data be)

/-- MESSAGE_CANCEL (R90, R177): a host write; where it falls and what the mirror then holds decide what is done (log entry 5). -/
def execMessageCancel (addr : Addr) (data : Word) (be : BitVec 4) (s : State) : Host.Outcome State Fault Refusal :=
  .next (s.hostWrite addr data be)

/-- MESSAGE_CLEAR (R90, R177): a host write; where it falls and what the mirror then holds decide what is done (log entry 5). -/
def execMessageClear (addr : Addr) (data : Word) (be : BitVec 4) (s : State) : Host.Outcome State Fault Refusal :=
  .next (s.hostWrite addr data be)

/-- OVERRIDE_ACTIVATE (R129, R177): a host write; where it falls and what the mirror then holds decide what is done (log entry 5). -/
def execOverrideActivate (addr : Addr) (data : Word) (be : BitVec 4) (s : State) : Host.Outcome State Fault Refusal :=
  .next (s.hostWrite addr data be)

/-- OVERRIDE_RELEASE (R129, R177): a host write; where it falls and what the mirror then holds decide what is done (log entry 5). -/
def execOverrideRelease (addr : Addr) (data : Word) (be : BitVec 4) (s : State) : Host.Outcome State Fault Refusal :=
  .next (s.hostWrite addr data be)

/-- TEXT_AREA_WRITE (R102, R176): a host write; where it falls and what the mirror then holds decide what is done (log entry 5). -/
def execTextAreaWrite (addr : Addr) (data : Word) (be : BitVec 4) (s : State) : Host.Outcome State Fault Refusal :=
  .next (s.hostWrite addr data be)

/-- CONSUME (R178, R182): a host read; the byte enables play no part. -/
def execConsume (addr : Addr) (_be : BitVec 4) (s : State) : Host.Outcome State Fault Refusal :=
  .next (s.hostRead addr)

end Sys2Proof.Machine
end

