-- ==== Sys2Proof/Machine/TimerCommands.lean ====
section
/-! DEFINITION. The events of the part's timers and deadlines, and of the override lines (chapters 2, 4, 5, 6 and 7). An event that is not
due changes nothing (log entry 3). -/

namespace Sys2Proof.Machine

/-- An event inside the part: the blocks act, then the own accesses are made known. -/
def State.event (s : State) (f : Part → Part) : State := s.onPart fun p => (f p).settle

/-- CAR_STALE (R30). -/
def execCarStale (car : Nat) (s : State) : Host.Outcome State Fault Refusal :=
  unitStep (car < Config.maxCars) (s.event (·.staleExpiry car))

/-- POSITION_HISTORY_EMPTIED (R30). -/
def execPositionHistoryEmptied (car : Nat) (s : State) : Host.Outcome State Fault Refusal :=
  unitStep (car < Config.maxCars) (s.event (·.emptyHistory car))

/-- SHOW_DEADLINE (R70). -/
def execShowDeadline (node : Nat) (s : State) : Host.Outcome State Fault Refusal :=
  unitStep (node < Config.maxNodes) (s.event (·.showDeadline node))

/-- LIFETIME (R78). -/
def execLifetime (s : State) : Host.Outcome State Fault Refusal :=
  .next (s.event (·.lifetime))

/-- MESSAGE_EXPIRED (R92). -/
def execMessageExpired (id : Nat) (s : State) : Host.Outcome State Fault Refusal :=
  unitStep (id < Config.maxMessages) (s.event (·.msgExpire id))

/-- DWELL_DEADLINE (R117). -/
def execDwellDeadline (node : Nat) (region : Region) (s : State) : Host.Outcome State Fault Refusal :=
  unitStep (node < Config.maxNodes) (s.event fun p => { p with disp := dwellDeadline p p.disp node region })

/-- LINE_ACCEPTED (R128). -/
def execLineAccepted (line : Nat) (s : State) : Host.Outcome State Fault Refusal :=
  unitStep (line < Config.channels) (s.event (·.testLine line))

/-- LINE_SAMPLING (R127): the lines stand at `levels`, and are sampled when a sampling is due. -/
def execLineSampling (levels : BitVec 4) (s : State) : Host.Outcome State Fault Refusal :=
  .next (s.event fun p => ({ p with lines := levels }).sampleLines)

end Sys2Proof.Machine
end

