-- ==== Sys2Proof/Machine/LinkCommands.lean ====
section
/-! DEFINITION. The events of the link engines (chapter 8). -/

namespace Sys2Proof.Machine

/-- SEND_FRAME (R149). -/
def execSendFrame (ring : Nat) (s : State) : Host.Outcome State Fault Refusal :=
  unitStep (ring < Config.rings) (s.event (·.sendFrame ring))

/-- FRAME_RETURN (R150). -/
def execFrameReturn (ring : Nat) (port : Port) (bytes : List Byte) (s : State) : Host.Outcome State Fault Refusal :=
  unitStep (ring < Config.rings) (s.event (·.frameReturn ring port bytes))

/-- RETURN_TIMEOUT (R150, R154). -/
def execReturnTimeout (ring tag : Nat) (s : State) : Host.Outcome State Fault Refusal :=
  unitStep (ring < Config.rings && tag < Config.tags) (s.event (·.returnTimeout ring tag))

/-- TRAILING_TIMEOUT (R150). -/
def execTrailingTimeout (ring tag : Nat) (s : State) : Host.Outcome State Fault Refusal :=
  unitStep (ring < Config.rings && tag < Config.tags) (s.event (·.trailingTimeout ring tag))

/-- BUSY_BACKOFF (R152). -/
def execBusyBackoff (ring position : Nat) (region : Option Region) (s : State) : Host.Outcome State Fault Refusal :=
  unitStep (ring < Config.rings && 1 ≤ position && position ≤ Config.maxPosition)
    (s.event (·.busyBackoff ring position region))

/-- POLL_TIMER (R156). -/
def execPollTimer (ring position : Nat) (s : State) : Host.Outcome State Fault Refusal :=
  unitStep (ring < Config.rings && 1 ≤ position && position ≤ Config.maxPosition)
    (s.event (·.pollTimer ring position))

/-- JOIN_TIMER (R156). -/
def execJoinTimer (ring position : Nat) (s : State) : Host.Outcome State Fault Refusal :=
  unitStep (ring < Config.rings && 1 ≤ position && position ≤ Config.maxPosition)
    (s.event (·.joinTimer ring position))

/-- RING_CHECK (R158). -/
def execRingCheck (ring : Nat) (s : State) : Host.Outcome State Fault Refusal :=
  unitStep (ring < Config.rings) (s.event (·.ringCheck ring))

/-- TRACE_END (R158, R159). -/
def execTraceEnd (ring : Nat) (s : State) : Host.Outcome State Fault Refusal :=
  unitStep (ring < Config.rings) (s.event (·.traceEnd ring))

end Sys2Proof.Machine
end

