-- ==== Sys2Proof/Machine/OwnCommands.lean ====
section
/-! DEFINITION. The part's own accesses (R179), each performed in its turn. -/

namespace Sys2Proof.Machine

/-- TAKE_WORD_READ (R167). -/
def execTakeWordRead (s : State) : Host.Outcome State Fault Refusal :=
  .next (s.ownTurn .takeWord)

/-- TAKE_READ (R168). -/
def execTakeRead (s : State) : Host.Outcome State Fault Refusal :=
  .next (s.ownTurn .takeRead)

/-- TAKE_RESULT_WRITE (R173). -/
def execTakeResultWrite (s : State) : Host.Outcome State Fault Refusal :=
  .next (s.ownTurn .takeResult)

/-- TEXT_READ (R100). -/
def execTextRead (s : State) : Host.Outcome State Fault Refusal :=
  .next (s.ownTurn .text)

/-- Whether the report class's waiting write belongs to a report entry. -/
def Writer.isEntry : Writer → Bool
  | .entry _ _ => true
  | .idle => false
  | .record _ _ _ => false
  | .serviceBack => false

/-- Whether the report class's waiting write belongs to a status record. -/
def Writer.isRecord : Writer → Bool
  | .record _ _ _ => true
  | .idle => false
  | .entry _ _ => false
  | .serviceBack => false

/-- REPORT_ENTRY_WRITE (R180): performed when the write that waits is an entry's. -/
def execReportEntryWrite (s : State) : Host.Outcome State Fault Refusal :=
  .next (if s.part.disp.rpt.writer.isEntry then s.ownTurn .report else s)

/-- STATUS_RECORD_WRITE (R185): performed when the write that waits is a status record's. -/
def execStatusRecordWrite (s : State) : Host.Outcome State Fault Refusal :=
  .next (if s.part.disp.rpt.writer.isRecord then s.ownTurn .report else s)

/-- SERVICE_WORD_WRITE_BACK (R187): performed when the write that waits is the service word's. -/
def execServiceWordWriteBack (s : State) : Host.Outcome State Fault Refusal :=
  .next (if s.part.disp.rpt.writer = .serviceBack then s.ownTurn .report else s)

end Sys2Proof.Machine
end

