-- ==== Sys2Proof/Machine/Dispatch.lean ====
section
/-! DEFINITION. The meaning of every command: one arm per constructor of `Instr`, each one call of its meaning. -/

namespace Sys2Proof.Machine

def exec (i : Instr) (s : State) : Host.Outcome State Fault Refusal :=
  match i with
  | .resetN anchor passed => Sys2Proof.Machine.execResetN anchor passed s
  | .takeFull data be => Sys2Proof.Machine.execTakeFull data be s
  | .takeParams data be => Sys2Proof.Machine.execTakeParams data be s
  | .takeWordRead => Sys2Proof.Machine.execTakeWordRead s
  | .modified offset data be => Sys2Proof.Machine.execModified offset data be s
  | .takeRead => Sys2Proof.Machine.execTakeRead s
  | .takeResultWrite => Sys2Proof.Machine.execTakeResultWrite s
  | .latchClear channel => Sys2Proof.Machine.execLatchClear channel s
  | .countersClear => Sys2Proof.Machine.execCountersClear s
  | .statisticsClear => Sys2Proof.Machine.execStatisticsClear s
  | .repaint => Sys2Proof.Machine.execRepaint s
  | .hostWrite addr data be => Sys2Proof.Machine.execHostWrite addr data be s
  | .mirrorMerge addr data be => Sys2Proof.Machine.execMirrorMerge addr data be s
  | .carRecord addr data be => Sys2Proof.Machine.execCarRecord addr data be s
  | .assignNew addr data be => Sys2Proof.Machine.execAssignNew addr data be s
  | .assignCancel addr data be => Sys2Proof.Machine.execAssignCancel addr data be s
  | .assignReassign addr data be => Sys2Proof.Machine.execAssignReassign addr data be s
  | .messageDefine addr data be => Sys2Proof.Machine.execMessageDefine addr data be s
  | .messageActivate addr data be => Sys2Proof.Machine.execMessageActivate addr data be s
  | .messageCancel addr data be => Sys2Proof.Machine.execMessageCancel addr data be s
  | .messageClear addr data be => Sys2Proof.Machine.execMessageClear addr data be s
  | .overrideActivate addr data be => Sys2Proof.Machine.execOverrideActivate addr data be s
  | .overrideRelease addr data be => Sys2Proof.Machine.execOverrideRelease addr data be s
  | .textAreaWrite addr data be => Sys2Proof.Machine.execTextAreaWrite addr data be s
  | .textRead => Sys2Proof.Machine.execTextRead s
  | .consume addr be => Sys2Proof.Machine.execConsume addr be s
  | .reportEntryWrite => Sys2Proof.Machine.execReportEntryWrite s
  | .statusRecordWrite => Sys2Proof.Machine.execStatusRecordWrite s
  | .serviceWordWriteBack => Sys2Proof.Machine.execServiceWordWriteBack s
  | .carStale car => Sys2Proof.Machine.execCarStale car s
  | .positionHistoryEmptied car => Sys2Proof.Machine.execPositionHistoryEmptied car s
  | .showDeadline node => Sys2Proof.Machine.execShowDeadline node s
  | .lifetime => Sys2Proof.Machine.execLifetime s
  | .messageExpired id => Sys2Proof.Machine.execMessageExpired id s
  | .dwellDeadline node region => Sys2Proof.Machine.execDwellDeadline node region s
  | .lineAccepted line => Sys2Proof.Machine.execLineAccepted line s
  | .sendFrame ring => Sys2Proof.Machine.execSendFrame ring s
  | .frameReturn ring port bytes => Sys2Proof.Machine.execFrameReturn ring port bytes s
  | .returnTimeout ring tag => Sys2Proof.Machine.execReturnTimeout ring tag s
  | .trailingTimeout ring tag => Sys2Proof.Machine.execTrailingTimeout ring tag s
  | .busyBackoff ring position region => Sys2Proof.Machine.execBusyBackoff ring position region s
  | .pollTimer ring position => Sys2Proof.Machine.execPollTimer ring position s
  | .joinTimer ring position => Sys2Proof.Machine.execJoinTimer ring position s
  | .ringCheck ring => Sys2Proof.Machine.execRingCheck ring s
  | .traceEnd ring => Sys2Proof.Machine.execTraceEnd ring s
  | .lineSampling levels => Sys2Proof.Machine.execLineSampling levels s

end Sys2Proof.Machine
end

