-- ==== Sys2Proof/Machine/Idle.lean ====
section
/-! DEFINITION. What the HN-416 does of itself while no command waits (log entry 1): the own event that is due now, and
the passing of time when none is. -/

namespace Sys2Proof.Machine

/-- The command of an own access the arbiter gives the port (R179). -/
def Part.ownCommand (p : Part) : OwnKind → Instr
  | .takeWord => .takeWordRead
  | .takeRead => .takeRead
  | .takeResult => .takeResultWrite
  | .text => .textRead
  | .report =>
    match p.disp.rpt.writer with
    | .entry _ _ => .reportEntryWrite
    | .record _ _ _ => .statusRecordWrite
    | .serviceBack => .serviceWordWriteBack
    | .idle => .serviceWordWriteBack

/-- The first number below `n` that a test picks, as a command. -/
def firstDue (n : Nat) (due : Nat → Bool) (command : Nat → Instr) : Option Instr :=
  ((List.range n).find? due).map command

/-- The rings' sendings that can be made now (R148). -/
def Part.dueSending (p : Part) : Option Instr :=
  firstDue Config.rings (fun r => (p.disp.ring r).canSend) Instr.sendFrame

/-- A ring's TRACE that ends now (R158). -/
def Part.dueTraceEnd (p : Part) : Option Instr :=
  firstDue Config.rings
    (fun r =>
      match (p.disp.ring r).outstandingTrace with
      | none => false
      | some x => p.traceOver x.2) Instr.traceEnd

/-- A tag of a ring whose time has passed (R150). -/
def Part.dueTag (p : Part) (r : Nat) : Option Instr :=
  (p.disp.ring r).tags.findSome? fun x =>
    if p.returnDue r x.1 then some (.returnTimeout r x.1)
    else if p.trailingDue r x.1 then some (.trailingTimeout r x.1) else none

/-- The held frame of a node whose backoff has passed (R152). -/
def Part.dueBackoff (p : Part) (r position : Nat) (n : LinkNode) : Option Instr :=
  n.flights.findSome? fun f =>
    if (p.backoffDue n f.entry.region).isSome then some (.busyBackoff r position f.entry.region) else none

/-- A node timer that is due (R152, R156). -/
def Part.dueNode (p : Part) (r i : Nat) : Option Instr :=
  match (p.disp.ring r).node (i + 1) with
  | none => none
  | some n =>
    (p.dueBackoff r (i + 1) n).or
      (if p.pollDue n then some (.pollTimer r (i + 1))
      else if p.joinTimerDue n then some (.joinTimer r (i + 1)) else none)

/-- A timer of ring `r` that is due. -/
def Part.dueRing (p : Part) (r : Nat) : Option Instr :=
  ((p.dueTag r).or ((List.range (p.disp.ring r).nodes.length).findSome? (p.dueNode r))).or
    (if p.ringCheckDue (p.disp.ring r) then some (.ringCheck r) else none)

/-- A dwell deadline of node `j` that is due (R117). -/
def Part.dueDwell (p : Part) (j : Nat) : Option Instr :=
  match p.disp.cmp.nodes[j]? with
  | none => none
  | some n =>
    n.regions.findSome? fun x =>
      match x.dwell, x.shown, p.node j with
      | some t, some _, some _ => if p.reached t then some (.dwellDeadline j x.region) else none
      | _, _, _ => none

/-- A timer of TRK, PRM, MSG or CMP that is due (R30, R70, R78, R92, R117). -/
def Part.dueTimer (p : Part) : Option Instr :=
  (((firstDue Config.maxCars p.staleDue Instr.carStale).or
      (firstDue Config.maxCars p.historyDue Instr.positionHistoryEmptied)).or
    ((firstDue Config.maxNodes p.showDeadlineDue Instr.showDeadline).or
      (if p.prm.table.any p.pastLife then some .lifetime else none))).or
    ((firstDue Config.maxMessages p.expiryDue Instr.messageExpired).or
      ((List.range Config.maxNodes).findSome? p.dueDwell))

/-- The part's own event that is due now, in a fixed order; none when time passes (log entry 1). -/
def Part.dueEvent (p : Part) : Option Instr :=
  (((firstDue Config.channels (fun k => (p.channel k).test.isSome) Instr.lineAccepted).or
      (p.path.ownNext.map p.ownCommand)).or
    ((p.dueTraceEnd.or ((List.range Config.rings).findSome? p.dueRing)).or p.dueSending)).or
    (p.dueTimer.or (if p.samplingDue then some (.lineSampling p.lines) else none))

/-- A tenth of a millisecond passes (R162, R166; log entry 1). -/
def Part.tick (p : Part) : Part :=
  if 9 ≤ p.tenth then { p with now := p.now + 1, tenth := 0 } else { p with tenth := p.tenth + 1 }

end Sys2Proof.Machine
end

