-- ==== Sys2Proof/Machine/DisplayNode.lean ====
section
/-! DEFINITION. The display node as far as the part depends on it (R141, R142). The node is not part of the HN-416 and has no
place in `State`: what it sends back reaches the part as the bytes of a FRAME_RETURN. -/

namespace Sys2Proof.Machine

/-- A region a node holds: the version applied, none since power-up, and the payload applied. -/
structure NodeRegion where
  region : Region
  version : Option Byte
  load : List Byte
  deriving DecidableEq, Repr

/-- A display node (R141, R142). `busy` says that it cannot take content at the moment; `wrapping` that it has lost line
activity on one side; `addressed` is the time a frame was last addressed to it. -/
structure DisplayNode where
  position : Nat
  regions : List NodeRegion
  busy : Bool
  restarted : Bool
  lowBrightness : Bool
  wrapping : Bool
  addressed : Time
  deriving DecidableEq, Repr

/-- A node at power-up: RESTARTED is set and no region holds a version (R141). -/
def DisplayNode.powerUp (position : Nat) (regions : List Region) (now : Time) : DisplayNode where
  position := position
  regions := regions.map fun r => { region := r, version := none, load := [] }
  busy := false
  restarted := true
  lowBrightness := false
  wrapping := false
  addressed := now

/-- The region a code of Table 11-12 names. -/
def regionOfCode : Nat → Option Region
  | 1 => some .floor
  | 2 => some .arrow
  | 3 => some .trip
  | 4 => some .prompt
  | 5 => some .line
  | 6 => some .banner
  | _ => none

/-- The frame kind a code of Table 11-12 names. -/
def kindOfCode : Nat → Option FrameKind
  | 1 => some .poll
  | 2 => some .paint
  | 3 => some .alert
  | 4 => some .trace
  | _ => none

/-- Whether the CRC-16 of a frame checks. -/
def crcGood (bytes : List Byte) : Bool :=
  let l := (frameByte bytes 5).toNat
  crcBytes (bytes.take (6 + l)) = [frameByte bytes (6 + l), frameByte bytes (7 + l)]

/-- The payload of a frame. -/
def framePayload (bytes : List Byte) : List Byte := (bytes.drop 6).take (frameByte bytes 5).toNat

/-- The frame with its trailer rewritten, the check anew (R190). -/
def withTrailer (bytes : List Byte) (status flags hops : Byte) : List Byte :=
  bytes.take (8 + (frameByte bytes 5).toNat) ++ [status, flags, hops, trailerCheck status flags hops]

/-- The node's answer to a PAINT or ALERT, and the node after it (R141). The chime count is sounded on application and
is the first byte of the payload. -/
def DisplayNode.paint (n : DisplayNode) (bytes : List Byte) : DisplayNode × Answer :=
  match regionOfCode (frameByte bytes 3).toNat with
  | none => (n, .rejected)
  | some r =>
    match n.regions.find? (·.region = r) with
    | none => (n, .rejected)
    | some x =>
      if n.busy then (n, .busy)
      else if x.version = some (frameByte bytes 4) then (n, .accepted)
      else
        let y : NodeRegion := { x with version := some (frameByte bytes 4), load := framePayload bytes }
        ({ n with regions := n.regions.map (fun z => if z.region = r then y else z), restarted := false }, .accepted)

/-- The chime count the node sounds on a frame: the payload's, when it applies (R141). -/
def DisplayNode.chime (n : DisplayNode) (bytes : List Byte) : Nat :=
  if (n.paint bytes).1 = n then 0 else ((framePayload bytes).headD 0).toNat

/-- The answer to a frame addressed to the node, and the node after it; none when the node does not answer (R141). -/
def DisplayNode.answer (n : DisplayNode) (bytes : List Byte) : Option (DisplayNode × Answer) :=
  match kindOfCode (frameByte bytes 1).toNat with
  | some .poll => some (n, .accepted)
  | some .paint => some (n.paint bytes)
  | some .alert => some (n.paint bytes)
  | some .trace => none
  | none => none

/-- Status bytes of the answers (Table 11-12). -/
def Answer.code : Answer → Byte
  | .empty => 0
  | .accepted => 1
  | .busy => 2
  | .rejected => 3

/-- The flags a node writes into an answer (R141); the wrapped mark of the trailer stays. -/
def DisplayNode.flags (n : DisplayNode) (old : Byte) : Byte :=
  (old &&& 0x80#8) ||| BitVec.ofNat 8 (n.restarted.toNat + 2 * n.lowBrightness.toNat)

/-- A node answers a frame addressed to it whose status is still EMPTY (R141). -/
def DisplayNode.reply (n : DisplayNode) (now : Time) (bytes : List Byte) : DisplayNode × List Byte :=
  let l := (frameByte bytes 5).toNat
  if (frameByte bytes 0).toNat = n.position then
    let heard : DisplayNode := { n with addressed := now }
    if frameByte bytes (8 + l) = 0 then
      match heard.answer bytes with
      | none => (heard, bytes)
      | some (n', a) =>
        (n', withTrailer bytes a.code (n.flags (frameByte bytes (9 + l))) (frameByte bytes (10 + l)))
    else (heard, bytes)
  else (n, bytes)

/-- What a node does with a TRACE (R142): the hop count rises while the wrapped mark is clear, and a node that wraps then
sets the mark. -/
def DisplayNode.trace (n : DisplayNode) (bytes : List Byte) : List Byte :=
  let l := (frameByte bytes 5).toNat
  let flags := frameByte bytes (9 + l)
  let hops := if flags.getLsbD 7 then frameByte bytes (10 + l) else frameByte bytes (10 + l) + 1
  withTrailer bytes (frameByte bytes (8 + l)) (if n.wrapping then flags ||| 0x80#8 else flags) hops

/-- A frame passes a node (R141, R142): a frame whose CRC does not check is passed on unchanged. Whether the node wraps it
is `wrapping`. -/
def DisplayNode.pass (n : DisplayNode) (now : Time) (bytes : List Byte) : DisplayNode × List Byte :=
  if crcGood bytes then
    if kindOfCode (frameByte bytes 1).toNat = some .trace then (n, n.trace bytes) else n.reply now bytes
  else (n, bytes)

/-- Whether the node shows its own fault pattern: nothing was addressed to it for 10 s (R141). -/
def DisplayNode.faultPattern (n : DisplayNode) (now : Time) : Bool := 10000 ≤ (now - n.addressed).toNat

/-- A frame sent on port A of a ring of nodes, position 1 first: the port it returns on and its bytes (R140, R142). A node
that wraps sends it back through the nodes it came by. -/
def travel (now : Time) (seen : List DisplayNode) (bytes : List Byte) :
    List DisplayNode → List DisplayNode × Bool × List Byte
  | [] => (seen, true, bytes)
  | n :: rest =>
    let passed := n.pass now bytes
    if n.wrapping then
      let back := (seen.reverse).foldl
        (fun (acc : List DisplayNode × List Byte) m =>
          ((m.pass now acc.2).1 :: acc.1, (m.pass now acc.2).2)) ([], passed.2)
      (back.1 ++ passed.1 :: rest, false, back.2)
    else travel now (seen ++ [passed.1]) passed.2 rest

end Sys2Proof.Machine
end

