-- ==== Sys2Proof/Safety.lean ====
section
/-! DEFINITION. The terms the statements about the HN-416 use: when a host access is not held, when the part rests, when a host
write takes a record, the sizes of the tables, what a take copy must hold to pass its validation, what a frame carries, the
length of a path, and the laws the spec calls laws of the device. -/

namespace Sys2Proof.Machine

/-! ### The memory port -/

/-- No host access is held: no take result write is due and no own access has been passed over 32 times (R173, R179). -/
def State.portFree (s : State) : Bool := s.part.path.heldFor = none && !s.part.path.waits .takeResult

/-- The rows of the table that are host writes at an address of the host's choice (R164). -/
def busWrites (a : Addr) (data : Word) (be : BitVec 4) : List Instr :=
  [.hostWrite a data be, .mirrorMerge a data be, .carRecord a data be, .assignNew a data be, .assignCancel a data be,
    .assignReassign a data be, .messageDefine a data be, .messageActivate a data be, .messageCancel a data be,
    .messageClear a data be, .overrideActivate a data be, .overrideRelease a data be, .textAreaWrite a data be]

/-- A host write at `a`, not held and outside the anchor block, is the closing-word write of slot `slot` of record window
`k` with a sequence number other than the slot's last taken; the record it takes has the words `words` (R177). -/
structure State.Takes (s : State) (a : Addr) (data : Word) (be : BitVec 4) (k slot : Nat) (words : List Word) : Prop where
  free : s.portFree = true
  outside : s.part.path.inAnchor a.toNat = false
  closing : s.part.path.slotWord a.toNat = some (k, recordSize k * slot + (recordSize k - 1))
  record : (s.part.path.mergeMirror k (recordSize k * slot + (recordSize k - 1)) data be).slotWords k slot = words
  fresh : sequenceOf (words.getD (recordSize k - 1) 0) ≠ s.part.path.lastTaken k slot

/-- Memory after the host accesses of a run, of which the writes alone change it (R164). -/
def memoryAfter (m : List Host.Cell) (passed : List HostAccess) : List Host.Cell :=
  passed.foldl
    (fun m x =>
      match x with
      | .write a data be => writeWord m a data be
      | .read _ _ => m) m

/-! ### Rest -/

/-- The job at the head of TXF's list has been checked and its read is outstanding (R97, R98). -/
def Txf.headReading (t : Txf) : Bool :=
  match t.jobs with
  | [] => true
  | j :: _ => j.phase ≠ .waiting && t.read.isSome

/-- Every own access its requester wants waits in the queue (R97, R167, R168, R173, R179, R185). -/
def Part.accessesWait (p : Part) : Bool :=
  (!p.path.takeWordRead || p.path.waits .takeWord) && (!p.path.takeReads || p.path.waits .takeRead)
    && (!p.path.resultDue || p.path.waits .takeResult) && (p.disp.rpt.writer = .idle || p.path.waits .report)
    && (!p.txf.read.isSome || p.path.waits .text)

/-- The part rests: TXF's head job is checked and reading, RPT has made its choice, and every own access its requester
wants has joined the queue (R97, R98, R179, R185). -/
def Part.atRest (p : Part) : Prop :=
  p.txf.headReading = true ∧ p.disp.rpt.choose = p.disp.rpt ∧ p.accessesWait = true

/-! ### Sizes (Table 1-1) -/

/-- Every table of fixed length has the length the spec gives it. -/
def Part.shaped (p : Part) : Bool :=
  (p.trk.length = Config.maxCars && p.trk.all fun x => x.decks.length = 2)
    && (p.geo.cars.length = Config.maxCars && p.nodes.length = Config.maxNodes)
    && (p.arr.withdrawn.length = Config.maxCars && p.prm.withdrawn.length = Config.maxCars)
    && (p.prm.dropReported.length = Config.channels && p.ovr.length = Config.channels)
    && (p.msg.length = Config.maxMessages && p.trg.length = Config.maxTriggers)
    && (p.disp.cmp.nodes.length = Config.maxNodes && p.disp.lnk.length = Config.rings)
    && (p.disp.rpt.slots.length = Config.reportSlots && p.disp.rpt.records.length = Config.statusRecords)
    && p.disp.rpt.counters.length = 16

/-- No table of variable length exceeds Table 1-1: 160 floors, 32 nodes of a ring, 256 live assignments (R2, R61, R140). -/
def Part.bounded (p : Part) : Bool :=
  p.geo.floors.length ≤ Config.maxFloors && p.prm.table.length ≤ Config.maxAssignments
    && p.disp.lnk.all fun r => r.nodes.length ≤ Config.maxPosition

/-! ### Configurations that pass validation (R3, R6, R9, R104, R130, R170 to R172) -/

/-- Two runs of words share none. -/
def apart (base1 length1 base2 length2 : Nat) : Prop := base1 + length1 ≤ base2 ∨ base2 + length2 ≤ base1

/-- The windows of a copy are long enough, inside the address space, and apart from each other and from the anchor block;
the report area is present (R170, Table 9-1). -/
def windowsPass (anchor : Nat) (w : Nat → Word) : Prop :=
  (readWindow w 4).present = true
    ∧ ∀ i < 8, (readWindow w i).present = true →
      [512, 1024, 512, 8, 2048, 1, 1, 1].getD i 0 ≤ (readWindow w i).length
        ∧ (readWindow w i).base + (readWindow w i).length ≤ 16777216
        ∧ apart (readWindow w i).base (readWindow w i).length anchor 4096
        ∧ ∀ k < i, (readWindow w k).present = true →
          apart (readWindow w i).base (readWindow w i).length (readWindow w k).base (readWindow w k).length

/-- A label or text of permitted codes (R4). -/
def permitted (text : List Byte) : Prop := ∀ b ∈ text, thirdClass b = false

/-- At least two floors; every label has 1 to 4 permitted codes; the first level is 0 and each further one lies 2,000 mm or
more above the one below (R3). -/
def floorsPass (w : Nat → Word) : Prop :=
  2 ≤ floorCount w
    ∧ ∀ k < floorCount w, (readFloor w k).label ≠ [] ∧ permitted (readFloor w k).label
      ∧ (if k = 0 then (readFloor w k).level = 0 else (readFloor w (k - 1)).level + 2000 ≤ (readFloor w k).level)

/-- A served set is not empty and names landings alone, for an upper deck none below the spacing (R9). -/
def servedPass (w : Nat → Word) (served : List Nat) (lowest : Nat) : Prop :=
  served ≠ [] ∧ ∀ k ∈ served, k < floorCount w ∧ (readFloor w k).landing = true ∧ lowest ≤ (readFloor w k).level

/-- The values of a configured car lie in their ranges (R6). -/
def carPasses (w : Nat → Word) (c : Nat) : Prop :=
  (500 ≤ (readCar w c).vRated ∧ (readCar w c).vRated ≤ 16000) ∧ (30 ≤ (readCar w c).zone ∧ (readCar w c).zone ≤ 900)
    ∧ field (carWord w c 0) 16 3 < 4 ∧ ((readCar w c).decks = 1 ∨ (readCar w c).decks = 2)
    ∧ ((readCar w c).decks = 2 → 2000 ≤ (readCar w c).spacing ∧ (readCar w c).spacing ≤ 8000)
    ∧ (readCar w c).label ≠ [] ∧ permitted (readCar w c).label ∧ permitted (readCar w c).express
    ∧ servedPass w (readCar w c).served0 0
    ∧ ((readCar w c).decks = 2 → servedPass w (readCar w c).served1 (readCar w c).spacing)

/-- A node table entry in use: its type, ring, position, binding and bearings; no entry of lower index has its ring and
position (R171). -/
def nodePasses (w : Nat → Word) (j : Nat) : Prop :=
  ∃ n, readNode w j = some n ∧ n.ring < 6 ∧ 1 ≤ n.position ∧ n.position ≤ 32
    ∧ (n.type = .carPanel ∨ n.type = .hallLantern →
        n.car < 32 ∧ carConfigured w n.car = true ∧ n.deck < (readCar w n.car).decks)
    ∧ (n.type ≠ .carPanel → n.floor < floorCount w)
    ∧ (n.type = .terminal → ∀ b ∈ n.bearings, b = 0 ∨ (6 ≤ b ∧ b ≤ 9))
    ∧ ∀ k < j, nodeTypeCode w k ≠ 0 → ¬(nodeRing w k = n.ring ∧ nodePosition w k = n.position)

/-- An in-use trigger entry (R104). -/
def triggerPasses (w : Nat → Word) (t : Nat) : Prop :=
  (field (triggerWord w t 0) 0 8 < 32 ∧ carConfigured w (field (triggerWord w t 0) 0 8) = true)
    ∧ field (triggerWord w t 0) 8 4 ≤ 14 ∧ triggerWord w t 2 ≠ 0 ∧ field (triggerWord w t 0) 12 2 ≤ 1
    ∧ field (triggerWord w t 0) 16 3 ≤ 3 ∧ field (triggerWord w t 0) 20 3 ≤ 2
    ∧ (field (triggerWord w t 0) 20 3 ≠ 2 → field (triggerWord w t 1) 0 8 < 128)
    ∧ ¬(field (triggerWord w t 0) 16 3 = 0 ∧ field (triggerWord w t 0) 20 3 = 2)

/-- An override channel entry (R130). -/
def channelPasses (w : Nat → Word) (n : Nat) : Prop :=
  field (channelWord w n 0) 16 2 ≤ 1 ∧ field (channelWord w n 0) 18 2 ≤ 1
    ∧ ∀ lo hi, readRange (channelWord w n 1) = some (lo, hi) → lo ≤ hi ∧ hi < floorCount w

/-- The parameters lie in their ranges (R172, Table 9-2). -/
def paramsPass (w : Nat → Word) : Prop :=
  ∀ i < 31,
    ([200, 200, 0, 0, 20, 2000, 0, 0, 0, 0, 2000, 1000, 30, 2000, 1000, 1000, 100, 2, 2, 2, 2, 2, 2, 0, 0, 0, 0, 0, 0,
        1, 0].getD i 0 ≤ readParam w i)
      ∧ readParam w i ≤
        [5000, 2000, 3000, 10000, 500, 30000, 10000, 10000, 9, 10, 15000, 15000, 600, 20000, 8000, 60000, 5000, 50, 50,
          50, 50, 50, 50, 7, 7, 7, 7, 7, 7, 100, 3].getD i 0

/-- The header (R170). -/
def headerPasses (w : Nat → Word) : Prop := w 0x000 = 0x484E0416#32 ∧ w 0x001 = 1#32

/-- What the copy of a TAKE_FULL must hold to pass (R170). -/
structure Acceptable (anchor : Nat) (w : Nat → Word) : Prop where
  header : headerPasses w
  windows : windowsPass anchor w
  floors : floorsPass w
  firstCar : carConfigured w 0 = true
  cars : ∀ c < 32, carConfigured w c = true → carPasses w c
  nodes : ∀ j < 192, nodeTypeCode w j ≠ 0 → nodePasses w j
  rings : ∀ r < 6, ringPositions w r ≠ [] →
    1 ≤ readRingWindow w r ∧ readRingWindow w r ≤ 4 ∧ ∀ q ∈ ringPositions w r, q ≤ (ringPositions w r).length
  triggers : ∀ t < 32, triggerInUse w t = true → triggerPasses w t
  channels : ∀ n < 4, channelPasses w n
  params : paramsPass w

/-! ### Paths and frames -/

/-- The length of the path through a list of levels (R45). -/
def pathLength : List Nat → Nat
  | [] => 0
  | [_] => 0
  | a :: b :: rest => distance a b + pathLength (b :: rest)

/-- The link address the arbiter's choice is sent to: a TRACE has none (R143, R148). -/
def Choice.position : Choice → Nat
  | .trace => 0
  | .alert position _ => position
  | .served position _ => position
  | .join position => position

/-- The entry the arbiter's choice sends (R148). -/
def Choice.entry : Choice → QueueEntry
  | .trace => traceEntry
  | .alert _ e => e
  | .served _ e => e
  | .join _ => pollEntry

/-- A node that has failed once more than `retries` allows (R155). -/
def LinkNode.lostAt (n : LinkNode) (now : Time) : LinkNode :=
  { n with
    state := .lost, queue := [], flights := [], retry := 0, restartPending := false, joinFrom := now, joinDue := false }

/-! ### The report ring (R180, R181, R183) -/

/-- The law of the report ring: ATTN_N tells of unread entries, at most 8 reports wait, and the slot the writer is writing
or about to write is WRITING or FREE, never UNCONSUMED. -/
def Rpt.ringLaw (r : Rpt) : Prop :=
  r.slots.length = Config.reportSlots ∧ r.producer < Config.reportSlots ∧ r.waiting.length ≤ Config.reportQueueLimit
    ∧ r.attention = r.slots.any (· = .unconsumed)
    ∧ match r.writer with
      | .entry _ none => r.slots[r.producer]? = some .free ∧ r.waiting ≠ []
      | .entry _ (some _) => r.slots[r.producer]? = some .writing
      | .record _ _ _ => True
      | .serviceBack => True
      | .idle => True

/-- A report can be written: one waits and the slot at the producer position is FREE (R181). -/
def Rpt.reportReady (r : Rpt) : Prop := r.waiting ≠ [] ∧ r.slots[r.producer]? = some .free

/-- No record of the status table is pending (R185). -/
def Rpt.noRecordPending (r : Rpt) : Prop := ∀ i < Config.statusRecords, ∀ x, r.records[i]? = some x → x.pending = false

/-- Record `i`, with shadow `x`, is the first pending one in table order after record `last`, wrapping (R185). -/
def Rpt.nextPending (r : Rpt) (last i : Nat) (x : StatusRecord) : Prop :=
  ∃ k < Config.statusRecords, i = (last + 1 + k) % Config.statusRecords ∧ r.records[i]? = some x ∧ x.pending = true
    ∧ ∀ k' < k, ∀ y, r.records[(last + 1 + k') % Config.statusRecords]? = some y → y.pending = false

/-- A status change was handed (R185): the record's shadow carries these fields, and the record is pending or its words, taken
from that shadow when the writer chose it (the model's moment, log entry 19), are about to be written. -/
def Rpt.handed (r : Rpt) (i : Nat) (fields : List Word) : Prop :=
  ∃ x, r.records[i]? = some x ∧ x.fields = fields
    ∧ (x.pending = true ∨ r.writer = .record i 0 (place 0 x.count.toNat :: x.fields ++ [place 0 x.count.toNat]))

/-- The car's status record after a command from `s` to `t` (R38): a change of its motion, speed, service mode, accepted floors
or indication states was handed with the values as they then stand; without one its fields are as before. -/
def Part.carRecorded (s t : Part) (c : Nat) : Prop :=
  (carStatus true (t.car c) ≠ carStatus true (s.car c) → t.disp.rpt.handed (carRecordIndex c) (carStatus true (t.car c)))
    ∧ (carStatus true (t.car c) = carStatus true (s.car c) →
        (t.disp.rpt.records[carRecordIndex c]?).map (·.fields) = (s.disp.rpt.records[carRecordIndex c]?).map (·.fields))

/-! ### Links (R147) -/

/-- The law of the window: at most W + 1 frames outstanding to a node, and an ALERT among them when there are W + 1. -/
def Ring.windowLaw (r : Ring) : Prop :=
  ∀ n ∈ r.nodes,
    n.flights.length ≤ r.window + 1
      ∧ (1 ≤ r.window → n.flights.length = r.window + 1 → ∃ f ∈ n.flights, f.entry.kind = .alert)

/-- The law of the window on every ring. -/
def Disp.windowLaw (d : Disp) : Prop := ∀ r ∈ d.lnk, r.windowLaw

/-! ### Triggers (R108) -/

/-- The law of HELD triggers: a trigger is HELD only as an edge trigger that activates a message, and only while that
message is ACTIVE. -/
def Part.heldLaw (p : Part) : Prop :=
  ∀ t ∈ p.trg,
    match t with
    | none => True
    | some x =>
      x.held = true →
        x.edge ≠ .level ∧
          match x.action with
          | .activate m => (p.message m).state = .active
          | .cancel _ => False
          | .report => False

/-! ### Assignments (R63, R66, R75) -/

/-- No assignment of a withdrawn car is live, PRM's withdrawn marks agreeing with the cars' service modes (R35, R75). -/
def Part.withdrawnLaw (p : Part) : Prop :=
  p.trk.length = Config.maxCars ∧ p.prm.withdrawn.length = Config.maxCars
    ∧ (∀ c < Config.maxCars, p.prm.withdrawn.getD c false = (p.car c).mode.withdrawn)
    ∧ ∀ a ∈ p.prm.table, (p.car a.car).mode = .normal

/-- No live assignment has a terminal in the scope of a channel that is ACTIVE or LATCHED (R62, R63, R79). -/
def Part.scopeLaw (p : Part) : Prop :=
  ∀ a ∈ p.prm.table, (p.terminalNode a.terminal).any (fun n => p.governing n = none) = true

/-- The law of one terminal queue (R66): at most 4 references, none twice; they are exactly the live assignments of the
terminal that are QUEUED or SHOWING; the SHOWING one is the head, and a queue that is not empty has one. -/
def Part.queueOrdered (p : Part) (q : PromptQueue) : Prop :=
  q.refs.length ≤ Config.queueLimit ∧ q.refs.Nodup
    ∧ (∀ a ∈ p.prm.table, a.terminal = q.terminal → (a.prompt ≠ .none ↔ a.number ∈ q.refs))
    ∧ (∀ n ∈ q.refs, ∃ a ∈ p.prm.table, a.number = n ∧ a.terminal = q.terminal)
    ∧ (∀ a ∈ p.prm.table, a.terminal = q.terminal → (a.prompt = .showing ↔ q.refs.head? = some a.number))

/-- The law of the terminal queues (R61, R66): numbers are unique, every TERMINAL has one queue, every live assignment
belongs to one, and each queue keeps its law. -/
def Part.queueLaw (p : Part) : Prop :=
  (p.prm.table.map (·.number)).Nodup ∧ (p.prm.queues.map (·.terminal)).Nodup
    ∧ (∀ j < p.nodes.length, (p.terminalNode j).isSome = true → j ∈ p.prm.queues.map (·.terminal))
    ∧ (∀ a ∈ p.prm.table, a.terminal ∈ p.prm.queues.map (·.terminal))
    ∧ ∀ q ∈ p.prm.queues, p.queueOrdered q

/-- The order of two references behind the head of a queue: step-free entries first, each group in ascending take order
(R66). -/
def Assignment.ahead (x y : Assignment) : Bool :=
  (x.stepFree && !y.stepFree) || (x.stepFree = y.stepFree && x.order < y.order)

/-- The order of the terminal queues (R66): behind the head, the step-free references and then the others, each group in ascending
take order; every live entry was taken before the next NEW (Table 4-1). -/
def Part.queueOrder (p : Part) : Prop :=
  (∀ a ∈ p.prm.table, a.order < p.prm.nextOrder)
    ∧ ∀ q ∈ p.prm.queues, ((q.refs.drop 1).filterMap p.assignment).Pairwise fun x y => x.ahead y = true

/-- What an assignment record and the tracking events set of an assignment: everything but its place in the prompt queue
and its estimate. -/
def Assignment.core (a : Assignment) : Assignment := { a with prompt := .none, deadline := none, estimate := none }

/-- What the activation of channel `k` in a command from `s` to `t` does to the table and to the waiting reports (R79, R133): the
live entries of the terminals in scope leave, reported when there was one, and OVERRIDE_ON names the sources asserted. A
channel that does not leave OFF does neither. -/
def Part.activation (s t : Part) (x : List Assignment × Rpt) (k : Nat) : List Assignment × Rpt :=
  if (s.channel k).latch = false ∧ (t.channel k).latch = true then
    (x.1.filter (fun a => !s.inFlush k a),
      ((if x.1.countP (s.inFlush k) = 0 then x.2
        else x.2.hand s.now (repRetiredOverride k (x.1.countP (s.inFlush k)))).hand s.now
          (repOverrideOn k (t.channel k).accepted (t.channel k).memory)))
  else x

/-- Region `r` of node `j` stands as its sources give it (R116, R122): its record holds the content and the source that composing it
would give, and a message region shows a member of its rotation list at the list's level, with a dwell deadline, or, when the list
is empty, nothing (Table 6-3). -/
def Part.composedAt (p : Part) (j : Nat) (n : NodeConfig) (r : Region) : Prop :=
  ∃ x, p.disp.cmp.region j r = some x
    ∧ x.content = (composed p j n r x.shown).1.1 ∧ x.source = (composed p j n r x.shown).2
    ∧ (isMessageRegion r = true →
        (x.shown = none ↔ rotationList p n r = []) ∧ (∀ m, x.shown = some m → m ∈ rotationList p n r)
          ∧ x.level = x.shown.map (fun _ => topLevel p (rotationList p n r)) ∧ x.dwell.isSome = x.shown.isSome)

/-- The law of composition (R110, R119): every region of every node has a record and stands as its sources give it. The binding of a
car panel or lantern to a deck that exists is the take's check (R9). -/
def Part.compositionLaw (p : Part) : Prop :=
  ∀ j n, p.node j = some n → (n.type = .carPanel ∨ n.type = .hallLantern → p.isDeck n.car n.deck = true) →
    ∀ r ∈ n.regions, p.composedAt j n r

/-- What a change notice of deck `d` of car `c` recomposes stands composed in `t` (R37, Table 6-4): every region of its car panels
and the floor indicators of its lanterns. -/
def Part.deckShown (s t : Part) (c d : Nat) : Prop :=
  ∀ j n r x, s.node j = some n → n.car = c → n.deck = d → r ∈ n.regions →
    (n.type = .carPanel ∨ (n.type = .hallLantern ∧ r = .floor)) → s.disp.cmp.region j r = some x → t.composedAt j n r

/-- A lantern of car `c` as the visits, arrivals, departures and the withdrawal of an evaluation leave it before the evaluation
notice, `s` standing before the evaluation and `t` after it (R50, R54, R55). -/
def Part.lanternMet (s t : Part) (c : Nat) (l : Lantern) : Lantern :=
  if l.car = c then
    let was : Bool := (s.deck c l.deck).visit = some l.floor && (s.deck c l.deck).opened
    let stays : Bool := (t.deck c l.deck).visit = some l.floor
    let l1 : Lantern :=
      if was && !stays then
        if l.state = .dark then { l with hold := true } else { l with hold := true, state := .dark, shown := .none }
      else if stays && (t.deck c l.deck).opened && !was then
        if l.state = .lit then { l with hold := false }
        else if l.state = .announce then { l with hold := false, state := .lit }
        else if t.nextStop c l.deck = some l.floor ∧ s.arrWithdrawn c = false then
          { l with hold := false, state := .lit, shown := (t.car c).departure }
        else { l with hold := false }
      else l
    if (s.car c).mode = .normal ∧ (t.car c).mode ≠ .normal ∧ l.deck < 2 then
      if l1.state = .dark then { l1 with estimate := .none }
      else { l1 with estimate := .none, state := .dark, shown := .none }
    else l1
  else l

/-- The held values of the prompts after an evaluation notice for car `c` in a command from `s` to `t` (R48, R49): a prompt of the
car holds what its new estimate makes of the value it held, and every other prompt keeps its own. -/
def Part.promptsHeld (s t : Part) (c : Nat) : Prop :=
  ∀ number a, t.assignment number = some a →
    ∃ old, s.assignment number = some old
      ∧ a.estimate =
        (if a.car = c ∧ a.prompt ≠ .none then
          some (holdValue s.params.etaUpHystS old.estimate (t.estimate a.car a.deck a.boarding).1)
        else old.estimate)

/-- The hand-ons of the channels that leave OFF in a command from `s` to `t`, channel 0 first (R79, R122, R133): flush and reports as
`Part.activation` says, the drop-reported marks cleared, and every region of every node recomposed under the channels as they then
stand. When no channel leaves OFF, assignments, regions and link engines are as before. -/
def Part.activations (s t : Part) : Prop :=
  t.prm.table.map (·.core) = ((List.range Config.channels).foldl (s.activation t) (s.prm.table, s.disp.rpt)).1.map (·.core)
    ∧ t.disp.rpt.waiting = ((List.range Config.channels).foldl (s.activation t) (s.prm.table, s.disp.rpt)).2.waiting
    ∧ (∀ k < Config.channels, t.prm.dropReported.getD k false =
        (s.prm.dropReported.getD k false && ((s.channel k).latch || !(t.channel k).latch)))
    ∧ ((∃ k < Config.channels, (s.channel k).latch = false ∧ (t.channel k).latch = true) →
        ∀ j n r x, s.node j = some n → r ∈ n.regions → s.disp.cmp.region j r = some x → t.composedAt j n r)
    ∧ ((∀ k < Config.channels, (s.channel k).latch = (t.channel k).latch) →
        t.prm = s.prm ∧ t.disp.cmp = s.disp.cmp ∧ t.disp.lnk = s.disp.lnk)

/-! ### The transmitter arbiter (R147, R148) -/

/-- A queue entry may be sent to its node (R147): no frame of its region is outstanding, and the outstanding count leaves room for
its kind. -/
def LinkNode.maySend (n : LinkNode) (window : Nat) (e : QueueEntry) : Prop :=
  (∀ f ∈ n.flights, f.entry.region ≠ e.region)
    ∧ ((e.kind = .paint ∧ n.flights.length < window) ∨ (e.kind = .alert ∧ n.flights.length < window + 1)
        ∨ (e.kind = .poll ∧ n.flights = []))

/-- A node has nothing to send (R148, step 3): no eligible entry while it is ACTIVE or SUSPECT, no due join POLL while it is ABSENT
or LOST. -/
def LinkNode.silent (n : LinkNode) (window : Nat) : Prop :=
  if n.state.joined then ∀ e ∈ n.queue, ¬ n.maySend window e else n.joinDue = false ∨ n.flights ≠ []

/-- No node that a ring's positions below `limit` hold has an eligible ALERT (R148, step 1). -/
def Ring.noAlertBelow (r : Ring) (limit : Nat) : Prop :=
  ∀ q n, q < limit → r.node q = some n → n.state.joined = true → ∀ e ∈ n.queue, e.kind = .alert → ¬ n.maySend r.window e

/-- A position is the first, from the one after the last served, upward and wrapping after N, whose node has something to send
(R148, step 3). -/
def Ring.nextServed (r : Ring) (q : Nat) : Prop :=
  ∃ i < r.nodes.length, q = (r.lastServed + i) % r.nodes.length + 1
    ∧ (∀ n, r.node q = some n → ¬ n.silent r.window)
    ∧ ∀ k < i, ∀ n, r.node ((r.lastServed + k) % r.nodes.length + 1) = some n → n.silent r.window

/-- The order of the arbiter on a CLOSED or BROKEN ring (R148): an eligible ALERT, of the lowest position that has one and nearest
the head of its queue; else a due TRACE; else, from the position after the last served, upward and wrapping, the first node that has
something to send, its eligible entry nearest the head of its queue or its join POLL. -/
def Ring.inTurn (r : Ring) (c : Choice) : Prop :=
  match c with
  | .alert q e =>
    r.noAlertBelow q
      ∧ ∀ n, r.node q = some n → ∃ front back, n.queue = front ++ e :: back
          ∧ ∀ x ∈ front, x.kind = .alert → ¬ n.maySend r.window x
  | .trace => r.noAlertBelow (r.nodes.length + 1)
  | .served q e =>
    r.noAlertBelow (r.nodes.length + 1) ∧ (r.traceDue = false ∨ r.tracing = true) ∧ r.nextServed q
      ∧ ∀ n, r.node q = some n → ∃ front back, n.queue = front ++ e :: back ∧ ∀ x ∈ front, ¬ n.maySend r.window x
  | .join q => r.noAlertBelow (r.nodes.length + 1) ∧ (r.traceDue = false ∨ r.tracing = true) ∧ r.nextServed q

/-! ### Sameness -/

/-- The configuration is the same: parameters, geometry image, node table, watch map, straps. -/
def Part.sameConfig (p q : Part) : Prop :=
  p.params = q.params ∧ p.geo = q.geo ∧ p.nodes = q.nodes ∧ p.path.watch = q.path.watch ∧ p.path.anchor = q.path.anchor

/-- The time base and the pins are the same. -/
def Part.sameClock (p q : Part) : Prop :=
  p.now = q.now ∧ p.tenth = q.tenth ∧ p.sampledAt = q.sampledAt ∧ p.lines = q.lines ∧ p.hostData = q.hostData

/-- Tracking, arrivals and assignments are the same. -/
def Part.sameTraffic (p q : Part) : Prop := p.trk = q.trk ∧ p.arr = q.arr ∧ p.prm = q.prm

/-- Messages, fetch jobs, triggers and override channels are the same. -/
def Part.sameTexts (p q : Part) : Prop := p.msg = q.msg ∧ p.txf = q.txf ∧ p.trg = q.trg ∧ p.ovr = q.ovr

/-- Region records and link engines are the same. -/
def Part.sameLinks (p q : Part) : Prop := p.disp.cmp = q.disp.cmp ∧ p.disp.lnk = q.disp.lnk

end Sys2Proof.Machine
end

