-- ==== Sys2Proof/Certificates/Slice0/Obligations.lean ====
section
/-! DEFINITION. The statements about the HN-416 for the provers. A statement that an access or an event completes names the
state it leaves; `State.portFree` says that no host access is held, `Part.atRest` that the part rests, and `StepKeepsRest`
and `ResetKeepsLaws` say that every run from reset stays at rest between steps. An own access is in its turn when
`Path.ownNext` names it (R179; which one that is while the hold is in force and no host access waits is log entry 28). -/

open Sys2Proof Sys2Proof.Machine

/-! ### Steps, reset and whole-machine laws -/

/-- A step takes the command at the front of the queue and executes it with the queue's rest (the block's queue, FIFO: the model's own
form, log entry 1). -/
def Obligations.StepTakesFront : Prop :=
  ∀ (c : Instr) (s : State), step { s with pending := c :: s.pending } = exec c s

/-- RESET_N (R164, R166): the host accesses performed while the line was asserted pass through, the writes reaching memory in
their order and a read returning its content, and every block takes its state after RESET_N. The values the spec gives: the
path UNCONFIGURED with no watch map, mirror, take or known take word, nothing waiting and the straps read (R165, R166, R167), the parameter
defaults (R172), no floors and no configured car (R1), no lantern states and no withdrawn car, no assignments and no queues
(R61), EMPTY messages (R87), no fetch job, watched range or text read, no triggers (R104), no region records, channels OFF
(R131), UNKNOWN decks (R29), no report area, nothing waiting and nothing written, ATTN_N released (R183), counters 0 (R186), UNTESTED
rings with cleared statistics (R157, R162), the millisecond counter 0 (R166). That the slots are FREE before the first TAKE_FULL is
the model's choice (log entry 20: Table 10-3 gives no slot state); so is that the data lines keep the word of the last host read
when no read passes (log entry 9). -/
def Obligations.ResetCompletes : Prop :=
  ∀ (anchor : BitVec 4) (passed : List HostAccess) (s : State),
    ∃ t, exec (.resetN anchor passed) s = .next t ∧ t.pending = s.pending
      ∧ t.mem = memoryAfter s.mem passed
      ∧ (∀ k, (∀ a data be, .write a data be ∈ passed → k / 4 ≠ a.toNat) → readByte t.mem k = readByte s.mem k)
      ∧ (∀ before rest a be, passed = before ++ .read a be :: rest → (∀ a' be', .read a' be' ∉ rest) →
          t.part.hostData = readWord (memoryAfter s.mem before) a)
      ∧ ((∀ a be, .read a be ∉ passed) → t.part.hostData = s.part.hostData)
      ∧ t.part.path.state = .unconfigured ∧ t.part.path.own = [] ∧ t.part.path.anchor = anchor ∧ t.part.now = 0
      ∧ t.part.path.watch = [] ∧ (∀ k, t.part.path.mirror.getD k [] = []) ∧ (∀ k, t.part.path.lastSeq.getD k [] = [])
      ∧ t.part.path.takeWord = none ∧ t.part.path.takeWordRead = false ∧ t.part.path.take = none
      ∧ t.part.params = Params.defaults
      ∧ t.part.geo.floors = [] ∧ (∀ c, t.part.carConfig c = none) ∧ (∀ j, t.part.node j = none)
      ∧ t.part.arr.lanterns = [] ∧ (∀ c, t.part.arrWithdrawn c = false)
      ∧ t.part.prm.table = [] ∧ t.part.prm.queues = [] ∧ (∀ c, t.part.prm.withdrawn.getD c false = false)
      ∧ (∀ k, t.part.prm.dropReported.getD k false = false)
      ∧ (∀ m, (t.part.message m).state = .empty) ∧ (∀ k, (t.part.channel k).state = .off)
      ∧ t.part.txf.jobs = [] ∧ t.part.txf.ready = [] ∧ t.part.txf.read = none ∧ (∀ i : Nat, (t.part.trg[i]?).join = none)
      ∧ (∀ j r, t.part.disp.cmp.region j r = none) ∧ (∀ j, t.part.disp.cmp.reachable j = false)
      ∧ (∀ c d, (t.part.deck c d).state = .unknown)
      ∧ t.part.disp.rpt.area = none ∧ t.part.disp.rpt.waiting = [] ∧ t.part.disp.rpt.writer = .idle
      ∧ t.part.disp.rpt.lastWrite = .none ∧ t.part.disp.rpt.lastRecord = none
      ∧ (∀ i < Config.reportSlots, t.part.disp.rpt.slots[i]? = some .free) ∧ t.part.disp.rpt.attention = false
      ∧ (∀ c, t.part.disp.rpt.counter c = 0)
      ∧ ∀ r, (t.part.disp.ring r).state = .untested ∧ (t.part.disp.ring r).stats = Statistics.cleared

/-- The laws that every step keeps hold after reset. -/
def Obligations.ResetKeepsLaws : Prop :=
  memoryWf State.reset.mem = true ∧ State.reset.part.shaped = true ∧ State.reset.part.bounded = true
    ∧ State.reset.part.atRest
    ∧ State.reset.part.disp.rpt.ringLaw ∧ State.reset.part.disp.windowLaw ∧ State.reset.part.heldLaw
    ∧ State.reset.part.withdrawnLaw ∧ State.reset.part.scopeLaw ∧ State.reset.part.queueLaw
    ∧ State.reset.part.queueOrder ∧ State.reset.part.compositionLaw

/-- Every step keeps memory in its canonical form (the model's own form of memory, log entry 2). -/
def Obligations.StepKeepsMemoryForm : Prop :=
  ∀ s t : State, memoryWf s.mem = true → step s = .next t → memoryWf t.mem = true

/-- Every step keeps every table of fixed length at the length Table 1-1 gives it, and no table of variable length grows past
Table 1-1: 160 floors (R2), 32 nodes of a ring (R140), 256 live assignments (R61). That a table in use has 2 floors or more is
a check of the take (R3). -/
def Obligations.StepKeepsSizes : Prop :=
  (∀ s t : State, s.part.shaped = true → step s = .next t → t.part.shaped = true)
    ∧ ∀ s t : State, s.part.bounded = true → step s = .next t → t.part.bounded = true

/-- Every step leaves the part at rest: a job that becomes head is checked at once and reads (R97, R98), the report
writer chooses whenever its last sequence has ended (R185), and every own access that is wanted waits (R179). The moment of it, the
end of each step, is the model's choice (log entries 6 and 19). -/
def Obligations.StepKeepsRest : Prop :=
  ∀ s t : State, s.part.atRest → step s = .next t → t.part.atRest

/-- The law of the report ring (R180, R181, R183): the report writer never writes a slot whose previous entry is
unconsumed, at most 8 reports wait, and ATTN_N is asserted exactly while some slot is UNCONSUMED. -/
def Obligations.StepKeepsReportRing : Prop :=
  ∀ s t : State, s.part.disp.rpt.ringLaw → step s = .next t → t.part.disp.rpt.ringLaw

/-- The law of the link window (R147): the frames outstanding to a node never exceed W + 1, and when there are W + 1
at least one is an ALERT. -/
def Obligations.StepKeepsWindow : Prop :=
  ∀ s t : State, s.part.disp.windowLaw → step s = .next t → t.part.disp.windowLaw

/-- The law of HELD triggers (R108): a trigger is HELD only while its target message entry is ACTIVE, and LEVEL triggers
are never HELD. -/
def Obligations.StepKeepsHeld : Prop :=
  ∀ s t : State, s.part.heldLaw → step s = .next t → t.part.heldLaw

/-- The law of R75: no assignment of a withdrawn car is live. -/
def Obligations.StepKeepsWithdrawn : Prop :=
  ∀ s t : State, s.part.withdrawnLaw → step s = .next t → t.part.withdrawnLaw

/-- The law of R62, R63 and R79: no live assignment has a terminal inside the scope of a channel that is ACTIVE or
LATCHED. -/
def Obligations.StepKeepsScope : Prop :=
  ∀ s t : State, s.part.scopeLaw → step s = .next t → t.part.scopeLaw

/-- The law of the terminal queues (R66): at most 4 references, exactly the QUEUED and SHOWING assignments of the terminal,
each once, the one SHOWING at the head; behind the head the step-free references, then the others, each group in ascending
take order. -/
def Obligations.StepKeepsQueues : Prop :=
  (∀ s t : State, s.part.queueLaw → step s = .next t → t.part.queueLaw)
    ∧ ∀ s t : State, s.part.queueLaw → s.part.queueOrder → step s = .next t → t.part.queueOrder

/-- The law of composition (R37, R71, R81, R94, R100, R116 to R119, R122, R135): after every step, every region of every node
has the content and the source its sources then give, and a message region shows a member of its rotation list at the list's
level, or nothing when the list is empty. So every input of Table 6-4 is dealt with. The law of the terminal queues is its
premise. -/
def Obligations.StepKeepsComposition : Prop :=
  ∀ s t : State, s.part.queueLaw → s.part.compositionLaw → step s = .next t → t.part.compositionLaw

/-- The law of monotonic indication (R28): in a step after which a car is moving up, the accepted floor of its decks has not
decreased, and in a step after which it is moving down it has not increased. It holds during a take as outside one (R168);
left out is the one step in which a take ends, where a TAKE_FULL that is accepted makes every deck UNKNOWN (R39, Table 2-2).
-/
def Obligations.IndicationIsMonotonic : Prop :=
  ∀ (s t : State) (c d a b : Nat), step s = .next t →
    (s.part.path.take.isSome = true → t.part.path.take.isSome = true) →
    (s.part.deck c d).accepted = some a → (t.part.deck c d).accepted = some b →
      ((t.part.car c).motion = .movingUp → a ≤ b) ∧ ((t.part.car c).motion = .movingDown → b ≤ a)

/-- Outside a take no step but RESET_N changes the geometry image, the node table, the parameter shadow or the watch map
(R1, R170, R172). -/
def Obligations.ConfigurationNeedsATake : Prop :=
  ∀ (c : Instr) (s t : State), s.part.path.take = none → (∀ anchor passed, c ≠ .resetN anchor passed) →
    exec c s = .next t → t.part.sameConfig s.part

/-- The commands that touch memory are the host's writes, RESET_N, the own writes of the result, of report entries, status
records and the service word, and a read that waits for one of them: every other command leaves every byte (R164). -/
def Obligations.OwnWritesAreFew : Prop :=
  ∀ (c : Instr) (s t : State),
    (match c with
      | .resetN _ _ | .takeFull _ _ | .takeParams _ _ | .modified _ _ _ | .latchClear _ | .countersClear
      | .statisticsClear | .repaint | .hostWrite _ _ _ | .mirrorMerge _ _ _ | .carRecord _ _ _ | .assignNew _ _ _
      | .assignCancel _ _ _ | .assignReassign _ _ _ | .messageDefine _ _ _ | .messageActivate _ _ _
      | .messageCancel _ _ _ | .messageClear _ _ _ | .overrideActivate _ _ _ | .overrideRelease _ _ _
      | .textAreaWrite _ _ _ | .takeResultWrite | .reportEntryWrite | .statusRecordWrite | .serviceWordWriteBack => False
      | .consume _ _ => s.portFree = true
      | _ => True) →
    exec c s = .next t → ∀ k, readByte t.mem k = readByte s.mem k

/-- A command faults exactly when it names a unit the HN-416 does not have (the model's choice, log entry 4). -/
def Obligations.FaultsAreIllFormed : Prop :=
  ∀ (c : Instr) (s : State), (exec c s = .fault .noSuchUnit ↔ c.wellFormed = false) ∧ ∀ r, exec c s ≠ .refused r

/-! ### Host accesses (R164, R167, R177) -/

/-- A host write that is not held reaches memory with its data and byte enables as given (R164): each enabled byte of
the addressed word takes the written byte and every other byte of memory stays, whatever the write asks of the part. A host
access that finds a take result write due is performed after it (R173); one held for an own access that has waited through
32 host accesses is performed after that access (R179). Either is then performed unchanged. -/
def Obligations.HostWriteReachesMemory : Prop :=
  (∀ (c : Instr) (s : State) (a : Addr) (data : Word) (be : BitVec 4), c ∈ busWrites a data be → s.portFree = true →
    memoryWf s.mem = true → ∃ t, exec c s = .next t ∧ t.pending = s.pending ∧
      ∀ k, readByte t.mem k =
        if k / 4 = a.toNat ∧ be.getLsbD (k % 4) = true then byteAt data (k % 4) else readByte s.mem k)
  ∧ (∀ (c : Instr) (s t : State) (a : Addr) (data : Word) (be : BitVec 4), c ∈ .consume a be :: busWrites a data be →
      s.part.path.waits .takeResult = true → exec .takeResultWrite s = .next t → exec c s = exec c t)
  ∧ ∀ (c : Instr) (s t : State) (a : Addr) (data : Word) (be : BitVec 4) (k : OwnKind),
      c ∈ .consume a be :: busWrites a data be → s.part.path.waits .takeResult = false →
      s.part.path.heldFor = some k → exec (s.part.ownCommand k) s = .next t →
      (∀ x ∈ t.part.path.own, x.passed < Config.passOverLimit) → exec c s = exec c t

/-- HOST_WRITE and MIRROR_MERGE (R164, R177): outside a take, a write that falls in no window the part watches and not in the
anchor block changes memory and nothing else but the pass-over counts (R179); a write to a word of a record slot that is
not its closing word also merges into the mirror, byte by byte, and nothing is handed on. -/
def Obligations.HostWritePassesThrough : Prop :=
  ∀ (s : State) (a : Addr) (data : Word) (be : BitVec 4),
    s.portFree = true → s.part.atRest → s.part.path.take = none → s.part.path.inAnchor a.toNat = false →
      (s.part.path.slotWord a.toNat = none → s.part.path.inTextArea a.toNat = false →
        exec (.hostWrite a data be) s =
          .next { s with mem := writeWord s.mem a data be, part := s.part.onPath (·.passOver) })
      ∧ ∀ k i, s.part.path.slotWord a.toNat = some (k, i) → i % recordSize k ≠ recordSize k - 1 →
        exec (.mirrorMerge a data be) s =
          .next { s with
            mem := writeWord s.mem a data be
            part := (s.part.onPath (·.passOver)).onPath (·.mergeMirror k i data be) }

/-- A closing-word write whose sequence number equals the slot's last taken one (R177): the repeat take counter rises by
one, holding at 65,535, and no block is handed a record. -/
def Obligations.RepeatIsCounted : Prop :=
  ∀ (c : Instr) (s : State) (a : Addr) (data : Word) (be : BitVec 4) (k slot : Nat) (words : List Word),
    c ∈ busWrites a data be → s.portFree = true → s.part.atRest → s.part.shaped = true →
    s.part.path.inAnchor a.toNat = false →
    s.part.path.slotWord a.toNat = some (k, recordSize k * slot + (recordSize k - 1)) →
    (s.part.path.mergeMirror k (recordSize k * slot + (recordSize k - 1)) data be).slotWords k slot = words →
    sequenceOf (words.getD (recordSize k - 1) 0) = s.part.path.lastTaken k slot →
      ∃ t, exec c s = .next t ∧ t.mem = writeWord s.mem a data be
        ∧ (t.part.disp.rpt.counter .repeatTake).toNat = min 65535 ((s.part.disp.rpt.counter .repeatTake).toNat + 1)
        ∧ t.part.sameTraffic s.part ∧ t.part.sameTexts s.part ∧ t.part.sameLinks s.part ∧ t.part.sameConfig s.part
        ∧ t.part.path.lastSeq = s.part.path.lastSeq ∧ t.part.disp.rpt.waiting = s.part.disp.rpt.waiting

/-- CONSUME (R164, R178, R182): a host read returns the content of memory and changes no byte of it. Read as the closing
word of a report slot it makes an UNCONSUMED slot FREE, after which the writer can write a waiting report when that was
the slot at the producer position; any other slot state, and any other word, is left alone. -/
def Obligations.ConsumeCompletes : Prop :=
  ∀ (s : State) (a : Addr) (be : BitVec 4), s.portFree = true → s.part.atRest →
    ∃ t, exec (.consume a be) s = .next t ∧ t.mem = s.mem ∧ t.part.hostData = readWord s.mem a
      ∧ t.part.sameTraffic s.part ∧ t.part.sameTexts s.part ∧ t.part.sameLinks s.part ∧ t.part.sameConfig s.part
      ∧ (∀ slot, s.part.path.reportSlot a.toNat = some slot → s.part.disp.rpt.slots[slot]? = some .unconsumed →
          t.part.disp.rpt.slots = s.part.disp.rpt.slots.set slot .free
            ∧ (slot = s.part.disp.rpt.producer → s.part.disp.rpt.waiting ≠ [] → t.part.disp.rpt.entryReady = true))
      ∧ (∀ slot, s.part.path.reportSlot a.toNat = some slot → s.part.disp.rpt.slots[slot]? ≠ some .unconsumed →
          t.part.disp.rpt.slots = s.part.disp.rpt.slots)
      ∧ (s.part.path.reportSlot a.toNat = none → t.part.disp.rpt = s.part.disp.rpt)

/-! ### The configuration take (R167 to R175) -/

/-- TAKE_FULL and TAKE_PARAMS (R167, R168): outside a take, a write that gives a known take word the value 1 begins a
TAKE_FULL, the value 2 a TAKE_PARAMS, and any other value nothing; the path remembers whether it was RUNNING. While no value
is known, the write is left to a read of the word, which then waits. That a take which begins gives up a read of the take
word that waits is the model's choice (log entry 7). -/
def Obligations.TakeRequestBegins : Prop :=
  (∀ (c : Instr) (s : State) (data : Word) (be : BitVec 4) (old : Word),
    c = .takeFull data be ∨ c = .takeParams data be →
    s.portFree = true → s.part.atRest → s.part.path.take = none →
    s.part.path.state = .unconfigured ∨ s.part.path.state = .running →
    s.part.path.takeWord = some old →
      ∃ t, exec c s = .next t ∧ t.mem = writeWord s.mem (wordAddr s.part.path.takeAddress) data be
        ∧ t.part.path.takeWord = some (mergeWord old data be)
        ∧ t.part.path.take =
            (if mergeWord old data be = 1 then some (Take.fresh .full)
              else if mergeWord old data be = 2 then some (Take.fresh .params) else none)
        ∧ t.part.path.state =
            (if mergeWord old data be = 1 ∨ mergeWord old data be = 2 then
              .taking (s.part.path.state = .running) else s.part.path.state)
        ∧ t.part.path.waits .takeRead = (s.part.path.waits .takeRead || t.part.path.take.isSome)
        ∧ t.part.path.takeWordRead = (s.part.path.takeWordRead && t.part.path.take.isNone)
        ∧ t.part.path.waits .takeWord = (s.part.path.waits .takeWord && t.part.path.take.isNone)
        ∧ t.part.sameTraffic s.part ∧ t.part.sameTexts s.part ∧ t.part.disp = s.part.disp
        ∧ t.part.sameConfig s.part ∧ t.part.sameClock s.part)
  ∧ ∀ (c : Instr) (s : State) (data : Word) (be : BitVec 4), c = .takeFull data be ∨ c = .takeParams data be →
    s.portFree = true → s.part.atRest → s.part.path.take = none → s.part.path.takeWord = none →
      ∃ t, exec c s = .next t ∧ t.mem = writeWord s.mem (wordAddr s.part.path.takeAddress) data be
        ∧ t.part.path.takeWord = (if be = 0xF#4 then some data else none)
        ∧ t.part.path.takeWordRead = true ∧ t.part.path.waits .takeWord = true
        ∧ t.part.path.take = none ∧ t.part.path.state = s.part.path.state
        ∧ t.part.sameTraffic s.part ∧ t.part.sameTexts s.part ∧ t.part.disp = s.part.disp
        ∧ t.part.sameConfig s.part ∧ t.part.sameClock s.part

/-- TAKE_WORD_READ (R167): in its turn, PATH's own read of the take word learns the value in memory and judges it. -/
def Obligations.TakeWordReadCompletes : Prop :=
  ∀ (s : State) (v : Word), s.part.path.ownNext = some .takeWord → s.part.atRest → s.part.path.take = none →
    s.part.path.state = .unconfigured ∨ s.part.path.state = .running →
    readWord s.mem (wordAddr s.part.path.takeAddress) = v →
      ∃ t, exec .takeWordRead s = .next t ∧ t.mem = s.mem ∧ t.part.path.takeWord = some v
        ∧ t.part.path.takeWordRead = false ∧ t.part.path.waits .takeWord = false
        ∧ t.part.path.take =
            (if v = 1 then some (Take.fresh .full) else if v = 2 then some (Take.fresh .params) else none)
        ∧ t.part.sameTraffic s.part ∧ t.part.sameTexts s.part ∧ t.part.disp = s.part.disp
        ∧ t.part.sameConfig s.part ∧ t.part.sameClock s.part

/-- MODIFIED (R169): a host write in the anchor block during a take reaches memory and ends the take with MODIFIED, whose
result write is then due. That the take's next read, when it waits already, leaves the own-access queue is the model's choice
(log entry 25: no rule says what becomes of it). -/
def Obligations.ModifiedCompletes : Prop :=
  ∀ (s : State) (offset : Nat) (data : Word) (be : BitVec 4) (tk : Take), offset < Config.anchorWords →
    s.portFree = true → s.part.path.take = some tk → tk.result = none →
      ∃ t, exec (.modified offset data be) s = .next t
        ∧ t.mem = writeWord s.mem (wordAddr (s.part.path.anchorAt + offset)) data be
        ∧ (∃ tk', t.part.path.take = some tk' ∧ tk'.kind = tk.kind ∧ tk'.copy = tk.copy
            ∧ tk'.result = some (refModified, 0))
        ∧ t.part.path.waits .takeResult = true ∧ t.part.path.waits .takeRead = false
        ∧ t.part.path.state = s.part.path.state ∧ t.part.trk = s.part.trk ∧ t.part.prm = s.part.prm
        ∧ t.part.sameConfig s.part ∧ t.part.sameClock s.part

/-- TAKE_READ (R168): in its turn, a read of the anchor block copies the word in memory; the read that completes the
copy also validates it (R170), and the copy of a TAKE_PARAMS that passes makes the result write due. The validation: a
TAKE_FULL passes exactly when its header, windows, floors, cars, nodes, rings, triggers, channels and parameters are as R3, R6,
R9, R104, R130, R170, R171 and R172 ask, a TAKE_PARAMS when its header and parameters are; the first failing stage gives
the refusal. -/
def Obligations.TakeReadFillsCopy : Prop :=
  (∀ (s : State) (tk : Take) (o : Nat), s.part.path.ownNext = some .takeRead → s.part.atRest →
    s.part.path.take = some tk → takeOffset tk.kind tk.copy.length = some o →
      ∃ t tk', exec .takeRead s = .next t ∧ t.mem = s.mem ∧ t.part.path.take = some tk'
        ∧ tk'.kind = tk.kind ∧ tk'.mirror = tk.mirror
        ∧ tk'.copy = tk.copy ++ [readWord s.mem (wordAddr (s.part.path.anchorAt + o))]
        ∧ ((takeOffset tk.kind (tk.copy.length + 1)).isSome = true → tk'.result = tk.result)
        ∧ (∀ f, takeOffset tk.kind (tk.copy.length + 1) = none →
            validate s.part.path.anchorAt tk.kind tk'.word = some f → tk'.result = some f)
        ∧ (takeOffset tk.kind (tk.copy.length + 1) = none → tk.kind = .params →
            validate s.part.path.anchorAt tk.kind tk'.word = none → tk'.result = some (0, 0))
        ∧ t.part.sameTraffic s.part ∧ t.part.sameTexts s.part ∧ t.part.disp = s.part.disp
        ∧ t.part.sameConfig s.part ∧ t.part.sameClock s.part)
  ∧ ∀ (anchor : Nat) (w : Nat → Word),
      (validate anchor .full w = none ↔ Acceptable anchor w)
        ∧ (validate anchor .params w = none ↔ headerPasses w ∧ paramsPass w)
        ∧ (∀ kind, w 0x000 ≠ 0x484E0416#32 → validate anchor kind w = some (refSignature, 0))
        ∧ (∀ kind, w 0x000 = 0x484E0416#32 → w 0x001 ≠ 1#32 → validate anchor kind w = some (refVersion, 0))
        ∧ (headerPasses w → ∀ f,
            (windowsStage anchor w = some f → validate anchor .full w = some f)
              ∧ (windowsStage anchor w = none → floorsStage w = some f → validate anchor .full w = some f)
              ∧ (windowsStage anchor w = none → floorsStage w = none →
                  (carsStage w = some f → validate anchor .full w = some f)
                    ∧ (carsStage w = none →
                        (nodesStage w = some f → validate anchor .full w = some f)
                          ∧ (nodesStage w = none →
                              (triggersStage w = some f → validate anchor .full w = some f)
                                ∧ (triggersStage w = none →
                                    (overridesStage w = some f → validate anchor .full w = some f)
                                      ∧ (overridesStage w = none → paramsStage w = some f →
                                          validate anchor .full w = some f))))))
        ∧ (∀ i < 31, (∀ k < i, (paramRange k).1 ≤ readParam w k ∧ readParam w k ≤ (paramRange k).2) →
            (readParam w i < (paramRange i).1 ∨ (paramRange i).2 < readParam w i) →
              paramsStage w = some (refParamRange, i))
        ∧ (floorCount w < 2 → floorsStage w = some (refFloorCount, floorCount w))

/-- TAKE_READ (R168) of a TAKE_FULL whose copy is complete: in its turn, a read fills the next word of the new mirror, in
ascending window and address of the present record windows; after the last one the result write is due. A host write during a
take, outside the anchor block, that falls on a word the mirror phase has read merges into the new mirror byte by byte, and
leaves the copy, the other words and the take as they are (R169). -/
def Obligations.TakeReadFillsMirror : Prop :=
  (∀ (s : State) (tk : Take) (k a : Nat), s.part.path.ownNext = some .takeRead → s.part.atRest →
    s.part.path.take = some tk → tk.kind = .full → tk.copy.length = Config.anchorWords →
    tk.mirror.length = 4 → tk.nextMirror = some (k, a) →
      ∃ t tk', exec .takeRead s = .next t ∧ t.mem = s.mem ∧ t.part.path.take = some tk'
        ∧ tk'.kind = tk.kind ∧ tk'.copy = tk.copy
        ∧ tk'.mirrorOf k = tk.mirrorOf k ++ [readWord s.mem (wordAddr a)]
        ∧ (∀ w, w ≠ k → tk'.mirrorOf w = tk.mirrorOf w)
        ∧ tk'.result = (if tk'.nextMirror = none then some (0, 0) else tk.result)
        ∧ t.part.sameTraffic s.part ∧ t.part.sameTexts s.part ∧ t.part.disp = s.part.disp
        ∧ t.part.sameConfig s.part ∧ t.part.sameClock s.part)
  ∧ ∀ (c : Instr) (s : State) (a : Addr) (data : Word) (be : BitVec 4) (tk : Take), c ∈ busWrites a data be →
      s.portFree = true → s.part.path.take = some tk → s.part.path.inAnchor a.toNat = false →
      ∃ t tk', exec c s = .next t ∧ t.mem = writeWord s.mem a data be ∧ t.part.path.take = some tk'
        ∧ tk'.kind = tk.kind ∧ tk'.copy = tk.copy ∧ tk'.result = tk.result
        ∧ (∀ k < 4, ∀ x, readWindow tk.word k = x →
            (x.present = true → x.base ≤ a.toNat → a.toNat < x.base + (tk.mirrorOf k).length →
              (tk'.mirrorOf k)[a.toNat - x.base]? = ((tk.mirrorOf k)[a.toNat - x.base]?).map (mergeWord · data be)
                ∧ ∀ i, i ≠ a.toNat - x.base → (tk'.mirrorOf k)[i]? = (tk.mirrorOf k)[i]?)
            ∧ (¬(x.present = true ∧ x.base ≤ a.toNat ∧ a.toNat < x.base + (tk.mirrorOf k).length) →
                tk'.mirrorOf k = tk.mirrorOf k))
        ∧ t.part.path.state = s.part.path.state ∧ t.part.sameConfig s.part ∧ t.part.sameClock s.part

/-- TAKE_RESULT_WRITE of a refused take (R173, R136): the take word is written with the refusal, TAKE_DONE is handed to
the report queue, the path returns to the state the take began from, and every block keeps its state. -/
def Obligations.TakeRefusalCompletes : Prop :=
  ∀ (s : State) (tk : Take) (due : Failure), s.part.path.waits .takeResult = true → s.part.atRest →
    s.part.path.take = some tk → tk.result = some due → (s.part.takeResult tk due).1 ≠ 0 →
      ∃ t, exec .takeResultWrite s = .next t
        ∧ t.mem = writeWhole s.mem (wordAddr s.part.path.takeAddress)
            (takeResultWord (s.part.takeResult tk due).1 (s.part.takeResult tk due).2)
        ∧ t.part.path.take = none ∧ t.part.path.state = s.part.path.state.afterTake
        ∧ t.part.path.takeWord = some (takeResultWord (s.part.takeResult tk due).1 (s.part.takeResult tk due).2)
        ∧ t.part.disp.rpt.waiting =
            (s.part.disp.rpt.hand s.part.now
              (repTakeDone tk.kind (s.part.takeResult tk due).1 (s.part.takeResult tk due).2)).waiting
        ∧ (∀ k, tk.kind = .full → due.1 = 0 → s.part.channelHeld = some k →
            s.part.takeResult tk due = (refOverrideActive, k))
        ∧ t.part.sameTraffic s.part ∧ t.part.sameTexts s.part ∧ t.part.sameLinks s.part
        ∧ t.part.sameConfig s.part ∧ t.part.sameClock s.part

/-- TAKE_RESULT_WRITE of an accepted TAKE_PARAMS (R173, R175): the take word is written with the result, the parameter shadow
is replaced, the geometry image, the node table and the watch map stay, and TAKE_DONE is handed to the report queue. Of the
blocks, the new stale_ms makes a car STALE at once when its last record is that old (R30), reported after TAKE_DONE, and the
new assign_life_s removes and counts the assignments of that age (R78); the report ring, the take order, the withdrawn marks
and the drop-reported marks stay, and when neither occurs nothing else changes. That TAKE_DONE goes before the reports the new
parameters bring is the model's order (log entry 16). -/
def Obligations.ParamsAcceptanceCompletes : Prop :=
  ∀ (s : State) (tk : Take), s.part.path.waits .takeResult = true → s.part.path.take = some tk → tk.kind = .params →
    tk.result = some (0, 0) →
      ∃ t, exec .takeResultWrite s = .next t
        ∧ t.mem = writeWhole s.mem (wordAddr s.part.path.takeAddress) (takeResultWord 0 0)
        ∧ t.part.path.take = none ∧ t.part.path.state = s.part.path.state.afterTake
        ∧ t.part.params = readParams tk.word ∧ t.part.geo = s.part.geo ∧ t.part.nodes = s.part.nodes
        ∧ t.part.path.watch = s.part.path.watch ∧ t.part.path.mirror = s.part.path.mirror
        ∧ t.part.path.lastSeq = s.part.path.lastSeq
        ∧ (s.part.disp.rpt.hand s.part.now (repTakeDone .params 0 0)).waiting <+: t.part.disp.rpt.waiting
        ∧ (∀ due : Nat → Bool, (∀ c, due c = ({ s.part with params := readParams tk.word } : Part).staleDue c) →
            (s.part.shaped = true → ∀ c < Config.maxCars,
              { t.part.car c with decks := [] } = { s.part.car c with decks := [] }
                ∧ (due c = false → t.part.car c = s.part.car c)
                ∧ (due c = true →
                    (∀ d ∈ s.part.decksOf c, d < 2 → t.part.deck c d = { s.part.deck c d with state := .stale })
                      ∧ ∀ d, d ∉ s.part.decksOf c → t.part.deck c d = s.part.deck c d))
            ∧ (s.part.atRest →
                t.part.sameTexts s.part
                  ∧ t.part.disp.rpt.waiting =
                    (((List.range Config.maxCars).filter due).foldl (fun r c => r.hand s.part.now (repCarStale c))
                      (s.part.disp.rpt.hand s.part.now (repTakeDone .params 0 0))).waiting
                  ∧ ((∀ c < Config.maxCars, due c = false) →
                      (∀ a ∈ s.part.prm.table, s.part.since a.created < (readParams tk.word).assignLifeS * 1000) →
                        t.part.sameTraffic s.part ∧ t.part.sameLinks s.part)))
        ∧ t.part.prm.table.map (·.core) =
            (s.part.prm.table.filter
              (fun a => s.part.since a.created < (readParams tk.word).assignLifeS * 1000)).map (·.core)
        ∧ (s.part.disp.rpt.counters.length = 16 → (t.part.disp.rpt.counter .expired).toNat =
            min 65535 ((s.part.disp.rpt.counter .expired).toNat
              + s.part.prm.table.countP (fun a => (readParams tk.word).assignLifeS * 1000 ≤ s.part.since a.created)))
        ∧ t.part.prm.nextOrder = s.part.prm.nextOrder ∧ t.part.prm.withdrawn = s.part.prm.withdrawn
        ∧ t.part.prm.dropReported = s.part.prm.dropReported ∧ t.part.arr.withdrawn = s.part.arr.withdrawn
        ∧ t.part.disp.rpt.area = s.part.disp.rpt.area ∧ t.part.disp.rpt.slots = s.part.disp.rpt.slots
        ∧ t.part.disp.rpt.producer = s.part.disp.rpt.producer ∧ t.part.disp.rpt.sequence = s.part.disp.rpt.sequence
        ∧ t.part.sameClock s.part

/-- TAKE_RESULT_WRITE of an accepted TAKE_FULL (R173, R174, R188): the take word is written with the result, the path is
RUNNING under the new watch map, mirror and sequence numbers, and every block has its state after TAKE_FULL: new parameters,
geometry image and node table; unknown cars; ARR and PRM as formed (R59, R85); EMPTY messages, no watched range, and a fetch job for
override texts alone, each PENDING or, checked at once, in FAULT (R109, R135); IDLE triggers; channels with their new configuration, lines
and samples kept, ACTIVE where the line is asserted and OFF elsewhere (R137); blank regions of version 0 on nodes that are not reachable (R126);
UNTESTED rings of ABSENT nodes (R163); the report ring empty, every status record pending with change count 0. The counters
are kept, but for truncations of the override texts and dropped reports that the acceptance itself brings. Of this the model's
own are: that the take order starts afresh at 0 (`freshPrm`, log entry 21); that a ring forgets the frames last driven on its
ports (`freshRing`, log entry 17), and the window and last served position of a ring with no node (log entry 20); that an
override text which is absent has an empty buffer and version 0 (log entry 37); and that TAKE_DONE is the first report that waits
(log entry 16). -/
def Obligations.FullAcceptanceCompletes : Prop :=
  ∀ (s : State) (tk : Take), s.part.path.waits .takeResult = true → s.part.path.take = some tk → tk.kind = .full →
    tk.result = some (0, 0) → s.part.channelHeld = none →
      ∃ t, exec .takeResultWrite s = .next t
        ∧ t.mem = writeWhole s.mem (wordAddr s.part.path.takeAddress) (takeResultWord 0 0)
        ∧ t.part.path.take = none ∧ t.part.path.state = .running ∧ t.part.path.watch = readWatch tk.word
        ∧ t.part.path.mirror = tk.mirror
        ∧ t.part.path.lastSeq = (List.range 4).map (fun k => closingSequences k (tk.mirrorOf k))
        ∧ t.part.params = readParams tk.word ∧ t.part.geo = readGeo tk.word ∧ t.part.nodes = readNodes tk.word
        ∧ t.part.trk = List.replicate Config.maxCars Car.fresh ∧ t.part.arr = freshArr (readNodes tk.word)
        ∧ t.part.prm.table = [] ∧ t.part.prm = freshPrm (readNodes tk.word)
        ∧ t.part.msg = List.replicate Config.maxMessages Message.fresh
        ∧ t.part.trg = readTriggers tk.word ∧ t.part.txf.ready = []
        ∧ (∀ j ∈ t.part.txf.jobs, ∃ n < Config.channels, j.owner = .line n ∨ j.owner = .banner n)
        ∧ (∀ n < Config.channels,
            (t.part.channel n).config = some (readChannel tk.word n)
              ∧ (t.part.channel n).lineRef = readChannelText tk.word n 2
              ∧ (t.part.channel n).bannerRef = readChannelText tk.word n 4
              ∧ (t.part.channel n).samples = (s.part.channel n).samples
              ∧ (t.part.channel n).accepted = (s.part.channel n).accepted
              ∧ (t.part.channel n).memory = false ∧ (t.part.channel n).latch = (s.part.channel n).accepted
              ∧ ∀ o, o = TextOwner.line n ∨ o = TextOwner.banner n →
                (t.part.ownerText o).buffer = [] ∧ (t.part.ownerText o).version = 0
                  ∧ (t.part.ownerRef o = none → (t.part.ownerText o).status = none)
                  ∧ (t.part.ownerRef o ≠ none →
                      (t.part.ownerText o).status = some .fault
                        ∨ ((t.part.ownerText o).status = some .pending ∧ ∃ j ∈ t.part.txf.jobs, j.owner = o)))
        ∧ (∀ j n r, t.part.node j = some n → r ∈ n.regions →
            ∃ x, t.part.disp.cmp.region j r = some x ∧ x.content = Content.blank ∧ x.version = 0 ∧ x.shown = none
              ∧ x.source = ((t.part.governing n).elim .normal fun k =>
                  if (r = .floor ∧ (readChannel tk.word k).floorBlank = false)
                      ∨ (r = .arrow ∧ (readChannel tk.word k).arrowBlank = false) then .normal
                  else .channel k))
        ∧ (∀ j, t.part.disp.cmp.reachable j = false)
        ∧ (∀ r < Config.rings,
            t.part.disp.ring r = freshRing (readNodes tk.word) r (readRingWindow tk.word r) s.part.now)
        ∧ t.part.disp.rpt.area = some (readWindow tk.word 4).base
        ∧ t.part.disp.rpt.slots = List.replicate Config.reportSlots .free ∧ t.part.disp.rpt.attention = false
        ∧ t.part.disp.rpt.producer = 0 ∧ t.part.disp.rpt.sequence = 0
        ∧ (∀ i < Config.statusRecords, ∃ x, t.part.disp.rpt.records[i]? = some x ∧ x.pending = true ∧ x.count = 0)
        ∧ (∀ c, c ≠ .textTruncation → c ≠ .reportDrop → t.part.disp.rpt.counter c = s.part.disp.rpt.counter c)
        ∧ t.part.disp.rpt.waiting.head? =
            some { word0 := (repTakeDone .full 0 0).1, word1 := (repTakeDone .full 0 0).2, time := s.part.now }
        ∧ t.part.sameClock s.part

/-! ### The service word (R187) -/

/-- LATCH_CLEAR (R132, R133, R187): a LATCHED channel goes OFF, every region of every node is recomposed under the channels as
they then stand (R122), OVERRIDE_OFF is handed and the channel's status record with it (R138); a channel that is ACTIVE or OFF
stays as it is, and no region and no link engine changes; either way no other channel changes and the service word's write-back
is made or due. -/
def Obligations.LatchClearCompletes : Prop :=
  ∀ (s : State) (k : Nat), k < Config.channels → s.portFree = true → s.part.atRest → s.part.shaped = true →
    s.part.disp.rpt.requests = 0 →
      ∃ t, exec (.latchClear k) s = .next t
        ∧ t.mem = writeWord s.mem (wordAddr s.part.path.serviceAddress) (place k 1) 0xF#4
        ∧ t.part.ovr =
            (if (s.part.channel k).state = .latched then s.part.ovr.set k { s.part.channel k with latch := false }
              else s.part.ovr)
        ∧ ((s.part.channel k).state = .latched →
            (t.part.channel k).state = .off
              ∧ (∀ j n r x, s.part.node j = some n → r ∈ n.regions → s.part.disp.cmp.region j r = some x →
                  t.part.composedAt j n r)
              ∧ t.part.disp.rpt.handed (channelRecordIndex k) (channelStatus (t.part.channel k)))
        ∧ ((s.part.channel k).state ≠ .latched → t.part.sameLinks s.part)
        ∧ t.part.disp.rpt.waiting =
            (if (s.part.channel k).state = .latched then
              (s.part.disp.rpt.hand s.part.now (repOverrideOff k)).waiting else s.part.disp.rpt.waiting)
        ∧ (t.part.disp.rpt.writeBackDue = true ∨ t.part.disp.rpt.writer = .serviceBack)
        ∧ t.part.disp.rpt.requests = 0
        ∧ t.part.sameTraffic s.part ∧ t.part.msg = s.part.msg ∧ t.part.txf = s.part.txf ∧ t.part.trg = s.part.trg
        ∧ t.part.sameConfig s.part ∧ t.part.sameClock s.part

/-- COUNTERS_CLEAR and STATISTICS_CLEAR (R187): the first makes every counter 0 and the counters record carry zeros, and
leaves the drop count; the second gives every ring its cleared statistics, the minimum 65,535 and the rest 0, and changes
nothing else of any ring. The service word's write-back is made or due. -/
def Obligations.ServiceClearsComplete : Prop :=
  ∀ s : State, s.portFree = true → s.part.atRest → s.part.shaped = true → s.part.disp.rpt.requests = 0 →
    (∃ t, exec .countersClear s = .next t
      ∧ t.mem = writeWord s.mem (wordAddr s.part.path.serviceAddress) (place 4 1) 0xF#4
      ∧ (∀ c, t.part.disp.rpt.counter c = 0)
      ∧ (t.part.disp.rpt.records[countersRecordIndex]?).map (·.fields) = some (List.replicate 8 0)
      ∧ t.part.disp.rpt.drops = s.part.disp.rpt.drops ∧ t.part.disp.rpt.waiting = s.part.disp.rpt.waiting
      ∧ (t.part.disp.rpt.writeBackDue = true ∨ t.part.disp.rpt.writer = .serviceBack)
      ∧ t.part.sameTraffic s.part ∧ t.part.sameTexts s.part ∧ t.part.sameLinks s.part
      ∧ t.part.sameConfig s.part ∧ t.part.sameClock s.part)
    ∧ ∃ t, exec .statisticsClear s = .next t
      ∧ t.mem = writeWord s.mem (wordAddr s.part.path.serviceAddress) (place 5 1) 0xF#4
      ∧ (∀ r < Config.rings, t.part.disp.ring r =
          { s.part.disp.ring r with
            stats := { minimum := 65535, maximum := 0, sent := 0, retries := 0, late := 0, rejected := 0 } })
      ∧ t.part.disp.cmp = s.part.disp.cmp ∧ t.part.disp.rpt.waiting = s.part.disp.rpt.waiting
      ∧ t.part.disp.rpt.counters = s.part.disp.rpt.counters
      ∧ (t.part.disp.rpt.writeBackDue = true ∨ t.part.disp.rpt.writer = .serviceBack)
      ∧ t.part.sameTraffic s.part ∧ t.part.sameTexts s.part ∧ t.part.sameConfig s.part ∧ t.part.sameClock s.part

/-- REPAINT (R124, R125, R187): every region of every reachable node is re-issued once: recomposed, given the next version,
and handed to the engine of its ring as an ALERT where a channel governs the node and as a PAINT elsewhere, without a chime of
its own; a joined node's queue then holds that request, its chime at most one carried from the entry it replaced (R145). A
region of a node that is not reachable keeps its record. That the whole repaint is done within the step is the model's choice
(log entry 17: R125 lets inputs arrive between the regions). Recomposition itself (R112, R116, R120, R122, R123): the content
is that of the governing channel's row of Table 6-5 or of the region's normal source; a message region first chooses its
message by Table 6-3; on a reachable node the version rises when the content differs, when the region leaves a channel, or
when it is re-issued. The normal source of each region (R58, R80, R82, R112, R113): for FLOOR the indicator text and the stale
attribute, for ARROW a car panel's drive direction and moving flag or a lit lantern's shown direction, for TRIP the labels of
the first eight members of the trip list and a MORE mark, for PROMPT the pieces of the head's prompt text, for LINE and BANNER
the shown message's text. The indicator text itself (R11, R12): the deck mark, then the floor label of the accepted floor or,
EXPRESS, the express text when there is one, then the fire mark after a label of a floor with FIRE_ACCESS under a fire mode;
nothing while the deck is UNKNOWN. The governing channel (R114, R134): the lowest one not OFF whose group mask marks the node's
group and whose floor range is ANY or holds the node floor, which is a car panel's accepted floor and any other node's bound
floor. -/
def Obligations.RepaintCompletes : Prop :=
  (∀ (s : State) (j : Nat) (n : NodeConfig) (r : Region) (x : RegionRecord),
    s.portFree = true → s.part.atRest → s.part.shaped = true → s.part.disp.rpt.requests = 0 →
    s.part.node j = some n → r ∈ n.regions → s.part.disp.cmp.region j r = some x →
      ∃ t, exec .repaint s = .next t
        ∧ t.mem = writeWord s.mem (wordAddr s.part.path.serviceAddress) (place 6 1) 0xF#4
        ∧ (s.part.disp.cmp.reachable j = true →
            (t.part.disp.cmp.region j r).map (·.version) = some (x.version + 1))
        ∧ (s.part.disp.cmp.reachable j = true → ∀ y, t.part.disp.cmp.region j r = some y →
            y.content = (composed s.part j n r y.shown).1.1 ∧ y.source = (composed s.part j n r y.shown).2
              ∧ ∀ q, (s.part.disp.ring n.ring).node n.position = some q → q.state.joined = true →
                (∀ j' n', s.part.node j' = some n' → n'.ring = n.ring → n'.position = n.position → j' = j) →
                  ∃ q' e, (t.part.disp.ring n.ring).node n.position = some q' ∧ e ∈ q'.queue
                    ∧ e.region = some r ∧ e.version = y.version ∧ e.content = y.content
                    ∧ e.kind = (if s.part.governing n = none then .paint else .alert)
                    ∧ (e.chime = 0 ∨ ∃ old ∈ q.queue, old.region = some r ∧ e.chime = old.chime))
        ∧ (s.part.disp.cmp.reachable j = false → t.part.disp.cmp.region j r = some x)
        ∧ (∀ i, t.part.disp.cmp.reachable i = s.part.disp.cmp.reachable i)
        ∧ t.part.sameTraffic s.part ∧ t.part.sameTexts s.part ∧ t.part.sameConfig s.part ∧ t.part.sameClock s.part)
  ∧ (∀ (p : Part) (d : Disp) (j : Nat) (n : NodeConfig) (r : Region) (x : RegionRecord) (mode : RecomposeMode)
      (list : List Nat), p.node j = some n → d.cmp.region j r = some x → list = rotationList p n r →
      ∃ y, (recompose p d j r mode).cmp.region j r = some y
        ∧ y.content = (composed p j n r y.shown).1.1 ∧ y.source = (composed p j n r y.shown).2
        ∧ y.version =
            (if d.cmp.reachable j = true
                ∧ (y.content ≠ x.content ∨ (x.source ≠ .normal ∧ y.source ≠ x.source) ∨ mode.force = true) then
              x.version + 1 else x.version)
        ∧ (isMessageRegion r = false → y.shown = x.shown ∧ y.level = x.level ∧ y.dwell = x.dwell)
        ∧ (isMessageRegion r = true →
            (list = [] → y.shown = none ∧ y.level = none ∧ y.dwell = none)
              ∧ (list ≠ [] → (x.shown = none ∨ x.level ≠ some (topLevel p list)) →
                  y.shown = list.head? ∧ y.level = some (topLevel p list) ∧ y.dwell = some (p.after p.params.rotateMs))
              ∧ ∀ m, x.shown = some m → x.level = some (topLevel p list) → list ≠ [] →
                  y.level = x.level ∧ (m ∈ list → y.shown = x.shown ∧ y.dwell = x.dwell)
                    ∧ (m ∉ list → y.shown = nextAfter list m ∧ y.dwell = some (p.after p.params.rotateMs)))
        ∧ (y.version = x.version → (recompose p d j r mode).lnk = d.lnk)
        ∧ (y.version ≠ x.version → ∀ q, (d.ring n.ring).node n.position = some q → q.state.joined = true →
            ∃ q' e, ((recompose p d j r mode).ring n.ring).node n.position = some q' ∧ e ∈ q'.queue
              ∧ e.region = some r ∧ e.version = y.version ∧ e.content = y.content
              ∧ e.kind = (if p.governing n = none then .paint else .alert)
              ∧ (e.chime = mode.chime
                  ∨ (mode.chime = 0 ∧ ∃ old ∈ q.queue, old.region = some r ∧ e.chime = old.chime)))
        ∧ ∀ j' r', (j', r') ≠ (j, r) → (recompose p d j r mode).cmp.region j' r' = d.cmp.region j' r')
  ∧ ∀ (p : Part) (j : Nat) (n : NodeConfig) (shown : Option Nat),
      (p.governing n = none → ∀ r, composed p j n r shown = (normalContent p j n r shown, .normal))
        ∧ (∀ k, p.governing n = some k →
            composed p j n .trip shown = ((Content.blank, 0), .channel k)
              ∧ composed p j n .prompt shown = ((Content.blank, 0), .channel k)
              ∧ composed p j n .line shown = (overrideContent (p.channel k).lineText, .channel k)
              ∧ composed p j n .banner shown = (overrideContent (p.channel k).bannerText, .channel k)
              ∧ ∀ cfg, (p.channel k).config = some cfg →
                composed p j n .floor shown =
                    (if cfg.floorBlank then ((Content.blank, 0), .channel k)
                      else (normalContent p j n .floor shown, .normal))
                  ∧ composed p j n .arrow shown =
                    (if cfg.arrowBlank then ((Content.blank, 0), .channel k)
                      else (normalContent p j n .arrow shown, .normal)))
        ∧ (∀ m, (normalContent p j n .line (some m)).1.codes =
              (p.message m).text.buffer.map (fun b => if thirdClass b then 0x20#8 else b)
            ∧ (normalContent p j n .line (some m)).2 = (p.message m).text.buffer.countP thirdClass)
        ∧ (∀ m, normalContent p j n .banner (some m) = normalContent p j n .line (some m))
        ∧ (normalContent p j n .line none = (Content.blank, 0) ∧ normalContent p j n .banner none = (Content.blank, 0))
        ∧ (n.type = .carPanel →
            (normalContent p j n .arrow shown).1 =
              (if (p.deck n.car n.deck).state = .unknown ∨ (p.deck n.car n.deck).state = .stale then Content.blank
                else { codes := [], stale := false, direction := (p.car n.car).drive,
                       moving := (p.car n.car).motion ≠ .still }))
        ∧ (p.lantern n.car n.deck n.floor = none →
            (n.type = .hallLantern → (normalContent p j n .arrow shown).1 = Content.blank)
              ∧ (normalContent p j n .trip shown).1 = Content.blank)
        ∧ (∀ l, p.lantern n.car n.deck n.floor = some l →
            (n.type = .hallLantern →
              (normalContent p j n .arrow shown).1 =
                (if l.state = .dark then Content.blank
                  else { codes := [], stale := false, direction := l.shown, moving := false }))
            ∧ (normalContent p j n .trip shown).1 =
                (if l.state = .dark then Content.blank
                  else
                    { codes :=
                        [0x20#8].intercalate (((p.tripMembers n.car n.deck n.floor).take 8).map p.floorLabel)
                          ++ (if 8 < (p.tripMembers n.car n.deck n.floor).length then [0x20#8, 0x2B#8] else [])
                      stale := false, direction := .none, moving := false }))
        ∧ (p.headOf j = none → (normalContent p j n .prompt shown).1 = Content.blank)
        ∧ (∀ a cfg est, p.headOf j = some a → p.carConfig a.car = some cfg →
            (a.estimate = none ∨ a.estimate = some .none → est = [0x2D#8, 0x2D#8]) →
            (∀ v, a.estimate = some (.secs v true) → est = [0x3E#8, 0x39#8, 0x39#8]) →
            (a.estimate = some (.secs 0 false) → est = [0x4E#8, 0x4F#8, 0x57#8]) →
            (∀ v, 1 ≤ v → v ≤ 9 → a.estimate = some (.secs v false) → est = [BitVec.ofNat 8 (0x30 + v)]) →
            (∀ v, 10 ≤ v → a.estimate = some (.secs v false) →
              est = [BitVec.ofNat 8 (0x30 + v / 10), BitVec.ofNat 8 (0x30 + v % 10)]) →
              (normalContent p j n .prompt shown).1 =
                { codes :=
                    [0x20#8].intercalate
                      ([cfg.label ++ (if cfg.decks ≤ 1 then [] else if a.deck = 0 then [0x83#8] else [0x82#8])]
                        ++ (if n.bearings.getD a.car 0 = 0 then [] else [[BitVec.ofNat 8 (0x80 + n.bearings.getD a.car 0)]])
                        ++ [p.floorLabel a.destination, est] ++ (if a.stepFree then [[0x84#8]] else []))
                  stale := false, direction := .none, moving := false })
        ∧ ((p.deck n.car n.deck).state = .unknown → (normalContent p j n .floor shown).1 = Content.blank)
        ∧ ((p.deck n.car n.deck).state ≠ .unknown →
            (normalContent p j n .floor shown).1 =
              { codes := p.floorText n.car n.deck, stale := (p.deck n.car n.deck).state = .stale, direction := .none,
                moving := false })
        ∧ (∀ c d, p.carConfig c = none ∨ (p.deck c d).state = .unknown ∨ (p.deck c d).accepted = none → p.floorText c d = [])
        ∧ (∀ c d cfg a express, p.carConfig c = some cfg → (p.deck c d).state ≠ .unknown → (p.deck c d).accepted = some a →
            (express = true ↔ (p.deck c d).state = .express ∧ cfg.express ≠ []) →
              p.floorText c d =
                (if cfg.decks ≤ 1 then [] else if d = 0 then [0x83#8] else [0x82#8])
                  ++ (if express then cfg.express
                    else p.floorLabel a
                      ++ (if ((p.car c).mode = .fireRecall ∨ (p.car c).mode = .fireService)
                            ∧ (p.geo.floors[a]?).any (·.fireAccess) = true then [0x85#8] else [])))
        ∧ (∀ holds : Nat → Prop,
            (∀ k, holds k ↔
              (p.channel k).state ≠ .off ∧ ∃ cfg, (p.channel k).config = some cfg ∧ cfg.groups.getLsbD n.group = true
                ∧ (cfg.range = none ∨ ∃ lo hi f, cfg.range = some (lo, hi) ∧ p.nodeFloor n = some f ∧ lo ≤ f ∧ f ≤ hi)) →
              (p.governing n = none ↔ ∀ k < Config.channels, ¬holds k)
                ∧ ∀ k, p.governing n = some k ↔ k < Config.channels ∧ holds k ∧ ∀ k' < k, ¬holds k')
        ∧ (n.type = .carPanel →
            p.nodeFloor n =
              (if (p.deck n.car n.deck).state = .unknown then none else (p.deck n.car n.deck).accepted))
        ∧ (n.type ≠ .carPanel → p.nodeFloor n = some n.floor)

/-! ### Records (R14, R60, R86, R129, R177) -/

/-- A record the owner refuses (R14, R60, R86, R129): a car record for a slot that is not configured, a message record with
an unrecognised request or bad fields, an assignment record of no kind, an override record with a bad code. It is
discarded, counted and reported, and changes nothing else. -/
def Obligations.RefusedRecordIsReported : Prop :=
  ∀ (c : Instr) (s : State) (a : Addr) (data : Word) (be : BitVec 4) (k slot : Nat) (words : List Word),
    c ∈ busWrites a data be → s.Takes a data be k slot words → s.part.atRest → s.part.shaped = true →
    ((k = 0 ∧ s.part.carConfig slot = none)
      ∨ (k = 1 ∧ (messageRequest words = 0 ∨ 4 < messageRequest words
          ∨ (messageRequest words ≤ 2 ∧ s.part.badMessage words = true)))
      ∨ (k = 2 ∧ (assignKind words = 0 ∨ 3 < assignKind words))
      ∨ (k = 3 ∧ slot = 0 ∧ ∃ n < Config.channels, 2 < overrideCode words n)) →
      ∃ t, exec c s = .next t ∧ t.mem = writeWord s.mem a data be
        ∧ (t.part.disp.rpt.counter .refusedRecord).toNat
            = min 65535 ((s.part.disp.rpt.counter .refusedRecord).toNat + 1)
        ∧ t.part.disp.rpt.waiting = (s.part.disp.rpt.hand s.part.now (repRecordRefused k slot)).waiting
        ∧ t.part.sameTraffic s.part ∧ t.part.sameTexts s.part ∧ t.part.sameLinks s.part
        ∧ t.part.sameConfig s.part ∧ t.part.sameClock s.part

/-- CAR_RECORD (R14 to R22, R30, R31, R35, R38, R40, R75 to R77, R105): a record taken for a configured car is interpreted,
its stale timer restarts, its position history, speed, motion and lead follow, and no other car changes. A clamp, each held
code and each stop list fault is counted, holding at 65,535. A car that was STALE is reported resumed before anything else the
evaluation reports. Of the assignments, those that were BOARDING at a visit which ended with its doors opened leave, those of
a deck whose visit now opens its doors become BOARDING, and those of a car that becomes withdrawn leave, with one report; the
withdrawn marks of PRM and ARR follow the service mode. The lanterns and the prompts' held values are what the departures,
arrivals and withdrawal of the record and then its evaluation notice make of them (R37, R48 to R50, R52 to R57), and what shows a
deck of which a value of R37 changed stands composed. The car's status record is handed when one of its values changes (R38). The
stop list is the longest run of the first count entries below the floor count (R17); the speed is the displacement since the
oldest sample reached within speed_window_ms, over its time (R21). Every trigger of the car takes its new condition as its last one. A trigger evaluated by itself acts as R105 to R107
say, row by row (that a LEVEL trigger's FALSE ends a message whose set was empty already is the model's choice, log entry 24).
Which byte holds which stop list entry is log entry 32. -/
def Obligations.CarRecordCompletes : Prop :=
  (∀ (s : State) (a : Addr) (data : Word) (be : BitVec 4) (c : Nat) (words : List Word) (cfg : CarConfig),
    s.Takes a data be 0 c words → s.part.shaped = true → c < Config.maxCars → s.part.carConfig c = some cfg →
      ∃ t, exec (.carRecord a data be) s = .next t ∧ t.mem = writeWord s.mem a data be
        ∧ (t.part.car c).position = some (min (max (carPosition words) 0) 1048575).toNat
        ∧ (t.part.car c).drive = (carDrive words).getD (s.part.car c).drive
        ∧ (t.part.car c).departure = (carDeparture words).getD (s.part.car c).departure
        ∧ (t.part.car c).door = (carDoor words).getD (s.part.car c).door
        ∧ (t.part.car c).mode = (carMode words).getD (s.part.car c).mode
        ∧ (t.part.car c).stops = stopsOf s.part.floorCount words
        ∧ (t.part.car c).words = words.take 15 ∧ (t.part.car c).timer = some s.part.now
        ∧ (t.part.car c).history =
            pushHistory (s.part.car c).history (clampPosition (carPosition words), s.part.now)
        ∧ (t.part.car c).speed = speedOf s.part.params.speedWindowMs (t.part.car c).history
        ∧ (t.part.car c).motion =
            (if (s.part.params.vStill : Int) ≤ (t.part.car c).speed then .movingUp
              else if (t.part.car c).speed ≤ -(s.part.params.vStill : Int) then .movingDown else .still)
        ∧ (t.part.car c).lead =
            min ((t.part.car c).speed.natAbs * s.part.params.leadMs / 1000) s.part.params.leadMaxMm
        ∧ (∀ c', c' ≠ c → t.part.car c' = s.part.car c')
        ∧ (t.part.disp.rpt.counter .positionClamp).toNat =
            min 65535 ((s.part.disp.rpt.counter .positionClamp).toNat
              + (if carPosition words < 0 ∨ 1048575 < carPosition words then 1 else 0))
        ∧ (t.part.disp.rpt.counter .codeHold).toNat =
            min 65535 ((s.part.disp.rpt.counter .codeHold).toNat
              + ((if carDrive words = none then 1 else 0) + (if carDeparture words = none then 1 else 0)
                + (if carDoor words = none then 1 else 0) + (if carMode words = none then 1 else 0)))
        ∧ (t.part.disp.rpt.counter .stopList).toNat =
            min 65535 ((s.part.disp.rpt.counter .stopList).toNat
              + ((if 8 < carStopCount words then 1 else 0)
                + (if ∃ f ∈ (carStopEntries words).take (min (carStopCount words) 8), s.part.floorCount ≤ f then 1 else 0)))
        ∧ (∀ stays : Assignment → Bool,
            (∀ x, stays x = false ↔
              x.car = c ∧ x.isBoarding = true ∧ (s.part.deck c x.deck).visit = some x.boarding
                ∧ (s.part.deck c x.deck).opened = true ∧ (t.part.deck c x.deck).visit ≠ some x.boarding) →
            t.part.prm.table.map (·.core) =
              ((s.part.prm.table.filter stays).filter (fun x =>
                  !(x.car = c ∧ (s.part.car c).mode = .normal ∧ (t.part.car c).mode ≠ .normal))).map
                (fun x =>
                  if x.car = c ∧ (t.part.deck c x.deck).visit = some x.boarding ∧ (t.part.deck c x.deck).opened = true
                      ∧ ¬((s.part.deck c x.deck).visit = some x.boarding ∧ (s.part.deck c x.deck).opened = true) then
                    { x.core with isBoarding := true }
                  else x.core)
              ∧ ∀ r, r = (if (s.part.deck c 0).state = .stale then s.part.disp.rpt.hand s.part.now (repCarResumed c)
                    else s.part.disp.rpt) →
                (if (s.part.car c).mode = .normal ∧ (t.part.car c).mode ≠ .normal
                    ∧ (s.part.prm.table.filter stays).any (·.car = c) = true then
                  r.hand s.part.now
                    (repRetiredWithdrawn c ((s.part.prm.table.filter stays).countP (·.car = c)))
                else r).waiting <+: t.part.disp.rpt.waiting)
        ∧ (∀ marks, marks = t.part.prm.withdrawn ∨ marks = t.part.arr.withdrawn →
            ((s.part.car c).mode = .normal → (t.part.car c).mode ≠ .normal → marks.getD c false = true)
              ∧ ((s.part.car c).mode ≠ .normal → (t.part.car c).mode = .normal → marks.getD c false = false))
        ∧ s.part.carRecorded t.part c
        ∧ t.part.arr =
            (({ t.part with
              arr := { lanterns := s.part.arr.lanterns.map (s.part.lanternMet t.part c),
                       withdrawn := t.part.arr.withdrawn } } : Part).arrEvaluation c).arr
        ∧ ((s.part.prm.table.map (·.number)).Nodup → s.part.promptsHeld t.part c)
        ∧ (∀ d ∈ s.part.decksOf c,
            (t.part.deck c d).accepted ≠ (s.part.deck c d).accepted ∨ (t.part.deck c d).state ≠ (s.part.deck c d).state
              ∨ (t.part.car c).mode ≠ (s.part.car c).mode ∨ (t.part.car c).drive ≠ (s.part.car c).drive
              ∨ ((t.part.car c).motion = .still ↔ (s.part.car c).motion ≠ .still)
              ∨ (t.part.car c).stops ≠ (s.part.car c).stops →
                s.part.deckShown t.part c d)
        ∧ (∀ (i : Nat) (x : Trigger), s.part.trg[i]? = some (some x) →
            ∃ y : Trigger, t.part.trg[i]? = some (some y) ∧ { y with held := x.held, last := x.last } = x
              ∧ y.last = (if x.source = c then some (x.condition (words.take 15)) else x.last))
        ∧ t.part.sameConfig s.part ∧ t.part.sameClock s.part)
  ∧ (∀ (floors : Nat) (words : List Word), ∃ rest,
      (carStopEntries words).take (min (carStopCount words) 8) = stopsOf floors words ++ rest
        ∧ (∀ f ∈ stopsOf floors words, f < floors) ∧ ∀ f, rest.head? = some f → floors ≤ f)
  ∧ (∀ (window : Nat) (older used : List (Nat × Time)) (old new : Nat × Time), (old :: used).getLast? = some new →
      (∀ x ∈ old :: used, (new.2 - x.2).toNat ≤ window) →
      (∀ x, older.getLast? = some x → window < (new.2 - x.2).toNat) →
        speedOf window (older ++ old :: used) =
          (if new.2 = old.2 then 0
            else min (max ((((new.1 : Int) - (old.1 : Int)) * 1000).tdiv ((new.2 - old.2).toNat : Int)) (-16000)) 16000))
  ∧ ∀ (p q : Part) (c i m : Nat) (words : List Word) (x : Trigger) (e : Message) (now : Bool),
    p.shaped = true → p.trg[i]? = some (some x) → x.source = c → m < Config.maxMessages →
    p.message m = e → x.condition words = now → p.evaluateTrigger c words i = q →
      (now = true ↔
        (if x.all then recordWord words x.word &&& x.mask = x.mask else recordWord words x.word &&& x.mask ≠ 0))
      ∧ (x.last = none → q = { p with trg := p.trg.set i (some { x with last := some now }) })
      ∧ (x.edge = .level → x.last ≠ none → x.action = .activate m →
          (now = true → e.state = .empty → q.message m = e
            ∧ (q.disp.rpt.counter .triggerTarget).toNat
              = min 65535 ((p.disp.rpt.counter .triggerTarget).toNat + 1))
          ∧ (now = true → e.state = .defined →
              q.message m = { e with state := .active, cars := insertCar c e.cars, expiry := p.expiryFor (p.lifetimeOf m) })
          ∧ (now = true → e.state = .active → q.message m = { e with cars := insertCar c e.cars })
          ∧ (now = false → x.last = some true → e.state = .active →
              q.message m =
                (if e.cars.filter (· ≠ c) = [] ∧ e.fields.map (·.filter) = some .source then
                  { e with state := .defined, expiry := none, cars := [] }
                else { e with cars := e.cars.filter (· ≠ c) }))
          ∧ (now = false → (x.last = some false ∨ e.state ≠ .active) → q.message m = e))
      ∧ (x.edge = .level → x.last ≠ none → x.action = .cancel m →
          q.message m =
            (if now = true ∧ e.state = .active then { e with state := .defined, expiry := none, cars := [] } else e))
      ∧ (x.edge ≠ .level →
          ¬((x.last = some false ∧ now = true ∧ x.edge ≠ .fall) ∨ (x.last = some true ∧ now = false ∧ x.edge ≠ .rise)) →
            q = { p with trg := p.trg.set i (some { x with last := some now }) })
      ∧ ((x.edge ≠ .level ∧
          ((x.last = some false ∧ now = true ∧ x.edge ≠ .fall) ∨ (x.last = some true ∧ now = false ∧ x.edge ≠ .rise))) →
          (x.action = .activate m → x.held = true →
            q.message m = e ∧ q.trg = p.trg.set i (some { x with last := some now })
              ∧ (q.disp.rpt.counter .missedTrigger).toNat = min 65535 ((p.disp.rpt.counter .missedTrigger).toNat + 1)
              ∧ q.disp.rpt.waiting = (p.disp.rpt.hand p.now (repTriggerMissed i c m)).waiting)
          ∧ (x.action = .activate m → x.held = false → e.state = .empty →
              q.message m = e ∧ q.trg = p.trg.set i (some { x with last := some now })
                ∧ (q.disp.rpt.counter .triggerTarget).toNat
                  = min 65535 ((p.disp.rpt.counter .triggerTarget).toNat + 1))
          ∧ (x.action = .activate m → x.held = false → e.state ≠ .empty →
              q.message m =
                  { e with state := .active, cars := insertCar c e.cars, expiry := p.expiryFor (p.lifetimeOf m) }
                ∧ q.trg = p.trg.set i (some { x with held := true, last := some now }))
          ∧ (x.action = .cancel m →
              q.message m = (if e.state = .active then { e with state := .defined, expiry := none, cars := [] } else e))
          ∧ (x.action = .report → q.msg = p.msg
              ∧ q.disp.rpt.waiting = (p.disp.rpt.hand p.now (repTriggerFired i c now)).waiting))
      ∧ (∀ m', x.action ≠ .activate m' → x.action ≠ .cancel m' → q.message m' = p.message m')
      ∧ q.txf = p.txf ∧ q.ovr = p.ovr ∧ q.sameTraffic p ∧ q.sameConfig p ∧ q.sameClock p

/-- CAR_RECORD, each deck (R23 to R29, R32 to R34): the deck position is the clamped position plus the deck offset; the
candidate is chosen by the motion. STILL: the floor whose zone holds the deck; between zones the accepted floor, and without
one the floor nearest. Moving up: the highest floor the lead and the zone reach, never below the accepted floor; moving down
alike from above. The candidate joins the history of 8; it is accepted at once without an accepted floor and
while moving, and at rest when it stands often enough in the newest of the history. The indication state follows. The visit
record: AT_FLOOR at its floor the visit continues, at another a new one begins, and its door-opened flag is set when the doors
stand OPENING or OPEN; MOVING or EXPRESS ends it; BETWEEN leaves it. -/
def Obligations.CarRecordEvaluatesDecks : Prop :=
  ∀ (s : State) (a : Addr) (data : Word) (be : BitVec 4) (c d : Nat) (words : List Word) (cfg : CarConfig)
    (old : Deck) (floors : Nat),
    s.Takes a data be 0 c words → s.part.shaped = true → c < Config.maxCars → s.part.carConfig c = some cfg →
    d < cfg.decks → cfg.decks ≤ 2 → s.part.deck c d = old → s.part.floorCount = floors →
      ∃ t x candidate accepted, exec (.carRecord a data be) s = .next t
        ∧ x = clampPosition (carPosition words) + (if d = 0 then 0 else cfg.spacing)
        ∧ (t.part.deck c d).position = x
        ∧ ((t.part.car c).motion = .still →
            (∀ k < floors, distance x (s.part.level k) ≤ cfg.zone →
              (∀ k' < k, cfg.zone < distance x (s.part.level k')) → candidate = k)
            ∧ ((∀ k < floors, cfg.zone < distance x (s.part.level k)) →
                (∀ f, old.accepted = some f → candidate = f)
                ∧ (old.accepted = none → 0 < floors → candidate < floors ∧ ∀ k < floors,
                    distance x (s.part.level candidate) < distance x (s.part.level k)
                      ∨ (distance x (s.part.level candidate) = distance x (s.part.level k) ∧ candidate ≤ k))))
        ∧ ((t.part.car c).motion = .movingUp →
            ∃ reach, candidate = max reach (old.accepted.getD 0)
              ∧ (reach = 0 ∨ (reach < floors ∧ s.part.level reach ≤ x + (t.part.car c).lead + cfg.zone))
              ∧ ∀ k < floors, reach < k → x + (t.part.car c).lead + cfg.zone < s.part.level k)
        ∧ ((t.part.car c).motion = .movingDown →
            ∃ reach, candidate = min reach (old.accepted.getD reach)
              ∧ (reach = floors - 1 ∨ (reach < floors ∧ x ≤ s.part.level reach + cfg.zone + (t.part.car c).lead))
              ∧ ∀ k < floors, k < reach → s.part.level k + cfg.zone + (t.part.car c).lead < x)
        ∧ (t.part.deck c d).candidates = pushHistory old.candidates candidate
        ∧ (t.part.deck c d).accepted = some accepted
        ∧ (old.accepted = none ∨ (t.part.car c).motion ≠ .still → accepted = candidate)
        ∧ (∀ f, old.accepted = some f → (t.part.car c).motion = .still →
            accepted =
              (if cfg.deglitch.pair.1 ≤ (newest cfg.deglitch.pair.2 (t.part.deck c d).candidates).countP (· = candidate) then
                candidate else f))
        ∧ (t.part.deck c d).state =
            (if (t.part.car c).motion = .still then
              if distance (t.part.deck c d).position (s.part.level accepted) ≤ cfg.zone
                  ∧ s.part.serves c d accepted = true then .atFloor else .between
            else if s.part.serves c d accepted = true then .moving else .express)
        ∧ ((t.part.deck c d).state = .atFloor →
            (t.part.deck c d).visit = some accepted
              ∧ (t.part.deck c d).opened =
                (((t.part.car c).door = .opening || (t.part.car c).door = .opened)
                  || (old.visit = some accepted && old.opened)))
        ∧ ((t.part.deck c d).state = .between →
            (t.part.deck c d).visit = old.visit ∧ (t.part.deck c d).opened = old.opened)
        ∧ ((t.part.deck c d).state = .moving ∨ (t.part.deck c d).state = .express →
            (t.part.deck c d).visit = none ∧ (old.visit ≠ none → (t.part.deck c d).opened = false))

/-- ASSIGN_NEW (R61, R62, R64 to R69): a NEW that passes its checks, with room in the table, makes a live entry of the
record's values, newest in take order, which joins its terminal's queue; alone there it is SHOWING for prompt_show_ms, doubled
when step-free. No other entry's car, deck, floors, order or phase changes. In a queue that holds 1 to 3 references it is
QUEUED in its ordered place behind the head, which stays as it is: a step-free reference after the step-free ones that wait,
any other at the end. In a queue that already holds 4 references the head's showing is cut short: it leaves the queue and
stays live, the new reference joins in its ordered place, and the first of the 4 is SHOWING for prompt_busy_ms, doubled when
step-free. In a full table the WAITING entry of lowest take order whose prompt state is NONE makes room: it leaves, is counted
and reported as displaced, and the entry is created in the freed place. -/
def Obligations.AssignNewCompletes : Prop :=
  (∀ (s : State) (a : Addr) (data : Word) (be : BitVec 4) (slot : Nat) (words : List Word) (n : NodeConfig),
    s.Takes a data be 2 slot words → s.part.atRest → s.part.queueLaw → assignKind words = 1 →
    s.part.terminalNode (assignTerminal words) = some n → s.part.governing n = none →
    s.part.checkCar (assignCar words) (assignDeck words) n.floor (assignDestination words) = none →
    s.part.assignment (assignNumber words) = none → s.part.prm.table.length < Config.maxAssignments →
      ∃ t e, exec (.assignNew a data be) s = .next t ∧ t.mem = writeWord s.mem a data be
        ∧ t.part.assignment (assignNumber words) = some e ∧ e.prompt ≠ .none
        ∧ e.core =
            { number := assignNumber words, order := s.part.prm.nextOrder, terminal := assignTerminal words,
              boarding := n.floor, destination := assignDestination words, car := assignCar words,
              deck := assignDeck words, stepFree := assignStepFree words, created := s.part.now,
              isBoarding := s.part.standsOpenAt (assignCar words) (assignDeck words) n.floor, prompt := .none,
              deadline := none, estimate := none }
        ∧ t.part.prm.table.map (·.core) = s.part.prm.table.map (·.core) ++ [e.core]
        ∧ t.part.prm.nextOrder = s.part.prm.nextOrder + 1
        ∧ assignNumber words ∈ t.part.queueOf (assignTerminal words)
        ∧ (s.part.queueOf (assignTerminal words) = [] →
            e.prompt = .showing ∧ e.deadline =
              some (s.part.after
                (if assignStepFree words then 2 * s.part.params.promptShowMs else s.part.params.promptShowMs)))
        ∧ (∀ head rest, s.part.queueOf (assignTerminal words) = head :: rest → rest.length + 1 < Config.queueLimit →
            t.part.queueOf (assignTerminal words) =
                head ::
                  (if assignStepFree words then
                    rest.takeWhile s.part.isStepFree ++ assignNumber words :: rest.dropWhile s.part.isStepFree
                  else rest ++ [assignNumber words])
              ∧ e.prompt = .queued ∧ e.deadline = none ∧ t.part.assignment head = s.part.assignment head)
        ∧ (∀ head rest, s.part.queueOf (assignTerminal words) = head :: rest → rest.length + 1 = Config.queueLimit →
            (∃ x, t.part.assignment head = some x ∧ x.prompt = .none ∧ x.deadline = none ∧ x.estimate = none)
              ∧ t.part.queueOf (assignTerminal words) =
                (if assignStepFree words then
                  rest.takeWhile s.part.isStepFree ++ assignNumber words :: rest.dropWhile s.part.isStepFree
                else rest ++ [assignNumber words])
              ∧ ∃ first x, (t.part.queueOf (assignTerminal words)).head? = some first
                ∧ t.part.assignment first = some x ∧ x.prompt = .showing
                ∧ x.deadline = some (s.part.after ((if x.stepFree then 2 else 1) * s.part.params.promptBusyMs)))
        ∧ t.part.trk = s.part.trk ∧ t.part.arr = s.part.arr ∧ t.part.sameTexts s.part
        ∧ t.part.sameConfig s.part ∧ t.part.sameClock s.part)
  ∧ ∀ (s : State) (a : Addr) (data : Word) (be : BitVec 4) (slot : Nat) (words : List Word) (n : NodeConfig)
    (v : Assignment),
    s.Takes a data be 2 slot words → s.part.atRest → s.part.shaped = true → s.part.queueLaw → assignKind words = 1 →
    s.part.terminalNode (assignTerminal words) = some n → s.part.governing n = none →
    s.part.checkCar (assignCar words) (assignDeck words) n.floor (assignDestination words) = none →
    s.part.assignment (assignNumber words) = none → Config.maxAssignments ≤ s.part.prm.table.length →
    v ∈ s.part.prm.table → v.isBoarding = false → v.prompt = .none →
    (∀ x ∈ s.part.prm.table, x ≠ v → x.isBoarding = false → x.prompt = .none → v.order < x.order) →
      ∃ t e, exec (.assignNew a data be) s = .next t ∧ t.mem = writeWord s.mem a data be
        ∧ t.part.assignment (assignNumber words) = some e ∧ e.prompt ≠ .none ∧ e.order = s.part.prm.nextOrder
        ∧ t.part.prm.table.map (·.core) =
            (s.part.prm.table.filter (fun x => x.number ≠ v.number)).map (·.core) ++ [e.core]
        ∧ t.part.prm.nextOrder = s.part.prm.nextOrder + 1
        ∧ (t.part.disp.rpt.counter .displaced).toNat
            = min 65535 ((s.part.disp.rpt.counter .displaced).toNat + 1)
        ∧ t.part.disp.rpt.waiting = (s.part.disp.rpt.hand s.part.now (repRetiredDisplaced v.number)).waiting
        ∧ t.part.trk = s.part.trk ∧ t.part.arr = s.part.arr ∧ t.part.sameTexts s.part
        ∧ t.part.sameConfig s.part ∧ t.part.sameClock s.part

/-- A NEW or REASSIGN that fails a check of R62, R64 or R74 is counted and reported with its first reason and changes no
assignment; a NEW for a full table in which nothing can be displaced is refused with TABLE_FULL. A NEW for a terminal
in the scope of a channel that is ACTIVE or LATCHED is dropped: counted, charged to the lowest such channel, and reported
when it is the first since the channel's activation (R63). A NEW takes its place in the take order all the same (R61, Table 4-1).
Checks 3 to 5 themselves, in their order: BAD_CAR when the car is not configured or the deck not one of its decks; else NOT_SERVED
when the deck does not serve the boarding floor or the destination, or these are the same floor; else CAR_WITHDRAWN under PRM's
withdrawn mark. -/
def Obligations.AssignRefusalCompletes : Prop :=
  (∀ (p : Part) (car deck boarding destination : Nat),
    ((∀ cfg, p.carConfig car = some cfg → cfg.decks ≤ deck) →
      p.checkCar car deck boarding destination = some .badCar)
    ∧ ∀ cfg, p.carConfig car = some cfg → deck < cfg.decks →
        p.checkCar car deck boarding destination =
          (if p.serves car deck boarding = false ∨ p.serves car deck destination = false ∨ destination = boarding then
            some .notServed
          else if p.prm.withdrawn.getD car false then some .carWithdrawn else none))
  ∧
  (∀ (c : Instr) (s : State) (a : Addr) (data : Word) (be : BitVec 4) (slot : Nat) (words : List Word)
    (why : AssignReason),
    c ∈ busWrites a data be → s.Takes a data be 2 slot words → s.part.atRest → s.part.shaped = true →
    ((assignKind words = 1 ∧ s.part.terminalNode (assignTerminal words) = none ∧ why = .badTerminal)
      ∨ (assignKind words = 1 ∧ ∃ n, s.part.terminalNode (assignTerminal words) = some n ∧ s.part.governing n = none
          ∧ s.part.checkCar (assignCar words) (assignDeck words) n.floor (assignDestination words) = some why)
      ∨ (assignKind words = 1 ∧ ∃ n, s.part.terminalNode (assignTerminal words) = some n ∧ s.part.governing n = none
          ∧ s.part.checkCar (assignCar words) (assignDeck words) n.floor (assignDestination words) = none
          ∧ (s.part.assignment (assignNumber words)).isSome = true ∧ why = .duplicate)
      ∨ (assignKind words = 1 ∧ ∃ n, s.part.terminalNode (assignTerminal words) = some n ∧ s.part.governing n = none
          ∧ s.part.checkCar (assignCar words) (assignDeck words) n.floor (assignDestination words) = none
          ∧ s.part.assignment (assignNumber words) = none ∧ Config.maxAssignments ≤ s.part.prm.table.length
          ∧ (∀ x ∈ s.part.prm.table, x.isBoarding = true ∨ x.prompt ≠ .none) ∧ why = .tableFull)
      ∨ (assignKind words = 3 ∧ ∃ e, s.part.assignment (assignNumber words) = some e
          ∧ s.part.checkCar (assignCar words) (assignDeck words) e.boarding e.destination = some why)) →
      ∃ t, exec c s = .next t ∧ t.mem = writeWord s.mem a data be
        ∧ (t.part.disp.rpt.counter .assignRefusal).toNat
            = min 65535 ((s.part.disp.rpt.counter .assignRefusal).toNat + 1)
        ∧ t.part.disp.rpt.waiting =
            (s.part.disp.rpt.hand s.part.now (repAssignRefused (assignKind words) (assignNumber words) why)).waiting
        ∧ t.part.trk = s.part.trk ∧ t.part.arr = s.part.arr
        ∧ t.part.prm =
            { s.part.prm with nextOrder := s.part.prm.nextOrder + (if assignKind words = 1 then 1 else 0) }
        ∧ t.part.sameTexts s.part ∧ t.part.sameLinks s.part
        ∧ t.part.sameConfig s.part ∧ t.part.sameClock s.part)
  ∧ ∀ (s : State) (a : Addr) (data : Word) (be : BitVec 4) (slot k : Nat) (words : List Word) (n : NodeConfig),
    s.Takes a data be 2 slot words → s.part.atRest → s.part.shaped = true → assignKind words = 1 →
    s.part.terminalNode (assignTerminal words) = some n → s.part.governing n = some k →
      ∃ t, exec (.assignNew a data be) s = .next t ∧ t.mem = writeWord s.mem a data be
        ∧ (t.part.disp.rpt.counter .dropped).toNat = min 65535 ((s.part.disp.rpt.counter .dropped).toNat + 1)
        ∧ t.part.disp.rpt.counter .assignRefusal = s.part.disp.rpt.counter .assignRefusal
        ∧ t.part.disp.rpt.waiting =
            (if s.part.prm.dropReported.getD k false then s.part.disp.rpt.waiting
            else (s.part.disp.rpt.hand s.part.now
              (repAssignDropped (assignTerminal words) n.ring n.position k (assignNumber words))).waiting)
        ∧ t.part.prm =
            { s.part.prm with
              nextOrder := s.part.prm.nextOrder + 1, dropReported := s.part.prm.dropReported.set k true }
        ∧ t.part.trk = s.part.trk ∧ t.part.arr = s.part.arr ∧ t.part.sameTexts s.part ∧ t.part.sameLinks s.part
        ∧ t.part.sameConfig s.part ∧ t.part.sameClock s.part

/-- ASSIGN_CANCEL (R72, R73): the live entry with the record's number leaves the table and its queue and no other entry
does; when none carries the number the unknown number counter rises by one and nothing else. -/
def Obligations.AssignCancelCompletes : Prop :=
  ∀ (s : State) (a : Addr) (data : Word) (be : BitVec 4) (slot : Nat) (words : List Word),
    s.Takes a data be 2 slot words → s.part.atRest → s.part.shaped = true → assignKind words = 2 →
      ∃ t, exec (.assignCancel a data be) s = .next t ∧ t.mem = writeWord s.mem a data be
        ∧ t.part.prm.table.map (·.core) =
            (s.part.prm.table.filter (fun x => x.number ≠ assignNumber words)).map (·.core)
        ∧ ((s.part.assignment (assignNumber words)).isSome = true → ∀ j, assignNumber words ∉ t.part.queueOf j)
        ∧ (s.part.assignment (assignNumber words) = none →
            t.part.prm = s.part.prm ∧ t.part.sameLinks s.part
              ∧ (t.part.disp.rpt.counter .unknownNumber).toNat
                  = min 65535 ((s.part.disp.rpt.counter .unknownNumber).toNat + 1))
        ∧ t.part.disp.rpt.waiting = s.part.disp.rpt.waiting
        ∧ t.part.trk = s.part.trk ∧ t.part.arr = s.part.arr ∧ t.part.sameTexts s.part
        ∧ t.part.sameConfig s.part ∧ t.part.sameClock s.part

/-- ASSIGN_REASSIGN (R74): a REASSIGN that passes its checks gives the entry the record's car and deck, with the phase they
give, and leaves every other entry and every prompt state; one that names the car and deck the entry has changes nothing and
hands nothing. When no live entry carries the number the record is ignored: the unknown number counter rises by one and
nothing else. -/
def Obligations.AssignReassignCompletes : Prop :=
  (∀ (s : State) (a : Addr) (data : Word) (be : BitVec 4) (slot : Nat) (words : List Word) (e : Assignment),
    s.Takes a data be 2 slot words → s.part.atRest → assignKind words = 3 →
    s.part.assignment (assignNumber words) = some e →
    s.part.checkCar (assignCar words) (assignDeck words) e.boarding e.destination = none →
      ∃ t, exec (.assignReassign a data be) s = .next t ∧ t.mem = writeWord s.mem a data be
        ∧ t.part.prm.table.map (·.core) =
            s.part.prm.table.map (fun x =>
              if x.number = assignNumber words ∧ ¬(e.car = assignCar words ∧ e.deck = assignDeck words) then
                { x.core with
                  car := assignCar words
                  deck := assignDeck words
                  isBoarding := s.part.standsOpenAt (assignCar words) (assignDeck words) e.boarding }
              else x.core)
        ∧ t.part.prm.table.map (·.prompt) = s.part.prm.table.map (·.prompt)
        ∧ t.part.prm.table.map (·.deadline) = s.part.prm.table.map (·.deadline)
        ∧ t.part.prm.queues = s.part.prm.queues ∧ t.part.disp.rpt.waiting = s.part.disp.rpt.waiting
        ∧ (e.car = assignCar words → e.deck = assignDeck words →
            t.part.prm = s.part.prm ∧ t.part.disp = s.part.disp ∧ t.part.sameLinks s.part)
        ∧ t.part.trk = s.part.trk ∧ t.part.arr = s.part.arr ∧ t.part.sameTexts s.part
        ∧ t.part.sameConfig s.part ∧ t.part.sameClock s.part)
  ∧ ∀ (s : State) (a : Addr) (data : Word) (be : BitVec 4) (slot : Nat) (words : List Word),
    s.Takes a data be 2 slot words → s.part.atRest → s.part.shaped = true → assignKind words = 3 →
    s.part.assignment (assignNumber words) = none →
      ∃ t, exec (.assignReassign a data be) s = .next t ∧ t.mem = writeWord s.mem a data be
        ∧ t.part.prm = s.part.prm ∧ t.part.sameLinks s.part
        ∧ (t.part.disp.rpt.counter .unknownNumber).toNat
            = min 65535 ((s.part.disp.rpt.counter .unknownNumber).toNat + 1)
        ∧ t.part.disp.rpt.waiting = s.part.disp.rpt.waiting
        ∧ t.part.trk = s.part.trk ∧ t.part.arr = s.part.arr ∧ t.part.sameTexts s.part
        ∧ t.part.sameConfig s.part ∧ t.part.sameClock s.part

/-- MESSAGE_DEFINE and MESSAGE_ACTIVATE (R86 to R89, R91): a record that passes the checks stores its fields; DEFINE makes an
EMPTY entry DEFINED and leaves the state and expiry of another, ACTIVATE makes the entry ACTIVE with the expiry its
lifetime gives. No other entry's state, fields, expiry or active-car set changes. The text: while it is READY or PENDING
under the same reference nothing is done; otherwise its range leaves the watch, an earlier job of it is abandoned with its
read, and a job for the new reference stands at the tail of the list, the text PENDING with its bytes and version kept. A
job with none ahead is checked at once, and a reference that fails puts the text in FAULT (R98, R101). -/
def Obligations.MessageStoreCompletes : Prop :=
  ∀ (c : Instr) (s : State) (a : Addr) (data : Word) (be : BitVec 4) (m : Nat) (words : List Word)
    (ref : TextRef) (others : List Job),
    s.Takes a data be 1 m words → s.part.shaped = true → m < Config.maxMessages → s.part.badMessage words = false →
    (c = .messageDefine a data be ∧ messageRequest words = 1)
      ∨ (c = .messageActivate a data be ∧ messageRequest words = 2) →
    ref = (messageFields words).ref → others = s.part.txf.jobs.filter (fun j => j.owner ≠ .message m) →
      ∃ t, exec c s = .next t ∧ t.mem = writeWord s.mem a data be
        ∧ (t.part.message m).fields = some (messageFields words)
        ∧ (t.part.message m).cars = (s.part.message m).cars
        ∧ (t.part.message m).state =
            (if messageRequest words = 2 then .active
              else if (s.part.message m).state = .empty then .defined else (s.part.message m).state)
        ∧ (t.part.message m).expiry =
            (if messageRequest words = 2 then
              if (messageFields words).lifetime = 0 then none
              else some (s.part.after ((messageFields words).lifetime * 1000))
            else (s.part.message m).expiry)
        ∧ (s.part.atRest → (s.part.message m).fields.map (·.ref) = some ref →
            (s.part.message m).text.status = some .ready ∨ (s.part.message m).text.status = some .pending →
              (t.part.message m).text = (s.part.message m).text ∧ t.part.txf = s.part.txf)
        ∧ (s.part.atRest →
            ¬((s.part.message m).fields.map (·.ref) = some ref
                ∧ ((s.part.message m).text.status = some .ready ∨ (s.part.message m).text.status = some .pending)) →
              (∀ r ∈ t.part.txf.ready, r.owner ≠ .message m)
                ∧ (s.part.txf.headIs (.message m) = true → ∀ r, s.part.txf.read = some r →
                    t.part.txf.read = some { r with discard := true })
                ∧ (∀ x x' more, others = x :: more →
                    (if x.phase = .waiting then s.part.checkJob x = .ok x' else x' = x) →
                      t.part.txf.jobs = x' :: more ++ [Job.fresh (.message m) ref]
                        ∧ (t.part.message m).text = { (s.part.message m).text with status := some .pending })
                ∧ (∀ j, others = [] → s.part.checkJob (Job.fresh (.message m) ref) = .ok j →
                    t.part.txf.jobs = [j]
                      ∧ (t.part.message m).text = { (s.part.message m).text with status := some .pending })
                ∧ ∀ cause, others = [] → s.part.checkJob (Job.fresh (.message m) ref) = .error cause →
                    t.part.txf.jobs = []
                      ∧ (t.part.message m).text = { (s.part.message m).text with status := some .fault })
        ∧ (∀ m', m' ≠ m → (t.part.message m').state = (s.part.message m').state
            ∧ (t.part.message m').fields = (s.part.message m').fields
            ∧ (t.part.message m').expiry = (s.part.message m').expiry
            ∧ (t.part.message m').cars = (s.part.message m').cars)
        ∧ t.part.sameTraffic s.part ∧ t.part.trg = s.part.trg
        ∧ t.part.sameConfig s.part ∧ t.part.sameClock s.part

/-- MESSAGE_CANCEL (R90, R93): an ACTIVE entry becomes DEFINED without expiry or active cars and releases the triggers
HELD on it; a DEFINED or EMPTY entry stays. Nothing else of the messages changes and no report is made. MESSAGE_CLEAR (R90): a
DEFINED or ACTIVE entry becomes EMPTY, its fields and text discarded but for the text version, and no fetch job or watched range
of it remains; an EMPTY entry stays. No other entry's state or fields change. -/
def Obligations.MessageEndsComplete : Prop :=
  (∀ (s : State) (a : Addr) (data : Word) (be : BitVec 4) (m : Nat) (words : List Word),
    s.Takes a data be 1 m words → s.part.atRest → messageRequest words = 3 →
      ∃ t, exec (.messageCancel a data be) s = .next t ∧ t.mem = writeWord s.mem a data be
        ∧ t.part.msg =
            (if (s.part.message m).state = .active then
              s.part.msg.set m { s.part.message m with state := .defined, expiry := none, cars := [] }
            else s.part.msg)
        ∧ t.part.trg =
            (if (s.part.message m).state = .active then s.part.trg.map (releaseTriggers m) else s.part.trg)
        ∧ t.part.txf = s.part.txf ∧ t.part.ovr = s.part.ovr ∧ t.part.sameTraffic s.part
        ∧ t.part.disp.rpt.waiting = s.part.disp.rpt.waiting
        ∧ t.part.sameConfig s.part ∧ t.part.sameClock s.part)
  ∧ ∀ (s : State) (a : Addr) (data : Word) (be : BitVec 4) (m : Nat) (words : List Word),
    s.Takes a data be 1 m words → s.part.atRest → s.part.shaped = true → m < Config.maxMessages →
    messageRequest words = 4 →
      ∃ t, exec (.messageClear a data be) s = .next t ∧ t.mem = writeWord s.mem a data be
        ∧ ((s.part.message m).state = .empty → t.part.sameTexts s.part)
        ∧ ((s.part.message m).state ≠ .empty →
            t.part.message m =
                { state := .empty, fields := none, expiry := none, cars := [],
                  text := { status := none, buffer := [], version := (s.part.message m).text.version } }
              ∧ (∀ j ∈ t.part.txf.jobs, j.owner ≠ .message m) ∧ ∀ r ∈ t.part.txf.ready, r.owner ≠ .message m)
        ∧ (∀ m', m' ≠ m → (t.part.message m').state = (s.part.message m').state
            ∧ (t.part.message m').fields = (s.part.message m').fields)
        ∧ t.part.sameTraffic s.part ∧ t.part.sameConfig s.part ∧ t.part.sameClock s.part

/-- OVERRIDE_ACTIVATE and OVERRIDE_RELEASE (R129, R131, R133): a record whose four codes are recognised gives each memory
request its code's value; a request that becomes asserted, or a changed one beside an asserted line, activates a channel that
was OFF; a release leaves the latch as it stands. Each changed request hands the channel's status record (R138). A channel
that leaves OFF flushes the terminals in its scope, which is reported when an entry left, clears its drop-reported mark (R79),
has every region recomposed (R122) and reports OVERRIDE_ON with the sources asserted. Lines, samples and configurations stay.
-/
def Obligations.OverrideRecordCompletes : Prop :=
  ∀ (c : Instr) (s : State) (a : Addr) (data : Word) (be : BitVec 4) (words : List Word),
    c = .overrideActivate a data be ∨ c = .overrideRelease a data be →
    s.Takes a data be 3 0 words → s.part.atRest → s.part.shaped = true →
    (∀ n < Config.channels, overrideCode words n ≤ 2) →
      ∃ t, exec c s = .next t ∧ t.mem = writeWord s.mem a data be
        ∧ (∀ n < Config.channels,
            (t.part.channel n).memory =
                (if overrideCode words n = 1 then true
                  else if overrideCode words n = 2 then false else (s.part.channel n).memory)
              ∧ (t.part.channel n).accepted = (s.part.channel n).accepted
              ∧ (t.part.channel n).samples = (s.part.channel n).samples
              ∧ (t.part.channel n).config = (s.part.channel n).config
              ∧ (t.part.channel n).latch =
                  ((s.part.channel n).latch
                    || ((t.part.channel n).memory != (s.part.channel n).memory
                      && ((t.part.channel n).accepted || (t.part.channel n).memory)))
              ∧ ((t.part.channel n).memory ≠ (s.part.channel n).memory →
                  t.part.disp.rpt.handed (channelRecordIndex n) (channelStatus (t.part.channel n))))
        ∧ s.part.activations t.part
        ∧ t.part.trk = s.part.trk ∧ t.part.msg = s.part.msg ∧ t.part.txf = s.part.txf ∧ t.part.trg = s.part.trg
        ∧ t.part.sameConfig s.part ∧ t.part.sameClock s.part

/-! ### Texts (R97 to R103) -/

/-- TEXT_AREA_WRITE (R98, R102, R103): a write into a TEXT_AREA window that touches no watched range changes nothing of the
part but the pass-over counts. One into the head job's range discards the outstanding read and restarts the job without
the bytes it had: while other jobs wait it stands WAITING at the tail and the next job is checked and goes on; alone it stays
at the head and is checked again at once, going on from its start address, or faulting when its reference no longer passes.
One into a READY range takes the range from the watch and appends a fresh job, behind a head job that
goes on. Every text shown so far keeps its bytes and version. -/
def Obligations.TextAreaWriteCompletes : Prop :=
  ∀ (s : State) (a : Addr) (data : Word) (be : BitVec 4),
    s.portFree = true → s.part.atRest → s.part.path.take = none → s.part.path.inAnchor a.toNat = false →
    s.part.path.slotWord a.toNat = none → s.part.path.inTextArea a.toNat = true →
      ∃ t, exec (.textAreaWrite a data be) s = .next t ∧ t.mem = writeWord s.mem a data be
        ∧ ((∀ o ∈ textOwners, s.part.txf.headCovers o a.toNat = false ∧ s.part.txf.readyCovers o a.toNat = false) →
            t.part = s.part.onPath (·.passOver))
        ∧ (∀ j rest, s.part.txf.jobs = j :: rest → j.owner ∈ textOwners → j.covers a.toNat = true →
            t.part.txf.read = s.part.txf.read.map (fun r => { r with discard := true })
              ∧ (∀ x x' more, rest = x :: more → x.phase = .waiting → s.part.checkJob x = .ok x' →
                  t.part.txf.jobs.head? = some x' ∧ Job.fresh j.owner j.ref ∈ t.part.txf.jobs
                    ∧ (Job.fresh j.owner j.ref).phase = .waiting ∧ (Job.fresh j.owner j.ref).fill = []
                    ∧ ((∀ o ∈ textOwners, s.part.txf.readyCovers o a.toNat = false) →
                        t.part.txf.jobs = x' :: more ++ [Job.fresh j.owner j.ref]))
              ∧ (∀ j', rest = [] → (∀ o ∈ textOwners, s.part.txf.readyCovers o a.toNat = false) →
                  s.part.checkJob (Job.fresh j.owner j.ref) = .ok j' →
                    t.part.txf.jobs = [j'] ∧ j'.owner = j.owner ∧ j'.ref = j.ref ∧ j'.phase ≠ .waiting ∧ j'.fill = []
                      ∧ j'.address = j'.start)
              ∧ (∀ cause, rest = [] → (∀ o ∈ textOwners, s.part.txf.readyCovers o a.toNat = false) →
                  s.part.shaped = true → s.part.checkJob (Job.fresh j.owner j.ref) = .error cause →
                    t.part.txf.jobs = []
                      ∧ t.part.ownerText j.owner = { s.part.ownerText j.owner with status := some .fault }))
        ∧ (∀ o ref, o ∈ textOwners → s.part.txf.readyCovers o a.toNat = true →
            (∀ o', s.part.txf.headCovers o' a.toNat = false) → s.part.ownerRef o = some ref →
              (∀ r ∈ t.part.txf.ready, r.owner ≠ o)
                ∧ (s.part.txf.jobs ≠ [] → Job.fresh o ref ∈ t.part.txf.jobs))
        ∧ (∀ o ∈ textOwners, (t.part.ownerText o).buffer = (s.part.ownerText o).buffer
            ∧ (t.part.ownerText o).version = (s.part.ownerText o).version)
        ∧ t.part.sameTraffic s.part ∧ t.part.trg = s.part.trg ∧ t.part.sameConfig s.part ∧ t.part.sameClock s.part

/-- TEXT_READ (R97 to R101): in its turn, a text read gives the head job in TEXT the bytes of the word in memory; with
bytes still to come the next word's read follows, and with none left the text is READY with the gathered bytes under the
next version and its range is watched. In LENGTH the first byte is the length: of 0 or above 96 the text faults with LENGTH, of a
length whose words pass the window's end with BOUNDS; otherwise the other bytes of the word are the first of the
text, which goes on in TEXT or is complete. The data of a read to be discarded is not used. A job that becomes head is
checked: its area select, its start, and the end of a text of given length, of which at most 96 bytes are read. A fault takes
the job from the list and its range from the watch, keeps the bytes and version, and is reported. -/
def Obligations.TextReadCompletes : Prop :=
  (∀ (s : State) (j : Job) (rest : List Job) (r : TextRead) (w : Word) (n : Nat),
    s.part.path.ownNext = some .text → s.part.atRest → s.part.shaped = true → s.part.txf.jobs = j :: rest →
    j.owner ∈ textOwners → s.part.txf.read = some r → readWord s.mem (wordAddr r.address) = w →
    (byteAt w 0).toNat = n →
      ∃ t, exec .textRead s = .next t ∧ t.mem = s.mem
        ∧ (r.discard = false → j.phase = .text → 4 < j.left →
            t.part.txf.jobs =
                { j with fill := j.fill ++ wordBytes w, left := j.left - 4, address := j.address + 1 } :: rest
              ∧ t.part.txf.read = some { address := j.address + 1, discard := false }
              ∧ t.part.msg = s.part.msg ∧ t.part.ovr = s.part.ovr)
        ∧ (r.discard = false → j.phase = .text → j.left ≤ 4 →
            t.part.ownerText j.owner =
                { status := some .ready, buffer := j.fill ++ (wordBytes w).take j.left,
                  version := (s.part.ownerText j.owner).version + 1 }
              ∧ { owner := j.owner, start := j.start, words := j.words } ∈ t.part.txf.ready
              ∧ ∀ x ∈ t.part.txf.jobs, x.owner ≠ j.owner)
        ∧ (r.discard = false → j.phase = .length → ∀ cause,
            ((n = 0 ∨ 96 < n) ∧ cause = TextCause.length)
              ∨ (1 ≤ n ∧ n ≤ 96 ∧ s.part.jobEnd j < j.start + (n + 4) / 4 ∧ cause = TextCause.bounds) →
              t.part.ownerText j.owner = { s.part.ownerText j.owner with status := some .fault }
                ∧ (∀ x ∈ t.part.txf.jobs, x.owner ≠ j.owner) ∧ (∀ x ∈ t.part.txf.ready, x.owner ≠ j.owner)
                ∧ (s.part.disp.rpt.hand s.part.now (repTextFault j.owner cause)).waiting <+: t.part.disp.rpt.waiting)
        ∧ (r.discard = false → j.phase = .length → 3 < n → n ≤ 96 → j.start + (n + 4) / 4 ≤ s.part.jobEnd j →
            t.part.txf.jobs =
                { j with
                  phase := .text
                  words := (n + 4) / 4
                  left := n - 3
                  address := j.address + 1
                  fill := j.fill ++ [byteAt w 1, byteAt w 2, byteAt w 3] } :: rest
              ∧ t.part.txf.read = some { address := j.address + 1, discard := false }
              ∧ t.part.msg = s.part.msg ∧ t.part.ovr = s.part.ovr)
        ∧ (r.discard = false → j.phase = .length → 1 ≤ n → n ≤ 3 → j.start + (n + 4) / 4 ≤ s.part.jobEnd j →
            t.part.ownerText j.owner =
                { status := some .ready, buffer := j.fill ++ [byteAt w 1, byteAt w 2, byteAt w 3].take n,
                  version := (s.part.ownerText j.owner).version + 1 }
              ∧ { owner := j.owner, start := j.start, words := 1 } ∈ t.part.txf.ready
              ∧ ∀ x ∈ t.part.txf.jobs, x.owner ≠ j.owner)
        ∧ (r.discard = true →
            t.part.txf.jobs = s.part.txf.jobs ∧ t.part.txf.read = some { address := j.address, discard := false }
              ∧ t.part.msg = s.part.msg ∧ t.part.ovr = s.part.ovr)
        ∧ t.part.sameTraffic s.part ∧ t.part.trg = s.part.trg ∧ t.part.sameConfig s.part ∧ t.part.sameClock s.part)
  ∧ (∀ (p : Part) (j : Job) (rest : List Job) (cause : TextCause), p.shaped = true → p.txf.jobs = j :: rest →
      j.owner ∈ textOwners → j.phase = .waiting → p.checkJob j = .error cause →
      p.txfPump.ownerText j.owner = { p.ownerText j.owner with status := some .fault }
        ∧ (∀ x ∈ p.txfPump.txf.jobs, x.owner ≠ j.owner) ∧ (∀ x ∈ p.txfPump.txf.ready, x.owner ≠ j.owner)
        ∧ (p.disp.rpt.hand p.now (repTextFault j.owner cause)).waiting <+: p.txfPump.disp.rpt.waiting)
  ∧ ∀ (p : Part) (j : Job),
      ((j.ref.area = 3 ∨ ∀ w, p.path.watch[5 + j.ref.area]? = some w → w.present = false) →
        p.checkJob j = .error .area)
      ∧ ∀ w a, j.ref.area ≠ 3 → p.path.watch[5 + j.ref.area]? = some w → w.present = true →
          a = (w.base : Int) + j.ref.offset.toInt →
          ((a < w.base ∨ (w.base + w.length : Nat) ≤ a) → p.checkJob j = .error .bounds)
          ∧ ∀ k : Nat, a = k → w.base ≤ k → k < w.base + w.length →
              (j.ref.length = 0 → ∃ j', p.checkJob j = .ok j' ∧ j'.owner = j.owner ∧ j'.ref = j.ref ∧ j'.phase = .length
                ∧ j'.start = k ∧ j'.address = k ∧ j'.words = 1 ∧ j'.fill = [])
              ∧ (0 < j.ref.length → w.base + w.length < k + (min j.ref.length 96 + 3) / 4 →
                  p.checkJob j = .error .bounds)
              ∧ (0 < j.ref.length → k + (min j.ref.length 96 + 3) / 4 ≤ w.base + w.length →
                  ∃ j', p.checkJob j = .ok j' ∧ j'.owner = j.owner ∧ j'.ref = j.ref ∧ j'.phase = .text ∧ j'.start = k
                    ∧ j'.address = k ∧ j'.words = (min j.ref.length 96 + 3) / 4 ∧ j'.left = min j.ref.length 96
                    ∧ j'.fill = [])

/-! ### The report class (R180, R185, R187) -/

/-- REPORT_ENTRY_WRITE (R180, R181): the four writes of an entry at the producer position: the first takes the head report
from the waiting queue and makes the slot WRITING; the closing word carries the next sequence number and the drop count, makes
the slot UNCONSUMED, asserts ATTN_N, advances the producer and returns the drop count to 0; the writer then chooses its next
sequence (R185). -/
def Obligations.ReportEntryWriteCompletes : Prop :=
  ∀ (s : State) (done base : Nat) (x : Option Report), s.part.path.ownNext = some .report → s.part.atRest →
    s.part.disp.rpt.ringLaw → s.part.disp.rpt.writer = .entry done x → s.part.disp.rpt.area = some base →
      ∃ t, exec .reportEntryWrite s = .next t
        ∧ (∀ e rest, x = none → s.part.disp.rpt.waiting = e :: rest →
            t.mem = writeWhole s.mem (wordAddr (base + 4 * s.part.disp.rpt.producer)) e.word0
              ∧ t.part.disp.rpt.waiting = rest ∧ t.part.disp.rpt.writer = .entry 1 (some e)
              ∧ t.part.disp.rpt.slots = s.part.disp.rpt.slots.set s.part.disp.rpt.producer .writing)
        ∧ (∀ e, x = some e → 1 ≤ done → done < 3 →
            t.mem = writeWhole s.mem (wordAddr (base + 4 * s.part.disp.rpt.producer + done))
                (if done = 1 then e.word1 else e.time)
              ∧ t.part.disp.rpt = { s.part.disp.rpt with writer := .entry (done + 1) (some e) })
        ∧ (∀ e, x = some e → done = 3 →
            t.mem = writeWhole s.mem (wordAddr (base + 4 * s.part.disp.rpt.producer + 3))
                (place 0 (s.part.disp.rpt.sequence + 1).toNat ||| place 16 s.part.disp.rpt.drops.toNat)
              ∧ t.part.disp.rpt.slots = s.part.disp.rpt.slots.set s.part.disp.rpt.producer .unconsumed
              ∧ t.part.disp.rpt.attention = true ∧ t.part.disp.rpt.drops = 0
              ∧ t.part.disp.rpt.producer = (s.part.disp.rpt.producer + 1) % 64
              ∧ t.part.disp.rpt.sequence = s.part.disp.rpt.sequence + 1
              ∧ t.part.disp.rpt =
                  Rpt.choose
                    { s.part.disp.rpt with
                      slots := s.part.disp.rpt.slots.set s.part.disp.rpt.producer .unconsumed
                      attention := true
                      producer := (s.part.disp.rpt.producer + 1) % 64
                      sequence := s.part.disp.rpt.sequence + 1
                      drops := 0
                      writer := .idle
                      lastWrite := .entry }
              ∧ t.part.disp.rpt.waiting = s.part.disp.rpt.waiting)
        ∧ t.part.sameTraffic s.part ∧ t.part.sameTexts s.part ∧ t.part.sameLinks s.part
        ∧ t.part.sameConfig s.part ∧ t.part.sameClock s.part

/-- STATUS_RECORD_WRITE and SERVICE_WORD_WRITE_BACK (R185, R187): in its turn, a status record's write puts its next word in
the record's place in the report area, the last one ending the sequence; a write-back writes the service word as 0. The ring,
its slots and the waiting reports stay. At the end of a sequence the writer chooses the next one (`Rpt.choose`): a write-back
that is due; else, with a report area, an entry and a pending record in alternation when both are possible, the one that is
possible otherwise. The record is the first pending one in table order after the last written, wrapping; its words are taken
from the shadow as it stands, the change count raised by one in the first word and in the closing word, and its pending mark
is cleared. That all this happens at the choice, not at the sequence's first access, and that the choice is made at the end of
the command that makes it possible, is the model's choice (log entry 19, DEDUCED: R185 does not state the moment). -/
def Obligations.RecordWritesComplete : Prop :=
  (∀ r : Rpt,
    (r.writer ≠ .idle → r.choose = r)
      ∧ (r.writer = .idle → r.writeBackDue = true → r.choose = { r with writer := .serviceBack, writeBackDue := false })
      ∧ (r.writer = .idle → r.writeBackDue = false →
          (r.area = none → r.choose = r)
            ∧ (r.area ≠ none →
              (r.noRecordPending → r.reportReady → r.choose = { r with writer := .entry 0 none })
                ∧ (r.noRecordPending → ¬ r.reportReady → r.choose = r)
                ∧ ∀ last i x, r.lastRecord = some last → r.nextPending last i x →
                  (r.reportReady → r.lastWrite = .record → r.choose = { r with writer := .entry 0 none })
                    ∧ (¬ r.reportReady ∨ r.lastWrite = .entry →
                      r.choose =
                        { r with
                          records := r.records.set i { x with count := x.count + 1, pending := false }
                          writer := .record i 0
                            (place 0 (x.count + 1).toNat :: x.fields ++ [place 0 (x.count + 1).toNat]) }))))
  ∧ (∀ (s : State) (i done base : Nat) (words : List Word), s.part.path.ownNext = some .report → s.part.atRest →
    s.part.disp.rpt.writer = .record i done words → s.part.disp.rpt.area = some base →
      ∃ t, exec .statusRecordWrite s = .next t
        ∧ t.mem = writeWhole s.mem (wordAddr (base + recordOffset i + done)) (words.getD done 0)
        ∧ (done + 1 < words.length →
            t.part.disp.rpt = { s.part.disp.rpt with writer := .record i (done + 1) words })
        ∧ (words.length ≤ done + 1 →
            t.part.disp.rpt = Rpt.choose { s.part.disp.rpt with writer := .idle, lastWrite := .record, lastRecord := some i }
              ∧ t.part.disp.rpt.lastRecord = some i ∧ t.part.disp.rpt.lastWrite = .record)
        ∧ t.part.disp.rpt.slots = s.part.disp.rpt.slots ∧ t.part.disp.rpt.waiting = s.part.disp.rpt.waiting
        ∧ t.part.disp.rpt.counters = s.part.disp.rpt.counters
        ∧ t.part.sameTraffic s.part ∧ t.part.sameTexts s.part ∧ t.part.sameLinks s.part
        ∧ t.part.sameConfig s.part ∧ t.part.sameClock s.part)
  ∧ ∀ s : State, s.part.path.ownNext = some .report → s.part.atRest → s.part.disp.rpt.writer = .serviceBack →
      ∃ t, exec .serviceWordWriteBack s = .next t
        ∧ t.mem = writeWhole s.mem (wordAddr s.part.path.serviceAddress) 0
        ∧ t.part.disp.rpt = Rpt.choose { s.part.disp.rpt with writer := .idle }
        ∧ t.part.disp.rpt.slots = s.part.disp.rpt.slots ∧ t.part.disp.rpt.waiting = s.part.disp.rpt.waiting
        ∧ t.part.disp.rpt.counters = s.part.disp.rpt.counters
        ∧ t.part.sameTraffic s.part ∧ t.part.sameTexts s.part ∧ t.part.sameLinks s.part
        ∧ t.part.sameConfig s.part ∧ t.part.sameClock s.part

/-! ### Timers and lines -/

/-- CAR_STALE (R30, R37): at the expiry every deck of the car is STALE, everything else TRK holds of the car is kept, CAR_STALE is
handed, and the car's status record is handed when one of its values changes (R38). What shows a deck of the car stands
composed, and the lanterns and the prompts' held values are what the evaluation notice makes of them (R48, R49, R56); the
assignments and their queues stay. -/
def Obligations.CarStaleCompletes : Prop :=
  ∀ (s : State) (c : Nat), c < Config.maxCars → s.part.atRest → s.part.shaped = true → s.part.staleDue c = true →
    ∃ t, exec (.carStale c) s = .next t ∧ t.mem = s.mem
      ∧ (∀ d ∈ s.part.decksOf c, d < 2 → t.part.deck c d = { s.part.deck c d with state := .stale })
      ∧ (∀ d, d ∉ s.part.decksOf c → t.part.deck c d = s.part.deck c d)
      ∧ { t.part.car c with decks := [] } = { s.part.car c with decks := [] }
      ∧ (∀ c', c' ≠ c → t.part.car c' = s.part.car c')
      ∧ s.part.carRecorded t.part c
      ∧ (∀ d ∈ s.part.decksOf c, s.part.deckShown t.part c d)
      ∧ t.part.arr = (({ t.part with arr := s.part.arr } : Part).arrEvaluation c).arr
      ∧ ((s.part.prm.table.map (·.number)).Nodup → s.part.promptsHeld t.part c)
      ∧ t.part.prm.table.map ({ · with estimate := none }) = s.part.prm.table.map ({ · with estimate := none })
      ∧ t.part.prm.queues = s.part.prm.queues
      ∧ t.part.disp.rpt.waiting = (s.part.disp.rpt.hand s.part.now (repCarStale c)).waiting
      ∧ t.part.sameTexts s.part ∧ t.part.sameConfig s.part ∧ t.part.sameClock s.part

/-- SHOW_DEADLINE (R70, R69): when the head's deadline is reached its showing ends, it leaves the queue and stays live, and
the next reference is SHOWING for the interval of the references then left. -/
def Obligations.ShowDeadlineCompletes : Prop :=
  ∀ (s : State) (j n : Nat) (rest : List Nat), j < Config.maxNodes → s.part.atRest → s.part.queueLaw →
    s.part.showDeadlineDue j = true → s.part.queueOf j = n :: rest →
      ∃ t, exec (.showDeadline j) s = .next t ∧ t.mem = s.mem ∧ t.part.queueOf j = rest
        ∧ (∃ e, t.part.assignment n = some e ∧ e.prompt = .none ∧ e.deadline = none ∧ e.estimate = none)
        ∧ (∀ n' e, rest.head? = some n' → s.part.assignment n' = some e →
            ∃ e', t.part.assignment n' = some e' ∧ e'.prompt = .showing
              ∧ e'.deadline = some (s.part.after
                  ((if e.stepFree then 2 else 1)
                    * (if rest.length ≤ 1 then s.part.params.promptShowMs else s.part.params.promptBusyMs))))
        ∧ t.part.prm.table.map (·.core) = s.part.prm.table.map (·.core)
        ∧ (∀ j', j' ≠ j → t.part.queueOf j' = s.part.queueOf j')
        ∧ t.part.disp.rpt.waiting = s.part.disp.rpt.waiting ∧ t.part.trk = s.part.trk ∧ t.part.arr = s.part.arr
        ∧ t.part.sameTexts s.part ∧ t.part.sameConfig s.part ∧ t.part.sameClock s.part

/-- LIFETIME (R78): every live entry whose age has reached assign_life_s leaves the table, no other does, and the expired
counter rises by their number. -/
def Obligations.LifetimeCompletes : Prop :=
  ∀ s : State, s.part.atRest → s.part.shaped = true →
    ∃ t, exec .lifetime s = .next t ∧ t.mem = s.mem
      ∧ t.part.prm.table.map (·.core) =
          (s.part.prm.table.filter (fun a => (s.part.now - a.created).toNat < s.part.params.assignLifeS * 1000)).map
            (·.core)
      ∧ (t.part.disp.rpt.counter .expired).toNat
          = min 65535 ((s.part.disp.rpt.counter .expired).toNat + s.part.prm.table.countP s.part.pastLife)
      ∧ t.part.disp.rpt.waiting = s.part.disp.rpt.waiting ∧ t.part.trk = s.part.trk ∧ t.part.arr = s.part.arr
      ∧ t.part.sameTexts s.part ∧ t.part.sameConfig s.part ∧ t.part.sameClock s.part

/-- MESSAGE_EXPIRED (R92, R93): at its expiry an ACTIVE entry becomes DEFINED without expiry or active cars, the triggers
HELD on it are released and MESSAGE_EXPIRED is handed. -/
def Obligations.MessageExpiryCompletes : Prop :=
  ∀ (s : State) (m : Nat), m < Config.maxMessages → s.part.atRest → s.part.expiryDue m = true →
    ∃ t, exec (.messageExpired m) s = .next t ∧ t.mem = s.mem
      ∧ t.part.msg = s.part.msg.set m { s.part.message m with state := .defined, expiry := none, cars := [] }
      ∧ t.part.trg = s.part.trg.map (releaseTriggers m)
      ∧ t.part.disp.rpt.waiting = (s.part.disp.rpt.hand s.part.now (repMessageExpired m)).waiting
      ∧ t.part.txf = s.part.txf ∧ t.part.ovr = s.part.ovr ∧ t.part.sameTraffic s.part
      ∧ t.part.sameConfig s.part ∧ t.part.sameClock s.part

/-- DWELL_DEADLINE (R117): at the deadline the region shows the lowest message of its rotation list above the shown one,
or the lowest of the list, for another rotate_ms, at the level it had. The rotation list (R115): in ascending order, the
eligible messages whose priority no eligible message exceeds. A message is eligible when it is ACTIVE with a READY text,
its priority is above the node's threshold, its kind is the region's, its mask marks the node's group, its car filter is ANY or
fits a car panel by its car or by its active cars, and its floor range is ANY or holds the node floor (R114). -/
def Obligations.DwellDeadlineCompletes : Prop :=
  (∀ (p : Part) (n : NodeConfig) (r : Region) (m : Message),
    eligible p n r m = true ↔
      ∃ f, m.fields = some f ∧ m.state = .active ∧ m.text.status = some .ready ∧ n.threshold < f.priority
        ∧ (if f.banner then r = .banner else r = .line) ∧ f.groups.getLsbD n.group = true
        ∧ (f.filter = .any ∨ (n.type = .carPanel ∧ (f.filter = .car n.car ∨ (f.filter = .source ∧ n.car ∈ m.cars))))
        ∧ (f.range = none ∨ ∃ lo hi k, f.range = some (lo, hi) ∧ p.nodeFloor n = some k ∧ lo ≤ k ∧ k ≤ hi))
  ∧ (∀ (p : Part) (n : NodeConfig) (r : Region), (rotationList p n r).Pairwise (· < ·)
      ∧ (∀ m, m ∈ rotationList p n r ↔
          m < p.msg.length ∧ eligible p n r (p.message m) = true
            ∧ ∀ m' < p.msg.length, eligible p n r (p.message m') = true → p.priorityOf m' ≤ p.priorityOf m)
      ∧ (∀ m ∈ rotationList p n r, topLevel p (rotationList p n r) = p.priorityOf m)
      ∧ ∀ m m', nextAfter (rotationList p n r) m = some m' ↔
          m' ∈ rotationList p n r
            ∧ ((m < m' ∧ ∀ x ∈ rotationList p n r, m < x → m' ≤ x)
              ∨ ((∀ x ∈ rotationList p n r, x ≤ m) ∧ ∀ x ∈ rotationList p n r, m' ≤ x)))
  ∧ ∀ (s : State) (j m m' : Nat) (n : NodeConfig) (r : Region) (x : RegionRecord) (d : Time),
    j < Config.maxNodes → s.part.atRest → s.part.node j = some n → s.part.disp.cmp.region j r = some x →
    isMessageRegion r = true → x.shown = some m → x.dwell = some d → s.part.reached d = true →
    nextAfter (rotationList s.part n r) m = some m' →
    x.level = some (topLevel s.part (rotationList s.part n r)) →
      ∃ t y, exec (.dwellDeadline j r) s = .next t ∧ t.mem = s.mem ∧ t.part.disp.cmp.region j r = some y
        ∧ y.shown = some m' ∧ y.level = x.level ∧ y.dwell = some (s.part.after s.part.params.rotateMs)
        ∧ (∀ j' r', (j', r') ≠ (j, r) → t.part.disp.cmp.region j' r' = s.part.disp.cmp.region j' r')
        ∧ t.part.disp.rpt.waiting = s.part.disp.rpt.waiting
        ∧ t.part.sameTraffic s.part ∧ t.part.sameTexts s.part ∧ t.part.sameConfig s.part ∧ t.part.sameClock s.part

/-- LINE_SAMPLING (R127): at a multiple of 10 ms each line's level joins its history of 8 and its acceptance test becomes due;
at any other time only the levels change (the model's choice, log entry 17). LINE_ACCEPTED (R128, R131, R133): after a
sampling, the accepted state turns when m of the newest n samples differ from it, but four asserted and four released samples
under 4oo8 leave it as it was, as R128's own sentence has it, though four differ (the model's choice between the two, log
entry 33); a line newly ASSERTED activates a channel that is OFF while a configuration runs; a released line leaves the latch;
a line that turns hands the channel's status record (R138), and an activation the flush, the recomposition and the reports of
R79, R122 and R133. No other channel changes. That a sampling leaves its acceptance test due, and that LINE_ACCEPTED makes
that test under the mode then in force, is the model's choice (log entry 18): R127 and R128 make the two one event. -/
def Obligations.LineEventsComplete : Prop :=
  (∀ (s : State) (levels : BitVec 4), s.part.atRest → s.part.shaped = true →
    ∃ t, exec (.lineSampling levels) s = .next t ∧ t.mem = s.mem ∧ t.part.lines = levels
      ∧ (s.part.now.toNat % 10 = 0 → s.part.now ≠ s.part.sampledAt →
          t.part.sampledAt = s.part.now ∧
            ∀ n < Config.channels, t.part.channel n =
              { s.part.channel n with
                samples := pushHistory (s.part.channel n).samples (levels.getLsbD n)
                test := some s.part.params.overrideDeglitch })
      ∧ (s.part.now.toNat % 10 ≠ 0 ∨ s.part.now = s.part.sampledAt →
          t.part.sampledAt = s.part.sampledAt ∧ t.part.ovr = s.part.ovr)
      ∧ t.part.sameTraffic s.part ∧ t.part.msg = s.part.msg ∧ t.part.txf = s.part.txf ∧ t.part.trg = s.part.trg
      ∧ t.part.disp = s.part.disp ∧ t.part.sameConfig s.part ∧ t.part.now = s.part.now)
  ∧ ∀ (s : State) (k : Nat) (mode : Deglitch), k < Config.channels → s.part.atRest → s.part.shaped = true →
    (s.part.channel k).test = some mode →
      ∃ t, exec (.lineAccepted k) s = .next t ∧ t.mem = s.mem
        ∧ (t.part.channel k).test = none ∧ (t.part.channel k).samples = (s.part.channel k).samples
        ∧ (t.part.channel k).memory = (s.part.channel k).memory
        ∧ (t.part.channel k).accepted =
            ((s.part.channel k).accepted !=
              (mode.pair.1 ≤ (newest mode.pair.2 (s.part.channel k).samples).countP (· ≠ (s.part.channel k).accepted)
                && (newest mode.pair.2 (s.part.channel k).samples).countP (· = (s.part.channel k).accepted) < mode.pair.1))
        ∧ (mode = .fourOfEight → (newest 8 (s.part.channel k).samples).countP (· = true) = 4 →
            (newest 8 (s.part.channel k).samples).countP (· = false) = 4 →
              (t.part.channel k).accepted = (s.part.channel k).accepted)
        ∧ (t.part.channel k).latch =
            ((s.part.channel k).latch
              || ((t.part.channel k).accepted != (s.part.channel k).accepted
                && ((t.part.channel k).accepted || (t.part.channel k).memory) && s.part.path.configured))
        ∧ (∀ k', k' ≠ k → t.part.channel k' = s.part.channel k')
        ∧ ((t.part.channel k).accepted ≠ (s.part.channel k).accepted →
            t.part.disp.rpt.handed (channelRecordIndex k) (channelStatus (t.part.channel k)))
        ∧ s.part.activations t.part
        ∧ t.part.trk = s.part.trk ∧ t.part.msg = s.part.msg ∧ t.part.txf = s.part.txf ∧ t.part.trg = s.part.trg
        ∧ t.part.sameConfig s.part ∧ t.part.sameClock s.part

/-! ### Display links (R144 to R161) -/

/-- SEND_FRAME (R144, R148, R149, R156, R158): the frame the arbiter chooses goes out under the next free tag, on port A, and
on port B too when the ring is BROKEN, a TRACE when it is not CLOSED; it is recorded with its link address, its entry, its
time and its timeout, and counted. A frame for a node leaves the node's queue (a join POLL has none), is outstanding to the
node, and restarts its timer; no other node changes. A TRACE changes no node and is no longer due. A round-robin or join frame
makes its position the last served; an ALERT and a TRACE leave it. The choice itself: nothing but a due TRACE on an UNTESTED
or DOWN ring; an ALERT below W + 1 frames outstanding, a PAINT below W, a POLL at 0, never with a frame of its region
outstanding (R147); a join POLL, due, to a node that has not joined. On a CLOSED or BROKEN ring an eligible ALERT goes first,
of the lowest position that has one and nearest the head of its queue; then a due TRACE; then the round robin, which takes the
first node with something to send from the position after the last served, upward and wrapping after N, and its eligible entry
nearest the head of its queue or its join POLL. The transmitter stays free exactly when no TRACE is due and, on such a ring,
no node has something to send. The frame is driven as built (R143, Table 11-12, R190): link address, kind, tag, region, version,
payload length, the payload, which a POLL and a TRACE lack and which is the chime count, the attribute byte and the codes, the
CRC-16 high byte first, and the trailer EMPTY with flags and hop count 0 and check FFH; its attribute byte is 0 where section 11.5 gives no attribute
(the model's choice, log entry 36). -/
def Obligations.SendFrameCompletes : Prop :=
  (∀ ring : Sys2Proof.Machine.Ring, ring.choose = none ↔
    (ring.traceDue = false ∨ ring.tracing = true)
      ∧ (ring.state = .closed ∨ ring.state = .broken → ∀ q n, ring.node q = some n → n.silent ring.window))
  ∧ (∀ (address tag : Nat) (e : QueueEntry) (attributes : Byte) (load head : List Byte),
      (e.region = some .floor → attributes = if e.content.stale then 1 else 0) →
      (e.region = some .arrow → attributes =
        (match e.content.direction with | .none => 0 | .up => 1 | .down => 2) + (if e.content.moving then 4 else 0)) →
      (e.region ≠ some .floor → e.region ≠ some .arrow → attributes = 0) →
      load = (match e.kind with
        | .poll | .trace => []
        | .paint | .alert => BitVec.ofNat 8 e.chime :: attributes :: e.content.codes) →
      head =
        [BitVec.ofNat 8 address, match e.kind with | .poll => 1 | .paint => 2 | .alert => 3 | .trace => 4, BitVec.ofNat 8 tag,
          match e.region with
          | none => 0
          | some .floor => 1
          | some .arrow => 2
          | some .trip => 3
          | some .prompt => 4
          | some .line => 5
          | some .banner => 6,
          e.version, BitVec.ofNat 8 load.length] →
        frameBytes address tag e =
          head ++ load ++ [(crc16 (head ++ load)).extractLsb' 8 8, (crc16 (head ++ load)).extractLsb' 0 8]
            ++ [0x00#8, 0x00#8, 0x00#8, 0xFF#8])
  ∧ (crc16 [] = 0xFFFF#16
      ∧ ∀ (bytes : List Byte) (b : Byte) (shift : BitVec 16 → BitVec 16),
          (∀ x, shift x = if x.getLsbD 15 then (x <<< 1) ^^^ 0x1021#16 else x <<< 1) →
            crc16 (bytes ++ [b]) =
              shift (shift (shift (shift (shift (shift (shift (shift (crc16 bytes ^^^ (b.zeroExtend 16 <<< 8))))))))))
  ∧ ∀ (s : State) (r tag : Nat) (choice : Choice), r < Config.rings → s.part.atRest → s.part.shaped = true →
    (s.part.disp.ring r).choose = some choice → (s.part.disp.ring r).nextTag = some tag →
      ∃ t, exec (.sendFrame r) s = .next t ∧ t.mem = s.mem
        ∧ (∃ dual : Bool,
            (dual = true ↔
              if choice = .trace then (s.part.disp.ring r).state ≠ .closed else (s.part.disp.ring r).state = .broken)
            ∧ (t.part.disp.ring r).tag tag =
                some (.outstanding
                  { position := choice.position, entry := choice.entry, onA := true, onB := dual, sent := s.part.now,
                    sentTenth := s.part.tenth, timeout := s.part.params.returnTimeoutMs.getD r 0, copies := [] })
            ∧ (t.part.disp.ring r).driveA = frameBytes choice.position tag choice.entry
            ∧ (t.part.disp.ring r).driveB =
                (if dual then frameBytes choice.position tag choice.entry else (s.part.disp.ring r).driveB))
        ∧ (s.part.disp.ring r).tag tag = none ∧ (t.part.disp.ring r).lastTag = tag
        ∧ (∀ tag', tag' ≠ tag → (t.part.disp.ring r).tag tag' = (s.part.disp.ring r).tag tag')
        ∧ (t.part.disp.ring r).stats =
            { (s.part.disp.ring r).stats with sent := min 65535 ((s.part.disp.ring r).stats.sent + 1) }
        ∧ (choice = .trace →
            (s.part.disp.ring r).traceDue = true ∧ (s.part.disp.ring r).tracing = false
              ∧ (t.part.disp.ring r).nodes = (s.part.disp.ring r).nodes
              ∧ (t.part.disp.ring r).traceDue = false ∧ (t.part.disp.ring r).traceSent = some s.part.now)
        ∧ (choice ≠ .trace →
            ((s.part.disp.ring r).state = .closed ∨ (s.part.disp.ring r).state = .broken)
              ∧ (t.part.disp.ring r).traceDue = (s.part.disp.ring r).traceDue
              ∧ (t.part.disp.ring r).traceSent = (s.part.disp.ring r).traceSent
              ∧ (∀ q, q ≠ choice.position → (t.part.disp.ring r).node q = (s.part.disp.ring r).node q)
              ∧ ∃ n, (s.part.disp.ring r).node choice.position = some n
                ∧ (t.part.disp.ring r).node choice.position =
                    some { n with
                      queue := n.queue.filter fun e => e.region ≠ choice.entry.region
                      flights := n.flights ++ [{ entry := choice.entry, held := none }]
                      lastSent := s.part.now
                      joinDue := if choice = .join choice.position then false else n.joinDue
                      joinFrom := if choice = .join choice.position then s.part.now else n.joinFrom }
                ∧ (choice = .join choice.position →
                    n.state.joined = false ∧ n.joinDue = true ∧ n.flights = [])
                ∧ (choice ≠ .join choice.position →
                    n.state.joined = true ∧ choice.entry ∈ n.queue
                      ∧ (∀ f ∈ n.flights, f.entry.region ≠ choice.entry.region)
                      ∧ (choice.entry.kind = .alert → n.flights.length < (s.part.disp.ring r).window + 1)
                      ∧ (choice.entry.kind = .paint → n.flights.length < (s.part.disp.ring r).window)
                      ∧ (choice.entry.kind = .poll → n.flights = [])))
        ∧ (∀ q e, choice = .alert q e → e.kind = .alert)
        ∧ ((s.part.disp.ring r).state = .closed ∨ (s.part.disp.ring r).state = .broken →
            (s.part.disp.ring r).inTurn choice)
        ∧ (∀ q e, choice = .served q e ∨ choice = .join q → (t.part.disp.ring r).lastServed = q)
        ∧ (∀ q e, choice = .trace ∨ choice = .alert q e →
            (t.part.disp.ring r).lastServed = (s.part.disp.ring r).lastServed)
        ∧ (t.part.disp.ring r).state = (s.part.disp.ring r).state
        ∧ (t.part.disp.ring r).location = (s.part.disp.ring r).location
        ∧ (t.part.disp.ring r).through = (s.part.disp.ring r).through
        ∧ (t.part.disp.ring r).window = (s.part.disp.ring r).window
        ∧ (∀ r', r' ≠ r → t.part.disp.ring r' = s.part.disp.ring r')
        ∧ t.part.disp.cmp = s.part.disp.cmp ∧ t.part.disp.rpt = s.part.disp.rpt
        ∧ t.part.sameTraffic s.part ∧ t.part.sameTexts s.part ∧ t.part.sameConfig s.part ∧ t.part.sameClock s.part

/-- The checks of an arriving frame (R190): it is read exactly when its length byte is at most 100 and agrees with the bytes
received, and its CRC-16 and its trailer check match; so a frame as the engine built it passes with its trailer rewritten to
any status, flags and hop count. FRAME_RETURN (R150 to R158, R162): a frame that fails its checks changes nothing. A return on
a FREE tag is counted late; one on a TRAILING tag frees it; a copy of a TRACE is recorded. A frame sent on one port is decided
by its return; one sent on both ports by the first copy that is not EMPTY, the tag then TRAILING, or by its second EMPTY copy.
For a node that has joined, ACCEPTED retires the frame, enters the round-trip statistics and makes the node ACTIVE with retry
count 0, a restart not yet pending re-issuing its regions; BUSY holds the frame until busy_backoff_ms have passed; REJECTED
retires it, counted and reported; EMPTY is a failure: the node is SUSPECT and the frame returns to its queue, or, above the
limit, the node is LOST and reported. A join POLL ACCEPTED makes the node ACTIVE and reachable, its regions re-issued,
reported when it was LOST; any other answer ends it. A CLOSED ring that gives a node's frame back on port A makes a TRACE due.
Changes of the node's status are handed. What a trailer status Table 11-12 does not list answers is a free value (the model's
choice, log entry 12); that a dual-sent frame held BUSY frees its tag at once is log entry 10; the round-trip time is measured
on the model's 0.1 ms clock (log entry 13); that a join POLL decided REJECTED leaves the REJECTED answers statistic is log
entry 27; that a tag is TRAILING also after a second copy that decides is log entry 34, and that a TRACE's tag counts a return
beyond the copies sent as late is log entry 35. -/
def Obligations.FrameReturnCompletes : Prop :=
  (∀ (bytes : List Byte) (l : Nat), (frameByte bytes 5).toNat = l →
    readFrame bytes =
      if l ≤ 100 ∧ bytes.length = l + 12
          ∧ crcBytes (bytes.take (6 + l)) = [frameByte bytes (6 + l), frameByte bytes (7 + l)]
          ∧ frameByte bytes (11 + l)
            = ~~~(frameByte bytes (8 + l) ^^^ frameByte bytes (9 + l) ^^^ frameByte bytes (10 + l)) then
        some { tag := (frameByte bytes 2).toNat, status := frameByte bytes (8 + l),
               restarted := (frameByte bytes (9 + l)).getLsbD 0, lowBrightness := (frameByte bytes (9 + l)).getLsbD 1,
               wrapped := (frameByte bytes (9 + l)).getLsbD 7, hops := (frameByte bytes (10 + l)).toNat }
      else none)
  ∧ (∀ (address tag : Nat) (e : QueueEntry) (status flags hops : Byte), tag < Config.tags → (payload e).length ≤ 100 →
    readFrame (withTrailer (frameBytes address tag e) status flags hops) =
      some { tag := tag, status := status, restarted := flags.getLsbD 0, lowBrightness := flags.getLsbD 1,
             wrapped := flags.getLsbD 7, hops := hops.toNat })
  ∧ ∀ (s : State) (r : Nat) (port : Port) (bytes : List Byte), r < Config.rings → s.part.atRest → s.part.shaped = true →
    ∃ t, exec (.frameReturn r port bytes) s = .next t ∧ t.mem = s.mem
      ∧ (readFrame bytes = none → t.part = s.part)
      ∧ (∀ a, readFrame bytes = some a → (s.part.disp.ring r).nodes ≠ [] →
          ((s.part.disp.ring r).tag a.tag = none →
            t.part.disp.ring r =
              { s.part.disp.ring r with
                stats := { (s.part.disp.ring r).stats with late := min 65535 ((s.part.disp.ring r).stats.late + 1) } })
          ∧ (∀ sent timeout, (s.part.disp.ring r).tag a.tag = some (.trailing sent timeout) →
            t.part.disp.ring r = (s.part.disp.ring r).freeTag a.tag)
          ∧ (∀ rec', (s.part.disp.ring r).tag a.tag = some (.outstanding rec') → rec'.entry.kind = .trace →
            rec'.copies.length < rec'.onA.toNat + rec'.onB.toNat →
              t.part.disp.ring r =
                (s.part.disp.ring r).setTag a.tag
                  (.outstanding { rec' with
                    copies := rec'.copies ++ [{ port := port, wrapped := a.wrapped, hops := a.hops }] }))
          ∧ (∀ rec', (s.part.disp.ring r).tag a.tag = some (.outstanding rec') → rec'.entry.kind = .trace →
            rec'.onA.toNat + rec'.onB.toNat ≤ rec'.copies.length →
              t.part.disp.ring r =
                { s.part.disp.ring r with
                  stats := { (s.part.disp.ring r).stats with
                    late := min 65535 ((s.part.disp.ring r).stats.late + 1) } }))
      ∧ (∀ a rec' n, readFrame bytes = some a → (s.part.disp.ring r).tag a.tag = some (.outstanding rec') →
          rec'.entry.kind ≠ .trace → (s.part.disp.ring r).node rec'.position = some n →
          (rec'.onA = true → rec'.onB = true → a.status = 0 → rec'.copies = [] →
            (t.part.disp.ring r).tag a.tag =
                some (.outstanding { rec' with copies := [{ port := port, wrapped := a.wrapped, hops := a.hops }] })
              ∧ (t.part.disp.ring r).nodes = (s.part.disp.ring r).nodes
              ∧ t.part.disp.rpt.waiting = s.part.disp.rpt.waiting)
          ∧ (rec'.onA = true → rec'.onB = false → (s.part.disp.ring r).state = .closed → port = .a →
              (s.part.disp.ring r).tracing = false → (t.part.disp.ring r).traceDue = true)
          ∧ (rec'.onB = false ∨ a.status ≠ 0 ∨ rec'.copies ≠ [] →
            (rec'.onB = false ∨ a.status = 0 ∨ (n.state.joined = true ∧ a.answer = .busy) →
                (t.part.disp.ring r).tag a.tag = none)
              ∧ (rec'.onA = true → rec'.onB = true → a.status ≠ 0 → n.state.joined = false ∨ a.answer ≠ .busy →
                (t.part.disp.ring r).tag a.tag = some (.trailing rec'.sent rec'.timeout))
              ∧ ∃ n', (t.part.disp.ring r).node rec'.position = some n'
                ∧ (n.state.joined = true → a.answer = .accepted →
                    { n' with queue := [] } =
                        { n with
                          state := .active
                          retry := 0
                          lowBrightness := a.lowBrightness
                          restartPending := a.restarted
                          flights := n.flights.filter fun f => f.entry.region ≠ rec'.entry.region
                          queue := [] }
                      ∧ (a.restarted = false ∨ n.restartPending = true → n'.queue = n.queue)
                      ∧ (a.restarted = true → n.restartPending = false → s.part.disp.cmp.reachable n.index = true →
                          ∀ cfg region x, s.part.node n.index = some cfg → region ∈ cfg.regions →
                            s.part.disp.cmp.region n.index region = some x →
                              (t.part.disp.cmp.region n.index region).map (·.version) = some (x.version + 1))
                      ∧ (t.part.disp.ring r).stats =
                          { (s.part.disp.ring r).stats with
                            minimum := min (s.part.disp.ring r).stats.minimum
                              (s.part.since rec'.sent * 10 + s.part.tenth - rec'.sentTenth)
                            maximum := max (s.part.disp.ring r).stats.maximum
                              (s.part.since rec'.sent * 10 + s.part.tenth - rec'.sentTenth) }
                      ∧ t.part.disp.rpt.waiting = s.part.disp.rpt.waiting)
                ∧ (n.state.joined = true → a.answer = .busy →
                    n' = { n with flights := n.flights.map fun f =>
                      if f.entry.region = rec'.entry.region then
                        { f with held := some (s.part.after s.part.params.busyBackoffMs) } else f }
                      ∧ t.part.disp.rpt.waiting = s.part.disp.rpt.waiting)
                ∧ (n.state.joined = true → a.answer = .rejected →
                    n' = { n with flights := n.flights.filter fun f => f.entry.region ≠ rec'.entry.region }
                      ∧ (t.part.disp.ring r).stats =
                          { (s.part.disp.ring r).stats with
                            rejected := min 65535 ((s.part.disp.ring r).stats.rejected + 1) }
                      ∧ t.part.disp.rpt.waiting =
                          (s.part.disp.rpt.hand s.part.now
                            (repFrameRejected n.index r rec'.position rec'.entry.kind rec'.entry.region
                              rec'.entry.version)).waiting)
                ∧ (n.state.joined = true → a.answer = .empty →
                    (t.part.disp.ring r).stats =
                        { (s.part.disp.ring r).stats with
                          retries := min 65535 ((s.part.disp.ring r).stats.retries + 1) }
                      ∧ (n.retry + 1 ≤ s.part.params.retries.getD r 0 →
                          n' = { n with
                            state := .suspect
                            retry := n.retry + 1
                            flights := n.flights.filter fun f => f.entry.region ≠ rec'.entry.region
                            queue := requeue n.queue rec'.entry }
                            ∧ t.part.disp.rpt.waiting = s.part.disp.rpt.waiting)
                      ∧ (s.part.params.retries.getD r 0 < n.retry + 1 →
                          n' = n.lostAt s.part.now ∧ t.part.disp.cmp.reachable n.index = false
                            ∧ (∀ tag' rec'', (t.part.disp.ring r).tag tag' = some (.outstanding rec'') →
                                rec''.entry.kind = .trace ∨ rec''.position ≠ rec'.position)
                            ∧ t.part.disp.rpt.waiting =
                                (s.part.disp.rpt.hand s.part.now
                                  (repNodeLost n.index r rec'.position)).waiting))
                ∧ (n.state.joined = false → a.answer = .accepted →
                    { n' with queue := [] } =
                        { n with
                          state := .active
                          retry := 0
                          lowBrightness := a.lowBrightness
                          restartPending := a.restarted
                          flights := []
                          queue := [] }
                      ∧ (t.part.disp.ring r).stats = (s.part.disp.ring r).stats
                      ∧ (n.index < Config.maxNodes → t.part.disp.cmp.reachable n.index = true
                          ∧ ∀ cfg region x, s.part.node n.index = some cfg → region ∈ cfg.regions →
                            s.part.disp.cmp.region n.index region = some x →
                              (t.part.disp.cmp.region n.index region).map (·.version) = some (x.version + 1))
                      ∧ t.part.disp.rpt.waiting =
                          (if n.state = .lost then
                            (s.part.disp.rpt.hand s.part.now (repNodeJoined n.index r rec'.position)).waiting
                          else s.part.disp.rpt.waiting))
                ∧ (n.state.joined = false → a.answer ≠ .accepted →
                    n' = { n with flights := n.flights.filter fun f => f.entry.region ≠ rec'.entry.region }
                      ∧ (t.part.disp.ring r).stats = (s.part.disp.ring r).stats
                      ∧ t.part.disp.rpt.waiting = s.part.disp.rpt.waiting)
                ∧ (n.index < Config.maxNodes →
                    n'.state ≠ n.state ∨ n'.retry ≠ n.retry ∨ n'.lowBrightness ≠ n.lowBrightness →
                      (t.part.disp.rpt.records[nodeRecordIndex n.index]?).map (·.fields) = some (nodeStatus n'))
                ∧ (a.answer ≠ .accepted →
                    ∀ q, q ≠ rec'.position → (t.part.disp.ring r).node q = (s.part.disp.ring r).node q)))
      ∧ (t.part.disp.ring r).state = (s.part.disp.ring r).state
      ∧ (t.part.disp.ring r).location = (s.part.disp.ring r).location
      ∧ (t.part.disp.ring r).through = (s.part.disp.ring r).through
      ∧ (∀ r', r' ≠ r → { t.part.disp.ring r' with nodes := [] } = { s.part.disp.ring r' with nodes := [] })
      ∧ t.part.sameTraffic s.part ∧ t.part.sameTexts s.part ∧ t.part.sameConfig s.part ∧ t.part.sameClock s.part

/-- RETURN_TIMEOUT (R154, R155, R156): a frame for a joined node that times out counts as a retry; while the retry count
allows, the node is SUSPECT and the frame returns to its queue; otherwise the node is LOST with nothing queued or
outstanding, not reachable, and NODE_LOST is handed. A join POLL that times out leaves the outstanding count. The queue itself
(R145), ALERT entries before the others: a request for a region without an entry goes to the end of its section; one for a region
with an entry takes its place when both are ALERTs or neither is, the end of its section otherwise, and its chime count, when it
carries none and shows the direction that count stands for. A returning frame goes to the front of its section, or, when its
region has an entry (a POLL, when one waits), it is dropped and the entry takes its chime alike. -/
def Obligations.ReturnTimeoutCompletes : Prop :=
  (∀ (alerts others : List QueueEntry) (new : QueueEntry) (chimes : QueueEntry → QueueEntry → Prop),
    (∀ e ∈ alerts, e.kind = .alert) → (∀ e ∈ others, e.kind ≠ .alert) →
    (∀ before e, chimes before e ↔ before.chime ≠ 0 ∧ e.chime = 0 ∧ e.region = some .arrow
      ∧ ((before.chime = 1 ∧ e.content.direction = .up) ∨ (before.chime = 2 ∧ e.content.direction = .down))) →
      ((∀ e ∈ alerts ++ others, e.region ≠ new.region) →
        enqueue (alerts ++ others) new =
            (if new.kind = .alert then alerts ++ new :: others else alerts ++ others ++ [new])
          ∧ requeue (alerts ++ others) new =
            (if new.kind = .alert then new :: alerts ++ others else alerts ++ new :: others))
      ∧ ∀ front back old placed kept, alerts ++ others = front ++ old :: back → old.region = new.region →
        (∀ e ∈ front ++ back, e.region ≠ new.region) →
        (chimes old new → placed = { new with chime := old.chime }) → (¬chimes old new → placed = new) →
        (chimes new old → kept = { old with chime := new.chime }) → (¬chimes new old → kept = old) →
          requeue (alerts ++ others) new = front ++ kept :: back
            ∧ enqueue (alerts ++ others) new =
              (if old.kind = .alert ↔ new.kind = .alert then front ++ placed :: back
              else if new.kind = .alert then alerts ++ placed :: others.filter (fun e => e.region ≠ new.region)
              else front ++ back ++ [placed]))
  ∧ ∀ (s : State) (r tag : Nat) (rec' : SendRecord) (n : LinkNode), r < Config.rings → tag < Config.tags →
    s.part.atRest → s.part.shaped = true → s.part.returnDue r tag = true →
    (s.part.disp.ring r).tag tag = some (.outstanding rec') → (s.part.disp.ring r).node rec'.position = some n →
      ∃ t n', exec (.returnTimeout r tag) s = .next t ∧ t.mem = s.mem ∧ (t.part.disp.ring r).tag tag = none
        ∧ (t.part.disp.ring r).node rec'.position = some n'
        ∧ (n.state.joined = false →
            n' = { n with flights := n.flights.filter fun f => f.entry.region ≠ rec'.entry.region })
        ∧ (n.state.joined = true → n.retry + 1 ≤ s.part.params.retries.getD r 0 →
            n' = { n with
              state := .suspect
              retry := n.retry + 1
              flights := n.flights.filter fun f => f.entry.region ≠ rec'.entry.region
              queue := requeue n.queue rec'.entry })
        ∧ (n.state.joined = true → s.part.params.retries.getD r 0 < n.retry + 1 →
            n'.state = .lost ∧ n'.queue = [] ∧ n'.flights = [] ∧ n'.retry = 0
              ∧ t.part.disp.cmp.reachable n.index = false
              ∧ t.part.disp.rpt.waiting =
                  (s.part.disp.rpt.hand s.part.now (repNodeLost n.index r rec'.position)).waiting)
        ∧ (t.part.disp.ring r).stats =
            (if n.state.joined then
              { (s.part.disp.ring r).stats with retries := min 65535 ((s.part.disp.ring r).stats.retries + 1) }
            else (s.part.disp.ring r).stats)
        ∧ t.part.sameTraffic s.part ∧ t.part.sameTexts s.part ∧ t.part.sameConfig s.part ∧ t.part.sameClock s.part

/-- POSITION_HISTORY_EMPTIED (R30), TRAILING_TIMEOUT (R150), BUSY_BACKOFF (R152), POLL_TIMER, JOIN_TIMER (R156) and
RING_CHECK (R158): each, when due, makes its one change and nothing else. -/
def Obligations.SimpleTimersComplete : Prop :=
  ∀ s : State, s.part.atRest →
    (∀ c < Config.maxCars, s.part.historyDue c = true →
      exec (.positionHistoryEmptied c) s = .next { s with part := s.part.setCar c { s.part.car c with history := [] } })
    ∧ ∀ r < Config.rings,
      (∀ tag < Config.tags, s.part.trailingDue r tag = true →
        exec (.trailingTimeout r tag) s =
          .next { s with part := { s.part with
            disp := s.part.disp.setRing r ((s.part.disp.ring r).freeTag tag) } })
      ∧ (s.part.ringCheckDue (s.part.disp.ring r) = true →
        exec (.ringCheck r) s =
          .next { s with part := { s.part with
            disp := s.part.disp.setRing r { s.part.disp.ring r with traceDue := true } } })
      ∧ ∀ q n, 1 ≤ q → q ≤ Config.maxPosition → (s.part.disp.ring r).node q = some n →
        (∀ region f, s.part.backoffDue n region = some f →
          exec (.busyBackoff r q region) s =
            .next { s with part := { s.part with
              disp := s.part.disp.setNode r q
                { n with
                  flights := n.flights.filter fun g => g.entry.region ≠ f.entry.region
                  queue := requeue n.queue f.entry } } })
        ∧ (s.part.pollDue n = true →
          exec (.pollTimer r q) s =
            .next { s with part := { s.part with
              disp := s.part.disp.setNode r q { n with queue := n.queue ++ [pollEntry] } } })
        ∧ (s.part.joinTimerDue n = true →
          exec (.joinTimer r q) s =
            .next { s with part := { s.part with
              disp := s.part.disp.setNode r q { n with joinDue := true } } })

/-- TRACE_END (R158 to R162): Table 8-2. When the outstanding TRACE is over its tag becomes FREE and its result acts. Through: an
UNTESTED or DOWN ring becomes CLOSED with RING_CLOSED, a CLOSED one stays, a BROKEN one raises its through count and closes, with
RING_CLOSED, at 2. Wrapped: an UNTESTED, BROKEN or DOWN ring is BROKEN between the positions a and c = N - b + 1,
RING_BROKEN being handed unless it was BROKEN there already; a CLOSED one is BROKEN at an unknown location and a TRACE is due.
None: an UNTESTED or BROKEN ring is DOWN with LINK_DOWN, each of its ACTIVE and SUSPECT nodes LOST without a report; a CLOSED
one is BROKEN as by a wrapped one; a DOWN one stays. Every end hands the link's status. Which copies of a dual TRACE
count as through and as wrapped is log entry 11 (`traceResult`). -/
def Obligations.TraceEndCompletes : Prop :=
  ∀ (s : State) (r tag : Nat) (rec' : SendRecord), r < Config.rings → s.part.atRest → s.part.shaped = true →
    (s.part.disp.ring r).outstandingTrace = some (tag, rec') →
    (rec'.onA.toNat + rec'.onB.toNat ≤ rec'.copies.length ∨ rec'.timeout ≤ s.part.since rec'.sent) →
      ∃ t, exec (.traceEnd r) s = .next t ∧ t.mem = s.mem ∧ (t.part.disp.ring r).tag tag = none
        ∧ (traceResult rec' = .through →
            (t.part.disp.ring r).nodes = (s.part.disp.ring r).nodes
              ∧ ((s.part.disp.ring r).state = .closed →
                  (t.part.disp.ring r).state = .closed
                    ∧ (t.part.disp.ring r).location = (s.part.disp.ring r).location
                    ∧ (t.part.disp.ring r).through = (s.part.disp.ring r).through
                    ∧ t.part.disp.rpt.waiting = s.part.disp.rpt.waiting)
              ∧ ((s.part.disp.ring r).state = .broken → (s.part.disp.ring r).through = 0 →
                  (t.part.disp.ring r).state = .broken
                    ∧ (t.part.disp.ring r).location = (s.part.disp.ring r).location
                    ∧ (t.part.disp.ring r).through = 1 ∧ t.part.disp.rpt.waiting = s.part.disp.rpt.waiting)
              ∧ (((s.part.disp.ring r).state = .broken ∧ 1 ≤ (s.part.disp.ring r).through)
                  ∨ (s.part.disp.ring r).state = .untested ∨ (s.part.disp.ring r).state = .down →
                    (t.part.disp.ring r).state = .closed ∧ (t.part.disp.ring r).location = none
                      ∧ (t.part.disp.ring r).through = 0
                      ∧ t.part.disp.rpt.waiting =
                          (s.part.disp.rpt.hand s.part.now (repRingClosed r)).waiting))
        ∧ (∀ a b, traceResult rec' = .wrapped a b → b ≤ (s.part.disp.ring r).nodes.length →
            (s.part.disp.ring r).state ≠ .closed →
              (t.part.disp.ring r).state = .broken
                ∧ (t.part.disp.ring r).location = some (a, (s.part.disp.ring r).nodes.length - b + 1)
                ∧ (t.part.disp.ring r).through = 0
                ∧ (t.part.disp.ring r).nodes = (s.part.disp.ring r).nodes
                ∧ t.part.disp.rpt.waiting =
                    (if (s.part.disp.ring r).state = .broken
                        ∧ (s.part.disp.ring r).location = some (a, (s.part.disp.ring r).nodes.length - b + 1) then
                      s.part.disp.rpt.waiting
                    else
                      (s.part.disp.rpt.hand s.part.now
                        (repRingBroken r a ((s.part.disp.ring r).nodes.length - b + 1))).waiting))
        ∧ (traceResult rec' ≠ .through → (s.part.disp.ring r).state = .closed →
            (t.part.disp.ring r).state = .broken ∧ (t.part.disp.ring r).location = none
              ∧ (t.part.disp.ring r).through = 0 ∧ (t.part.disp.ring r).traceDue = true
              ∧ (t.part.disp.ring r).nodes = (s.part.disp.ring r).nodes
              ∧ t.part.disp.rpt.waiting = s.part.disp.rpt.waiting)
        ∧ (traceResult rec' = .none → (s.part.disp.ring r).state = .down →
            (t.part.disp.ring r).state = .down
              ∧ (t.part.disp.ring r).location = (s.part.disp.ring r).location
              ∧ (t.part.disp.ring r).through = (s.part.disp.ring r).through
              ∧ (t.part.disp.ring r).nodes = (s.part.disp.ring r).nodes
              ∧ t.part.disp.rpt.waiting = s.part.disp.rpt.waiting)
        ∧ (traceResult rec' = .none →
            (s.part.disp.ring r).state = .untested ∨ (s.part.disp.ring r).state = .broken →
              (t.part.disp.ring r).state = .down ∧ (t.part.disp.ring r).location = none
                ∧ (t.part.disp.ring r).through = 0
                ∧ (t.part.disp.ring r).nodes =
                    (s.part.disp.ring r).nodes.map (fun n =>
                      if n.state.joined then n.lostAt s.part.now else n)
                ∧ (∀ n ∈ (s.part.disp.ring r).nodes, n.state.joined = true →
                    t.part.disp.cmp.reachable n.index = false)
                ∧ (∀ tag' rec'', (t.part.disp.ring r).tag tag' = some (.outstanding rec'') →
                    rec''.entry.kind = .trace
                      ∨ ∀ n, (s.part.disp.ring r).node rec''.position = some n → n.state.joined = false)
                ∧ t.part.disp.rpt.waiting = (s.part.disp.rpt.hand s.part.now (repLinkDown r)).waiting)
        ∧ (t.part.disp.rpt.records[ringRecordIndex r]?).map (·.fields) = some (ringStatus (t.part.disp.ring r))
        ∧ (t.part.disp.ring r).stats = (s.part.disp.ring r).stats
        ∧ (∀ r', r' ≠ r → t.part.disp.ring r' = s.part.disp.ring r')
        ∧ t.part.sameTraffic s.part ∧ t.part.sameTexts s.part ∧ t.part.sameConfig s.part ∧ t.part.sameClock s.part

/-! ### Lookups and derived values (R8, R48, R80) -/

/-- R8: a deck of a car serves a floor exactly when the car is configured, the deck is one of its decks, the floor is
below the floor count and the floor is a member of the deck's served set; the set holds the floors whose membership mark
is set, one mark per floor index. -/
def Obligations.ServesAnswersR8 : Prop :=
  (∀ (p : Part) (c d k : Nat),
    p.serves c d k = true ↔
      ∃ cfg, p.carConfig c = some cfg ∧ d < cfg.decks ∧ k < p.floorCount
        ∧ k ∈ (if d = 0 then cfg.served0 else cfg.served1))
  ∧ ∀ (w : Nat → Word) (c k : Nat),
      (k ∈ (readCar w c).served0 ↔ k < 160 ∧ (carWord w c (5 + k / 32)).getLsbD (k % 32) = true)
        ∧ (k ∈ (readCar w c).served1 ↔ k < 160 ∧ (carWord w c (10 + k / 32)).getLsbD (k % 32) = true)

/-- ARR (R42, R44 to R50, R52 to R57). R48: how a newly computed estimate replaces a held value, row by row: a number below
the held one, or above it by at least eta_up_hyst_s, is taken, 99 with OVER counting as 100. R44 to R47: an estimate is NONE
for a car that is not configured or withdrawn and for a STALE or UNKNOWN deck, 0 at the floor, and otherwise the time of the
path through the stops before the floor, each with its start and dwell, and of the doors, in seconds rounded up, above 99 as
99 with OVER. R49, R52, R56, R57: what an evaluation notice makes of each lantern of the car's decks and of each prompt's held
value. R54, R55, R50: what an arrival with open doors, a departure and a withdrawal make of them. R53, R121: a lantern change
whose ARROW content is new hands every bound node that is reachable a request with its chime count, 1 for UP, 2 for DOWN and 0
for NONE when the lantern leaves DARK and 0 at every other change, but for a count carried from the entry it replaces (R145).
No other lantern changes. That a DARK lantern goes to OPEN where R52 (a) and (b) both hold is the model's reading (log entry
15: (b) wins). -/
def Obligations.HeldValuesFollowR48 : Prop :=
  (∀ (h : Nat) (new : Estimate) (n m : Nat),
    holdValue h none new = new ∧ holdValue h (some .none) new = new
      ∧ (∀ o, holdValue h (some (.secs m o)) .none = .none)
      ∧ (∀ o, holdValue h (some (.secs m o)) (.secs 0 false) = .secs 0 false)
      ∧ (∀ o, holdValue h (some (.secs m o)) (.secs 99 true) = .secs 99 true)
      ∧ (n < m → m ≤ 99 → holdValue h (some (.secs m false)) (.secs n false) = .secs n false)
      ∧ (n ≤ 99 → holdValue h (some (.secs 99 true)) (.secs n false) = .secs n false)
      ∧ holdValue h (some (.secs n false)) (.secs n false) = .secs n false
      ∧ (1 ≤ m → n + h ≤ m → m ≤ 99 → holdValue h (some (.secs n false)) (.secs m false) = .secs m false)
      ∧ (n < m → m < n + h → m ≤ 99 → holdValue h (some (.secs n false)) (.secs m false) = .secs n false))
  ∧ (∀ (p : Part) (c d t : Nat),
      (p.carConfig c = none → p.estimate c d t = (.none, false))
      ∧ ∀ cfg, p.carConfig c = some cfg →
        (p.arrWithdrawn c = true ∨ (p.deck c d).state = .stale ∨ (p.deck c d).state = .unknown →
          p.estimate c d t = (.none, false))
        ∧ (p.arrWithdrawn c = false → (p.deck c d).state = .atFloor → (p.deck c d).accepted = some t →
          p.estimate c d t = (.secs 0 false, false))
        ∧ ∀ front last total, p.arrWithdrawn c = false → (p.deck c d).state ≠ .stale → (p.deck c d).state ≠ .unknown →
          ((p.deck c d).state = .atFloor → (p.deck c d).accepted ≠ some t) →
          front = (p.car c).stops.takeWhile (fun x => p.deckStopFloor cfg d x ≠ some t) →
          last = (((p.car c).stops[front.length]?).map fun x => p.level x + cfg.offset d).getD (p.level t) →
          total =
            pathLength ((p.deck c d).position :: front.map (fun x => p.level x + cfg.offset d) ++ [last]) * 1000
                / cfg.vRated
              + ((if (p.car c).motion = .still then p.params.startStopMs else p.params.startStopMs / 2)
                + front.length * p.params.startStopMs)
              + front.length * p.params.dwellMs
              + (if (p.car c).door = .opened ∨ (p.car c).door = .opening then p.params.doorCloseMs
                else if (p.car c).door = .closing then p.params.doorCloseMs / 2 else 0) →
            (total ≤ 99000 → p.estimate c d t = (.secs ((total + 999) / 1000) false, false))
              ∧ (99000 < total → p.estimate c d t = (.secs 99 true, true)))
  ∧ (∀ (p : Part) (c d i : Nat) (l : Lantern) (next opens : Prop) (held : Estimate),
      d ∈ p.decksOf c → p.arr.lanterns[i]? = some l → l.car = c → l.deck = d →
      (next ↔ p.nextStop c d = some l.floor) →
      (next → held = holdValue p.params.etaUpHystS (some l.estimate) (p.estimate c d l.floor).1) →
      (¬next → held = .none) →
      (opens ↔ (p.deck c d).state = .atFloor ∧ (p.deck c d).accepted = some l.floor
        ∧ (p.deck c d).visit = some l.floor ∧ (p.deck c d).opened = true
        ∧ ((p.car c).door = .opening ∨ (p.car c).door = .opened)) →
        ∃ l', (p.arrEvaluation c).arr.lanterns[i]? = some l'
          ∧ l'.car = c ∧ l'.deck = d ∧ l'.floor = l.floor ∧ l'.estimate = held
          ∧ (next → l'.hold = l.hold) ∧ (¬next → l'.hold = false)
          ∧ (l.state = .announce → ¬next ∨ (p.deck c d).state = .stale ∨ p.arrWithdrawn c = true →
              l'.state = .dark ∧ l'.shown = .none)
          ∧ (l.state = .announce → next → (p.deck c d).state ≠ .stale → p.arrWithdrawn c = false →
              l'.state = .announce ∧ l'.shown = (p.car c).departure)
          ∧ (l.state = .lit → (p.deck c d).state = .stale → l'.state = .dark ∧ l'.shown = .none)
          ∧ (l.state = .lit → (p.deck c d).state ≠ .stale →
              l'.state = .lit ∧ l'.shown = (p.car c).departure)
          ∧ (l.state = .dark → ¬next ∨ p.arrWithdrawn c = true → l'.state = .dark ∧ l'.shown = l.shown)
          ∧ (l.state = .dark → next → p.arrWithdrawn c = false →
              (opens → l'.state = .lit ∧ l'.shown = (p.car c).departure)
              ∧ (¬opens → withinLead p.params.lanternLeadS held = true → l.hold = false →
                  l'.state = .announce ∧ l'.shown = (p.car c).departure)
              ∧ (¬opens → withinLead p.params.lanternLeadS held = false ∨ l.hold = true →
                  l'.state = .dark ∧ l'.shown = l.shown)))
  ∧ (∀ (p : Part) (c number : Nat) (a : Assignment), (p.prm.table.map (·.number)).Nodup →
      p.assignment number = some a → a.car = c → a.prompt ≠ .none →
        ((p.arrEvaluation c).assignment number).map (·.estimate) =
            some (some (holdValue p.params.etaUpHystS a.estimate (p.estimate a.car a.deck a.boarding).1))
          ∧ ((p.arrWithdraw c).assignment number).map (·.estimate) = some (some .none))
  ∧ (∀ (p : Part) (i chime j : Nat) (l : Lantern) (n : NodeConfig) (x : RegionRecord) (q : LinkNode) (content : Content),
      p.node j = some n → n.isLanternOf l.car l.deck l.floor = true → p.disp.cmp.region j .arrow = some x →
      p.disp.cmp.reachable j = true → (p.disp.ring n.ring).node n.position = some q → q.state.joined = true →
      (∀ j' n', p.node j' = some n' → n'.ring = n.ring → n'.position = n.position → j' = j) →
      content = (composed (p.setLantern i l) j n .arrow x.shown).1.1 → content ≠ x.content →
        ∃ q' e, ((p.changeLantern i l chime).disp.ring n.ring).node n.position = some q' ∧ e ∈ q'.queue
          ∧ e.region = some .arrow ∧ e.version = x.version + 1 ∧ e.content = content
          ∧ (e.chime = chime ∨ (chime = 0 ∧ ∃ old ∈ q.queue, old.region = some .arrow ∧ e.chime = old.chime)))
  ∧ (∀ (p : Part) (c d f i chime : Nat) (l : Lantern) (lit : LanternState → Part),
      p.arr.lanterns[i]? = some l → l.car = c → l.deck = d → l.floor = f →
      chime = (if (p.car c).departure = .up then 1 else if (p.car c).departure = .down then 2 else 0) →
      (p.lanternDarken i = p ∨ p.lanternDarken i = p.changeLantern i { l with state := .dark, shown := .none } 0)
        ∧ (p.lanternTurn i = p ∨ p.lanternTurn i = p.changeLantern i { l with shown := (p.car c).departure } 0)
        ∧ ((∀ st, lit st = p.changeLantern i { l with state := st, shown := (p.car c).departure } chime) →
            l.state = .dark → p.nextStop c d = some f → p.arrWithdrawn c = false →
              (p.standsOpenAt c d f = true → p.lanternLight i = lit .lit)
                ∧ (p.standsOpenAt c d f = false → withinLead p.params.lanternLeadS l.estimate = true → l.hold = false →
                    p.lanternLight i = lit .announce))
        ∧ ((∀ i' l', p.arr.lanterns[i']? = some l' → l'.car = c → l'.deck = d → l'.floor = f → i' = i) →
            (l.state = .dark → p.nextStop c d = some f → p.arrWithdrawn c = false →
              (p.arrArrival c d f).disp =
                (p.changeLantern i { l with hold := false, state := .lit, shown := (p.car c).departure } chime).disp)
            ∧ (l.state = .announce →
                (p.arrArrival c d f).disp = (p.changeLantern i { l with hold := false, state := .lit } 0).disp)
            ∧ (l.state ≠ .dark →
                (p.arrDeparture c d f).disp =
                  (p.changeLantern i { l with hold := true, state := .dark, shown := .none } 0).disp)))
  ∧ ∀ (p : Part) (c d f i : Nat) (l : Lantern), p.arr.lanterns[i]? = some l →
      (l.car = c → l.deck = d → l.floor = f →
        (p.arrArrival c d f).arr.lanterns[i]? =
            some (if l.state = .lit then { l with hold := false }
              else if l.state = .announce then { l with hold := false, state := .lit }
              else if p.nextStop c d = some f ∧ p.arrWithdrawn c = false then
                { l with hold := false, state := .lit, shown := (p.car c).departure }
              else { l with hold := false })
          ∧ (p.arrDeparture c d f).arr.lanterns[i]? =
            some (if l.state = .dark then { l with hold := true }
              else { l with hold := true, state := .dark, shown := .none }))
      ∧ (l.car = c → l.deck < 2 →
          (p.arrWithdraw c).arr.lanterns[i]? =
            some (if l.state = .dark then { l with estimate := .none }
              else { l with estimate := .none, state := .dark, shown := .none }))
      ∧ (¬(l.car = c ∧ l.deck = d ∧ l.floor = f) →
          (p.arrArrival c d f).arr.lanterns[i]? = some l ∧ (p.arrDeparture c d f).arr.lanterns[i]? = some l)
      ∧ (l.car ≠ c →
          (p.arrEvaluation c).arr.lanterns[i]? = some l ∧ (p.arrWithdraw c).arr.lanterns[i]? = some l)

/-- The law of trip lists (R80): the members of the list of a car, deck and boarding floor are exactly the destinations of
its live assignments, each once, nearest first and the lower floor first at equal distance. -/
def Obligations.TripListsAreBacked : Prop :=
  ∀ (p : Part) (c d f : Nat),
    (∀ x, x ∈ p.tripMembers c d f ↔
      ∃ a ∈ p.prm.table, a.car = c ∧ a.deck = d ∧ a.boarding = f ∧ a.destination = x)
    ∧ (p.tripMembers c d f).Nodup
    ∧ (p.tripMembers c d f).Pairwise (fun x y =>
        distance (p.level x) (p.level f) < distance (p.level y) (p.level f)
          ∨ (distance (p.level x) (p.level f) = distance (p.level y) (p.level f) ∧ x < y))
end

