-- ==== Sys2Proof/Laws/State.lean ====
section
/-! SUPPORT. One lemma per field for each update of the state and of the part, true by `rfl` and tagged for `simp`, so that
no proof unfolds a record update. -/

namespace Sys2Proof.Machine

/-! ### Updates of the state -/

@[simp] theorem State.onPart_part (s : State) (f : Part → Part) : (s.onPart f).part = f s.part := rfl
@[simp] theorem State.onPart_mem (s : State) (f : Part → Part) : (s.onPart f).mem = s.mem := rfl
@[simp] theorem State.onPart_pending (s : State) (f : Part → Part) : (s.onPart f).pending = s.pending := rfl
@[simp] theorem State.event_part (s : State) (f : Part → Part) : (s.event f).part = (f s.part).settle := rfl
@[simp] theorem State.event_mem (s : State) (f : Part → Part) : (s.event f).mem = s.mem := rfl
@[simp] theorem State.event_pending (s : State) (f : Part → Part) : (s.event f).pending = s.pending := rfl

/-! ### `Part.onPath`: PATH alone -/

@[simp] theorem Part.onPath_now (p : Part) (f : Path → Path) : (p.onPath f).now = p.now := rfl
@[simp] theorem Part.onPath_tenth (p : Part) (f : Path → Path) : (p.onPath f).tenth = p.tenth := rfl
@[simp] theorem Part.onPath_sampledAt (p : Part) (f : Path → Path) : (p.onPath f).sampledAt = p.sampledAt := rfl
@[simp] theorem Part.onPath_lines (p : Part) (f : Path → Path) : (p.onPath f).lines = p.lines := rfl
@[simp] theorem Part.onPath_hostData (p : Part) (f : Path → Path) : (p.onPath f).hostData = p.hostData := rfl
@[simp] theorem Part.onPath_path (p : Part) (f : Path → Path) : (p.onPath f).path = f p.path := rfl
@[simp] theorem Part.onPath_params (p : Part) (f : Path → Path) : (p.onPath f).params = p.params := rfl
@[simp] theorem Part.onPath_geo (p : Part) (f : Path → Path) : (p.onPath f).geo = p.geo := rfl
@[simp] theorem Part.onPath_nodes (p : Part) (f : Path → Path) : (p.onPath f).nodes = p.nodes := rfl
@[simp] theorem Part.onPath_trk (p : Part) (f : Path → Path) : (p.onPath f).trk = p.trk := rfl
@[simp] theorem Part.onPath_arr (p : Part) (f : Path → Path) : (p.onPath f).arr = p.arr := rfl
@[simp] theorem Part.onPath_prm (p : Part) (f : Path → Path) : (p.onPath f).prm = p.prm := rfl
@[simp] theorem Part.onPath_msg (p : Part) (f : Path → Path) : (p.onPath f).msg = p.msg := rfl
@[simp] theorem Part.onPath_txf (p : Part) (f : Path → Path) : (p.onPath f).txf = p.txf := rfl
@[simp] theorem Part.onPath_trg (p : Part) (f : Path → Path) : (p.onPath f).trg = p.trg := rfl
@[simp] theorem Part.onPath_ovr (p : Part) (f : Path → Path) : (p.onPath f).ovr = p.ovr := rfl
@[simp] theorem Part.onPath_disp (p : Part) (f : Path → Path) : (p.onPath f).disp = p.disp := rfl

/-! ### `Part.onRpt`: RPT alone -/

@[simp] theorem Part.onRpt_now (p : Part) (f : Rpt → Rpt) : (p.onRpt f).now = p.now := rfl
@[simp] theorem Part.onRpt_tenth (p : Part) (f : Rpt → Rpt) : (p.onRpt f).tenth = p.tenth := rfl
@[simp] theorem Part.onRpt_sampledAt (p : Part) (f : Rpt → Rpt) : (p.onRpt f).sampledAt = p.sampledAt := rfl
@[simp] theorem Part.onRpt_lines (p : Part) (f : Rpt → Rpt) : (p.onRpt f).lines = p.lines := rfl
@[simp] theorem Part.onRpt_hostData (p : Part) (f : Rpt → Rpt) : (p.onRpt f).hostData = p.hostData := rfl
@[simp] theorem Part.onRpt_path (p : Part) (f : Rpt → Rpt) : (p.onRpt f).path = p.path := rfl
@[simp] theorem Part.onRpt_params (p : Part) (f : Rpt → Rpt) : (p.onRpt f).params = p.params := rfl
@[simp] theorem Part.onRpt_geo (p : Part) (f : Rpt → Rpt) : (p.onRpt f).geo = p.geo := rfl
@[simp] theorem Part.onRpt_nodes (p : Part) (f : Rpt → Rpt) : (p.onRpt f).nodes = p.nodes := rfl
@[simp] theorem Part.onRpt_trk (p : Part) (f : Rpt → Rpt) : (p.onRpt f).trk = p.trk := rfl
@[simp] theorem Part.onRpt_arr (p : Part) (f : Rpt → Rpt) : (p.onRpt f).arr = p.arr := rfl
@[simp] theorem Part.onRpt_prm (p : Part) (f : Rpt → Rpt) : (p.onRpt f).prm = p.prm := rfl
@[simp] theorem Part.onRpt_msg (p : Part) (f : Rpt → Rpt) : (p.onRpt f).msg = p.msg := rfl
@[simp] theorem Part.onRpt_txf (p : Part) (f : Rpt → Rpt) : (p.onRpt f).txf = p.txf := rfl
@[simp] theorem Part.onRpt_trg (p : Part) (f : Rpt → Rpt) : (p.onRpt f).trg = p.trg := rfl
@[simp] theorem Part.onRpt_ovr (p : Part) (f : Rpt → Rpt) : (p.onRpt f).ovr = p.ovr := rfl
@[simp] theorem Part.onRpt_disp (p : Part) (f : Rpt → Rpt) :
    (p.onRpt f).disp = { p.disp with rpt := f p.disp.rpt } := rfl

/-! ### `Part.onlyArr`: what ARR may change -/

@[simp] theorem Part.onlyArr_now (p q : Part) : (p.onlyArr q).now = p.now := rfl
@[simp] theorem Part.onlyArr_tenth (p q : Part) : (p.onlyArr q).tenth = p.tenth := rfl
@[simp] theorem Part.onlyArr_sampledAt (p q : Part) : (p.onlyArr q).sampledAt = p.sampledAt := rfl
@[simp] theorem Part.onlyArr_lines (p q : Part) : (p.onlyArr q).lines = p.lines := rfl
@[simp] theorem Part.onlyArr_hostData (p q : Part) : (p.onlyArr q).hostData = p.hostData := rfl
@[simp] theorem Part.onlyArr_path (p q : Part) : (p.onlyArr q).path = p.path := rfl
@[simp] theorem Part.onlyArr_params (p q : Part) : (p.onlyArr q).params = p.params := rfl
@[simp] theorem Part.onlyArr_geo (p q : Part) : (p.onlyArr q).geo = p.geo := rfl
@[simp] theorem Part.onlyArr_nodes (p q : Part) : (p.onlyArr q).nodes = p.nodes := rfl
@[simp] theorem Part.onlyArr_trk (p q : Part) : (p.onlyArr q).trk = p.trk := rfl
@[simp] theorem Part.onlyArr_arr (p q : Part) : (p.onlyArr q).arr = q.arr := rfl
@[simp] theorem Part.onlyArr_prm (p q : Part) : (p.onlyArr q).prm = q.prm := rfl
@[simp] theorem Part.onlyArr_msg (p q : Part) : (p.onlyArr q).msg = p.msg := rfl
@[simp] theorem Part.onlyArr_txf (p q : Part) : (p.onlyArr q).txf = p.txf := rfl
@[simp] theorem Part.onlyArr_trg (p q : Part) : (p.onlyArr q).trg = p.trg := rfl
@[simp] theorem Part.onlyArr_ovr (p q : Part) : (p.onlyArr q).ovr = p.ovr := rfl
@[simp] theorem Part.onlyArr_disp (p q : Part) : (p.onlyArr q).disp = q.disp := rfl

/-! ### `Part.onlyPrm`: what PRM may change -/

@[simp] theorem Part.onlyPrm_now (p q : Part) : (p.onlyPrm q).now = p.now := rfl
@[simp] theorem Part.onlyPrm_tenth (p q : Part) : (p.onlyPrm q).tenth = p.tenth := rfl
@[simp] theorem Part.onlyPrm_sampledAt (p q : Part) : (p.onlyPrm q).sampledAt = p.sampledAt := rfl
@[simp] theorem Part.onlyPrm_lines (p q : Part) : (p.onlyPrm q).lines = p.lines := rfl
@[simp] theorem Part.onlyPrm_hostData (p q : Part) : (p.onlyPrm q).hostData = p.hostData := rfl
@[simp] theorem Part.onlyPrm_path (p q : Part) : (p.onlyPrm q).path = p.path := rfl
@[simp] theorem Part.onlyPrm_params (p q : Part) : (p.onlyPrm q).params = p.params := rfl
@[simp] theorem Part.onlyPrm_geo (p q : Part) : (p.onlyPrm q).geo = p.geo := rfl
@[simp] theorem Part.onlyPrm_nodes (p q : Part) : (p.onlyPrm q).nodes = p.nodes := rfl
@[simp] theorem Part.onlyPrm_trk (p q : Part) : (p.onlyPrm q).trk = p.trk := rfl
@[simp] theorem Part.onlyPrm_arr (p q : Part) : (p.onlyPrm q).arr = p.arr := rfl
@[simp] theorem Part.onlyPrm_prm (p q : Part) : (p.onlyPrm q).prm = q.prm := rfl
@[simp] theorem Part.onlyPrm_msg (p q : Part) : (p.onlyPrm q).msg = p.msg := rfl
@[simp] theorem Part.onlyPrm_txf (p q : Part) : (p.onlyPrm q).txf = p.txf := rfl
@[simp] theorem Part.onlyPrm_trg (p q : Part) : (p.onlyPrm q).trg = p.trg := rfl
@[simp] theorem Part.onlyPrm_ovr (p q : Part) : (p.onlyPrm q).ovr = p.ovr := rfl
@[simp] theorem Part.onlyPrm_disp (p q : Part) : (p.onlyPrm q).disp = q.disp := rfl

/-! ### `Part.onlyMsg`: what MSG, TXF and TRG may change -/

@[simp] theorem Part.onlyMsg_now (p q : Part) : (p.onlyMsg q).now = p.now := rfl
@[simp] theorem Part.onlyMsg_tenth (p q : Part) : (p.onlyMsg q).tenth = p.tenth := rfl
@[simp] theorem Part.onlyMsg_sampledAt (p q : Part) : (p.onlyMsg q).sampledAt = p.sampledAt := rfl
@[simp] theorem Part.onlyMsg_lines (p q : Part) : (p.onlyMsg q).lines = p.lines := rfl
@[simp] theorem Part.onlyMsg_hostData (p q : Part) : (p.onlyMsg q).hostData = p.hostData := rfl
@[simp] theorem Part.onlyMsg_path (p q : Part) : (p.onlyMsg q).path = p.path := rfl
@[simp] theorem Part.onlyMsg_params (p q : Part) : (p.onlyMsg q).params = p.params := rfl
@[simp] theorem Part.onlyMsg_geo (p q : Part) : (p.onlyMsg q).geo = p.geo := rfl
@[simp] theorem Part.onlyMsg_nodes (p q : Part) : (p.onlyMsg q).nodes = p.nodes := rfl
@[simp] theorem Part.onlyMsg_trk (p q : Part) : (p.onlyMsg q).trk = p.trk := rfl
@[simp] theorem Part.onlyMsg_arr (p q : Part) : (p.onlyMsg q).arr = p.arr := rfl
@[simp] theorem Part.onlyMsg_prm (p q : Part) : (p.onlyMsg q).prm = p.prm := rfl
@[simp] theorem Part.onlyMsg_msg (p q : Part) : (p.onlyMsg q).msg = q.msg := rfl
@[simp] theorem Part.onlyMsg_txf (p q : Part) : (p.onlyMsg q).txf = q.txf := rfl
@[simp] theorem Part.onlyMsg_trg (p q : Part) : (p.onlyMsg q).trg = q.trg := rfl
@[simp] theorem Part.onlyMsg_ovr (p q : Part) : (p.onlyMsg q).ovr = q.ovr := rfl
@[simp] theorem Part.onlyMsg_disp (p q : Part) : (p.onlyMsg q).disp = q.disp := rfl

/-! ### `Part.setCar`: one car -/

@[simp] theorem Part.setCar_now (p : Part) (c : Nat) (x : Car) : (p.setCar c x).now = p.now := rfl
@[simp] theorem Part.setCar_tenth (p : Part) (c : Nat) (x : Car) : (p.setCar c x).tenth = p.tenth := rfl
@[simp] theorem Part.setCar_sampledAt (p : Part) (c : Nat) (x : Car) : (p.setCar c x).sampledAt = p.sampledAt := rfl
@[simp] theorem Part.setCar_lines (p : Part) (c : Nat) (x : Car) : (p.setCar c x).lines = p.lines := rfl
@[simp] theorem Part.setCar_hostData (p : Part) (c : Nat) (x : Car) : (p.setCar c x).hostData = p.hostData := rfl
@[simp] theorem Part.setCar_path (p : Part) (c : Nat) (x : Car) : (p.setCar c x).path = p.path := rfl
@[simp] theorem Part.setCar_params (p : Part) (c : Nat) (x : Car) : (p.setCar c x).params = p.params := rfl
@[simp] theorem Part.setCar_geo (p : Part) (c : Nat) (x : Car) : (p.setCar c x).geo = p.geo := rfl
@[simp] theorem Part.setCar_nodes (p : Part) (c : Nat) (x : Car) : (p.setCar c x).nodes = p.nodes := rfl
@[simp] theorem Part.setCar_trk (p : Part) (c : Nat) (x : Car) : (p.setCar c x).trk = p.trk.set c x := rfl
@[simp] theorem Part.setCar_arr (p : Part) (c : Nat) (x : Car) : (p.setCar c x).arr = p.arr := rfl
@[simp] theorem Part.setCar_prm (p : Part) (c : Nat) (x : Car) : (p.setCar c x).prm = p.prm := rfl
@[simp] theorem Part.setCar_msg (p : Part) (c : Nat) (x : Car) : (p.setCar c x).msg = p.msg := rfl
@[simp] theorem Part.setCar_txf (p : Part) (c : Nat) (x : Car) : (p.setCar c x).txf = p.txf := rfl
@[simp] theorem Part.setCar_trg (p : Part) (c : Nat) (x : Car) : (p.setCar c x).trg = p.trg := rfl
@[simp] theorem Part.setCar_ovr (p : Part) (c : Nat) (x : Car) : (p.setCar c x).ovr = p.ovr := rfl
@[simp] theorem Part.setCar_disp (p : Part) (c : Nat) (x : Car) : (p.setCar c x).disp = p.disp := rfl

/-! ### `Part.setMessage`: one message entry -/

@[simp] theorem Part.setMessage_now (p : Part) (m : Nat) (e : Message) : (p.setMessage m e).now = p.now := rfl
@[simp] theorem Part.setMessage_tenth (p : Part) (m : Nat) (e : Message) : (p.setMessage m e).tenth = p.tenth := rfl
@[simp] theorem Part.setMessage_sampledAt (p : Part) (m : Nat) (e : Message) :
    (p.setMessage m e).sampledAt = p.sampledAt := rfl
@[simp] theorem Part.setMessage_lines (p : Part) (m : Nat) (e : Message) : (p.setMessage m e).lines = p.lines := rfl
@[simp] theorem Part.setMessage_hostData (p : Part) (m : Nat) (e : Message) :
    (p.setMessage m e).hostData = p.hostData := rfl
@[simp] theorem Part.setMessage_path (p : Part) (m : Nat) (e : Message) : (p.setMessage m e).path = p.path := rfl
@[simp] theorem Part.setMessage_params (p : Part) (m : Nat) (e : Message) :
    (p.setMessage m e).params = p.params := rfl
@[simp] theorem Part.setMessage_geo (p : Part) (m : Nat) (e : Message) : (p.setMessage m e).geo = p.geo := rfl
@[simp] theorem Part.setMessage_nodes (p : Part) (m : Nat) (e : Message) : (p.setMessage m e).nodes = p.nodes := rfl
@[simp] theorem Part.setMessage_trk (p : Part) (m : Nat) (e : Message) : (p.setMessage m e).trk = p.trk := rfl
@[simp] theorem Part.setMessage_arr (p : Part) (m : Nat) (e : Message) : (p.setMessage m e).arr = p.arr := rfl
@[simp] theorem Part.setMessage_prm (p : Part) (m : Nat) (e : Message) : (p.setMessage m e).prm = p.prm := rfl
@[simp] theorem Part.setMessage_msg (p : Part) (m : Nat) (e : Message) : (p.setMessage m e).msg = p.msg.set m e := rfl
@[simp] theorem Part.setMessage_txf (p : Part) (m : Nat) (e : Message) : (p.setMessage m e).txf = p.txf := rfl
@[simp] theorem Part.setMessage_trg (p : Part) (m : Nat) (e : Message) : (p.setMessage m e).trg = p.trg := rfl
@[simp] theorem Part.setMessage_ovr (p : Part) (m : Nat) (e : Message) : (p.setMessage m e).ovr = p.ovr := rfl
@[simp] theorem Part.setMessage_disp (p : Part) (m : Nat) (e : Message) : (p.setMessage m e).disp = p.disp := rfl

/-! ### `Part.setChannel`: one channel -/

@[simp] theorem Part.setChannel_now (p : Part) (k : Nat) (c : Channel) : (p.setChannel k c).now = p.now := rfl
@[simp] theorem Part.setChannel_tenth (p : Part) (k : Nat) (c : Channel) : (p.setChannel k c).tenth = p.tenth := rfl
@[simp] theorem Part.setChannel_sampledAt (p : Part) (k : Nat) (c : Channel) :
    (p.setChannel k c).sampledAt = p.sampledAt := rfl
@[simp] theorem Part.setChannel_lines (p : Part) (k : Nat) (c : Channel) : (p.setChannel k c).lines = p.lines := rfl
@[simp] theorem Part.setChannel_hostData (p : Part) (k : Nat) (c : Channel) :
    (p.setChannel k c).hostData = p.hostData := rfl
@[simp] theorem Part.setChannel_path (p : Part) (k : Nat) (c : Channel) : (p.setChannel k c).path = p.path := rfl
@[simp] theorem Part.setChannel_params (p : Part) (k : Nat) (c : Channel) :
    (p.setChannel k c).params = p.params := rfl
@[simp] theorem Part.setChannel_geo (p : Part) (k : Nat) (c : Channel) : (p.setChannel k c).geo = p.geo := rfl
@[simp] theorem Part.setChannel_nodes (p : Part) (k : Nat) (c : Channel) : (p.setChannel k c).nodes = p.nodes := rfl
@[simp] theorem Part.setChannel_trk (p : Part) (k : Nat) (c : Channel) : (p.setChannel k c).trk = p.trk := rfl
@[simp] theorem Part.setChannel_arr (p : Part) (k : Nat) (c : Channel) : (p.setChannel k c).arr = p.arr := rfl
@[simp] theorem Part.setChannel_prm (p : Part) (k : Nat) (c : Channel) : (p.setChannel k c).prm = p.prm := rfl
@[simp] theorem Part.setChannel_msg (p : Part) (k : Nat) (c : Channel) : (p.setChannel k c).msg = p.msg := rfl
@[simp] theorem Part.setChannel_txf (p : Part) (k : Nat) (c : Channel) : (p.setChannel k c).txf = p.txf := rfl
@[simp] theorem Part.setChannel_trg (p : Part) (k : Nat) (c : Channel) : (p.setChannel k c).trg = p.trg := rfl
@[simp] theorem Part.setChannel_ovr (p : Part) (k : Nat) (c : Channel) : (p.setChannel k c).ovr = p.ovr.set k c := rfl
@[simp] theorem Part.setChannel_disp (p : Part) (k : Nat) (c : Channel) : (p.setChannel k c).disp = p.disp := rfl

/-! ### `Part.setTrigger`: one trigger -/

@[simp] theorem Part.setTrigger_now (p : Part) (t : Nat) (x : Trigger) : (p.setTrigger t x).now = p.now := rfl
@[simp] theorem Part.setTrigger_tenth (p : Part) (t : Nat) (x : Trigger) : (p.setTrigger t x).tenth = p.tenth := rfl
@[simp] theorem Part.setTrigger_sampledAt (p : Part) (t : Nat) (x : Trigger) :
    (p.setTrigger t x).sampledAt = p.sampledAt := rfl
@[simp] theorem Part.setTrigger_lines (p : Part) (t : Nat) (x : Trigger) : (p.setTrigger t x).lines = p.lines := rfl
@[simp] theorem Part.setTrigger_hostData (p : Part) (t : Nat) (x : Trigger) :
    (p.setTrigger t x).hostData = p.hostData := rfl
@[simp] theorem Part.setTrigger_path (p : Part) (t : Nat) (x : Trigger) : (p.setTrigger t x).path = p.path := rfl
@[simp] theorem Part.setTrigger_params (p : Part) (t : Nat) (x : Trigger) :
    (p.setTrigger t x).params = p.params := rfl
@[simp] theorem Part.setTrigger_geo (p : Part) (t : Nat) (x : Trigger) : (p.setTrigger t x).geo = p.geo := rfl
@[simp] theorem Part.setTrigger_nodes (p : Part) (t : Nat) (x : Trigger) : (p.setTrigger t x).nodes = p.nodes := rfl
@[simp] theorem Part.setTrigger_trk (p : Part) (t : Nat) (x : Trigger) : (p.setTrigger t x).trk = p.trk := rfl
@[simp] theorem Part.setTrigger_arr (p : Part) (t : Nat) (x : Trigger) : (p.setTrigger t x).arr = p.arr := rfl
@[simp] theorem Part.setTrigger_prm (p : Part) (t : Nat) (x : Trigger) : (p.setTrigger t x).prm = p.prm := rfl
@[simp] theorem Part.setTrigger_msg (p : Part) (t : Nat) (x : Trigger) : (p.setTrigger t x).msg = p.msg := rfl
@[simp] theorem Part.setTrigger_txf (p : Part) (t : Nat) (x : Trigger) : (p.setTrigger t x).txf = p.txf := rfl
@[simp] theorem Part.setTrigger_trg (p : Part) (t : Nat) (x : Trigger) :
    (p.setTrigger t x).trg = p.trg.set t (some x) := rfl
@[simp] theorem Part.setTrigger_ovr (p : Part) (t : Nat) (x : Trigger) : (p.setTrigger t x).ovr = p.ovr := rfl
@[simp] theorem Part.setTrigger_disp (p : Part) (t : Nat) (x : Trigger) : (p.setTrigger t x).disp = p.disp := rfl

/-! ### `Part.tick`: time -/

@[simp] theorem Part.tick_sampledAt (p : Part) : (p.tick).sampledAt = p.sampledAt := by
  unfold Part.tick
  split <;> rfl
@[simp] theorem Part.tick_lines (p : Part) : (p.tick).lines = p.lines := by
  unfold Part.tick
  split <;> rfl
@[simp] theorem Part.tick_hostData (p : Part) : (p.tick).hostData = p.hostData := by
  unfold Part.tick
  split <;> rfl
@[simp] theorem Part.tick_path (p : Part) : (p.tick).path = p.path := by
  unfold Part.tick
  split <;> rfl
@[simp] theorem Part.tick_params (p : Part) : (p.tick).params = p.params := by
  unfold Part.tick
  split <;> rfl
@[simp] theorem Part.tick_geo (p : Part) : (p.tick).geo = p.geo := by
  unfold Part.tick
  split <;> rfl
@[simp] theorem Part.tick_nodes (p : Part) : (p.tick).nodes = p.nodes := by
  unfold Part.tick
  split <;> rfl
@[simp] theorem Part.tick_trk (p : Part) : (p.tick).trk = p.trk := by
  unfold Part.tick
  split <;> rfl
@[simp] theorem Part.tick_arr (p : Part) : (p.tick).arr = p.arr := by
  unfold Part.tick
  split <;> rfl
@[simp] theorem Part.tick_prm (p : Part) : (p.tick).prm = p.prm := by
  unfold Part.tick
  split <;> rfl
@[simp] theorem Part.tick_msg (p : Part) : (p.tick).msg = p.msg := by
  unfold Part.tick
  split <;> rfl
@[simp] theorem Part.tick_txf (p : Part) : (p.tick).txf = p.txf := by
  unfold Part.tick
  split <;> rfl
@[simp] theorem Part.tick_trg (p : Part) : (p.tick).trg = p.trg := by
  unfold Part.tick
  split <;> rfl
@[simp] theorem Part.tick_ovr (p : Part) : (p.tick).ovr = p.ovr := by
  unfold Part.tick
  split <;> rfl
@[simp] theorem Part.tick_disp (p : Part) : (p.tick).disp = p.disp := by
  unfold Part.tick
  split <;> rfl
@[simp] theorem Disp.onRpt_cmp (d : Disp) (f : Rpt → Rpt) : (d.onRpt f).cmp = d.cmp := rfl
@[simp] theorem Disp.setRing_cmp (d : Disp) (n : Nat) (r : Ring) : (d.setRing n r).cmp = d.cmp := rfl
@[simp] theorem Disp.onRpt_lnk (d : Disp) (f : Rpt → Rpt) : (d.onRpt f).lnk = d.lnk := rfl
@[simp] theorem Disp.setRing_lnk (d : Disp) (n : Nat) (r : Ring) : (d.setRing n r).lnk = d.lnk.set n r := rfl
@[simp] theorem Disp.onRpt_rpt (d : Disp) (f : Rpt → Rpt) : (d.onRpt f).rpt = f d.rpt := rfl
@[simp] theorem Disp.setRing_rpt (d : Disp) (n : Nat) (r : Ring) : (d.setRing n r).rpt = d.rpt := rfl

/-! ### `Path.leave`: the own accesses alone -/

@[simp] theorem Path.leave_state (p : Path) (k : OwnKind) : (p.leave k).state = p.state := rfl
@[simp] theorem Path.leave_anchor (p : Path) (k : OwnKind) : (p.leave k).anchor = p.anchor := rfl
@[simp] theorem Path.leave_takeWord (p : Path) (k : OwnKind) : (p.leave k).takeWord = p.takeWord := rfl
@[simp] theorem Path.leave_takeWordRead (p : Path) (k : OwnKind) : (p.leave k).takeWordRead = p.takeWordRead := rfl
@[simp] theorem Path.leave_watch (p : Path) (k : OwnKind) : (p.leave k).watch = p.watch := rfl
@[simp] theorem Path.leave_mirror (p : Path) (k : OwnKind) : (p.leave k).mirror = p.mirror := rfl
@[simp] theorem Path.leave_lastSeq (p : Path) (k : OwnKind) : (p.leave k).lastSeq = p.lastSeq := rfl
@[simp] theorem Path.leave_take (p : Path) (k : OwnKind) : (p.leave k).take = p.take := rfl

/-! ### `Path.beginTake`: the path's state, its take and its own accesses -/

@[simp] theorem Path.beginTake_state (p : Path) (r : Bool) (k : TakeKind) : (p.beginTake r k).state = .taking r := rfl
@[simp] theorem Path.beginTake_take (p : Path) (r : Bool) (k : TakeKind) :
    (p.beginTake r k).take = some (Take.fresh k) := rfl
@[simp] theorem Path.beginTake_takeWordRead (p : Path) (r : Bool) (k : TakeKind) :
    (p.beginTake r k).takeWordRead = false := rfl
@[simp] theorem Path.beginTake_anchor (p : Path) (r : Bool) (k : TakeKind) :
    (p.beginTake r k).anchor = p.anchor := rfl
@[simp] theorem Path.beginTake_takeWord (p : Path) (r : Bool) (k : TakeKind) :
    (p.beginTake r k).takeWord = p.takeWord := rfl
@[simp] theorem Path.beginTake_watch (p : Path) (r : Bool) (k : TakeKind) :
    (p.beginTake r k).watch = p.watch := rfl
@[simp] theorem Path.beginTake_mirror (p : Path) (r : Bool) (k : TakeKind) :
    (p.beginTake r k).mirror = p.mirror := rfl
@[simp] theorem Path.beginTake_lastSeq (p : Path) (r : Bool) (k : TakeKind) :
    (p.beginTake r k).lastSeq = p.lastSeq := rfl

/-! ### `Path.passOver`: the own accesses alone -/

@[simp] theorem Path.passOver_state (p : Path) : (p.passOver).state = p.state := rfl
@[simp] theorem Path.passOver_anchor (p : Path) : (p.passOver).anchor = p.anchor := rfl
@[simp] theorem Path.passOver_takeWord (p : Path) : (p.passOver).takeWord = p.takeWord := rfl
@[simp] theorem Path.passOver_takeWordRead (p : Path) : (p.passOver).takeWordRead = p.takeWordRead := rfl
@[simp] theorem Path.passOver_watch (p : Path) : (p.passOver).watch = p.watch := rfl
@[simp] theorem Path.passOver_mirror (p : Path) : (p.passOver).mirror = p.mirror := rfl
@[simp] theorem Path.passOver_lastSeq (p : Path) : (p.passOver).lastSeq = p.lastSeq := rfl
@[simp] theorem Path.passOver_take (p : Path) : (p.passOver).take = p.take := rfl

end Sys2Proof.Machine
end

