-- ==== Sys2Proof/Laws/Blocks.lean ====
section
/-! SUPPORT. What each operation of a block leaves alone, one lemma per operation and group of state. The groups: `base`, the
time base, the pins, PATH, the parameter shadow, the geometry image and the node table; `trk`; `arr`; `prm`; and `text`,
the message entries, fetch jobs, triggers and override channels. -/

namespace Sys2Proof.Machine

/-- The state of the part that no block's operation changes: time, pins, PATH, parameters, geometry, node table. -/
def Part.base (p : Part) :
    (Time × Nat × Time × BitVec 4 × Word) × Path × Params × Geo × List (Option NodeConfig) :=
  ((p.now, p.tenth, p.sampledAt, p.lines, p.hostData), p.path, p.params, p.geo, p.nodes)

/-- The message entries, fetch jobs, triggers and override channels. -/
def Part.text (p : Part) : List Message × Txf × List (Option Trigger) × List Channel :=
  (p.msg, p.txf, p.trg, p.ovr)

/-- What every round of a fold keeps, the fold keeps. -/
theorem foldl_keeps {α β γ : Type} (g : α → γ) {f : α → β → α} (h : ∀ q x, g (f q x) = g q) (l : List β) (p : α) :
    g (l.foldl f p) = g p := by
  induction l generalizing p with
  | nil => rfl
  | cons x l ih => rw [List.foldl_cons, ih, h]

/-- The path of a part with the same base. -/
theorem path_of_base {p q : Part} (h : p.base = q.base) : p.path = q.path := congrArg (fun b => b.2.1) h

/-- The time of a part with the same base. -/
theorem now_of_base {p q : Part} (h : p.base = q.base) : p.now = q.now := congrArg (fun b => b.1.1) h

/-- The parameters of a part with the same base. -/
theorem params_of_base {p q : Part} (h : p.base = q.base) : p.params = q.params := congrArg (fun b => b.2.2.1) h

/-- The geometry of a part with the same base. -/
theorem geo_of_base {p q : Part} (h : p.base = q.base) : p.geo = q.geo := congrArg (fun b => b.2.2.2.1) h

/-- The node table of a part with the same base. -/
theorem nodes_of_base {p q : Part} (h : p.base = q.base) : p.nodes = q.nodes := congrArg (fun b => b.2.2.2.2) h

/-! ### RPT and CMP operations: the display side alone (R120, R181, R185, R186) -/

@[simp] theorem Part.report_base (p : Part) (w : Word × Word) : (p.report w).base = p.base := rfl
@[simp] theorem Part.report_trk (p : Part) (w : Word × Word) : (p.report w).trk = p.trk := rfl
@[simp] theorem Part.report_arr (p : Part) (w : Word × Word) : (p.report w).arr = p.arr := rfl
@[simp] theorem Part.report_prm (p : Part) (w : Word × Word) : (p.report w).prm = p.prm := rfl
@[simp] theorem Part.report_text (p : Part) (w : Word × Word) : (p.report w).text = p.text := rfl
@[simp] theorem Part.count_base (p : Part) (c : CounterId) (n : Nat) : (p.count c n).base = p.base := rfl
@[simp] theorem Part.count_trk (p : Part) (c : CounterId) (n : Nat) : (p.count c n).trk = p.trk := rfl
@[simp] theorem Part.count_arr (p : Part) (c : CounterId) (n : Nat) : (p.count c n).arr = p.arr := rfl
@[simp] theorem Part.count_prm (p : Part) (c : CounterId) (n : Nat) : (p.count c n).prm = p.prm := rfl
@[simp] theorem Part.count_text (p : Part) (c : CounterId) (n : Nat) : (p.count c n).text = p.text := rfl
@[simp] theorem Part.status_base (p : Part) (i : Nat) (f : List Word) : (p.status i f).base = p.base := rfl
@[simp] theorem Part.status_trk (p : Part) (i : Nat) (f : List Word) : (p.status i f).trk = p.trk := rfl
@[simp] theorem Part.status_arr (p : Part) (i : Nat) (f : List Word) : (p.status i f).arr = p.arr := rfl
@[simp] theorem Part.status_prm (p : Part) (i : Nat) (f : List Word) : (p.status i f).prm = p.prm := rfl
@[simp] theorem Part.status_text (p : Part) (i : Nat) (f : List Word) : (p.status i f).text = p.text := rfl
@[simp] theorem Part.onRpt_base (p : Part) (f : Rpt → Rpt) : (p.onRpt f).base = p.base := rfl
@[simp] theorem Part.onRpt_text (p : Part) (f : Rpt → Rpt) : (p.onRpt f).text = p.text := rfl
@[simp] theorem Part.recomposeFor_base (p : Part) (f : Nat → NodeConfig → List Region) :
    (p.recomposeFor f).base = p.base := rfl
@[simp] theorem Part.recomposeFor_trk (p : Part) (f : Nat → NodeConfig → List Region) :
    (p.recomposeFor f).trk = p.trk := rfl
@[simp] theorem Part.recomposeFor_arr (p : Part) (f : Nat → NodeConfig → List Region) :
    (p.recomposeFor f).arr = p.arr := rfl
@[simp] theorem Part.recomposeFor_prm (p : Part) (f : Nat → NodeConfig → List Region) :
    (p.recomposeFor f).prm = p.prm := rfl
@[simp] theorem Part.recomposeFor_text (p : Part) (f : Nat → NodeConfig → List Region) :
    (p.recomposeFor f).text = p.text := rfl
@[simp] theorem Part.cmpDeckChange_base (p : Part) (c d : Nat) : (p.cmpDeckChange c d).base = p.base := rfl
@[simp] theorem Part.cmpDeckChange_trk (p : Part) (c d : Nat) : (p.cmpDeckChange c d).trk = p.trk := rfl
@[simp] theorem Part.cmpDeckChange_arr (p : Part) (c d : Nat) : (p.cmpDeckChange c d).arr = p.arr := rfl
@[simp] theorem Part.cmpDeckChange_prm (p : Part) (c d : Nat) : (p.cmpDeckChange c d).prm = p.prm := rfl
@[simp] theorem Part.cmpDeckChange_text (p : Part) (c d : Nat) : (p.cmpDeckChange c d).text = p.text := rfl
@[simp] theorem Part.cmpLanternChange_base (p : Part) (c d f k : Nat) :
    (p.cmpLanternChange c d f k).base = p.base := rfl
@[simp] theorem Part.cmpLanternChange_trk (p : Part) (c d f k : Nat) : (p.cmpLanternChange c d f k).trk = p.trk := rfl
@[simp] theorem Part.cmpLanternChange_arr (p : Part) (c d f k : Nat) : (p.cmpLanternChange c d f k).arr = p.arr := rfl
@[simp] theorem Part.cmpLanternChange_prm (p : Part) (c d f k : Nat) : (p.cmpLanternChange c d f k).prm = p.prm := rfl
@[simp] theorem Part.cmpLanternChange_text (p : Part) (c d f k : Nat) :
    (p.cmpLanternChange c d f k).text = p.text := rfl
@[simp] theorem Part.cmpHeadChange_base (p : Part) (t : Nat) : (p.cmpHeadChange t).base = p.base := rfl
@[simp] theorem Part.cmpHeadChange_trk (p : Part) (t : Nat) : (p.cmpHeadChange t).trk = p.trk := rfl
@[simp] theorem Part.cmpHeadChange_arr (p : Part) (t : Nat) : (p.cmpHeadChange t).arr = p.arr := rfl
@[simp] theorem Part.cmpHeadChange_prm (p : Part) (t : Nat) : (p.cmpHeadChange t).prm = p.prm := rfl
@[simp] theorem Part.cmpHeadChange_text (p : Part) (t : Nat) : (p.cmpHeadChange t).text = p.text := rfl
@[simp] theorem Part.cmpEstimateChange_base (p : Part) (n : Nat) :
    (p.cmpEstimateChange n).base = p.base := by
  unfold Part.cmpEstimateChange
  split
  · rfl
  · split <;> rfl
@[simp] theorem Part.cmpEstimateChange_trk (p : Part) (n : Nat) :
    (p.cmpEstimateChange n).trk = p.trk := by
  unfold Part.cmpEstimateChange
  split
  · rfl
  · split <;> rfl
@[simp] theorem Part.cmpEstimateChange_arr (p : Part) (n : Nat) :
    (p.cmpEstimateChange n).arr = p.arr := by
  unfold Part.cmpEstimateChange
  split
  · rfl
  · split <;> rfl
@[simp] theorem Part.cmpEstimateChange_prm (p : Part) (n : Nat) :
    (p.cmpEstimateChange n).prm = p.prm := by
  unfold Part.cmpEstimateChange
  split
  · rfl
  · split <;> rfl
@[simp] theorem Part.cmpEstimateChange_text (p : Part) (n : Nat) :
    (p.cmpEstimateChange n).text = p.text := by
  unfold Part.cmpEstimateChange
  split
  · rfl
  · split <;> rfl
@[simp] theorem Part.cmpTripNotice_base (p : Part) (c d f : Nat) : (p.cmpTripNotice c d f).base = p.base := rfl
@[simp] theorem Part.cmpTripNotice_trk (p : Part) (c d f : Nat) : (p.cmpTripNotice c d f).trk = p.trk := rfl
@[simp] theorem Part.cmpTripNotice_arr (p : Part) (c d f : Nat) : (p.cmpTripNotice c d f).arr = p.arr := rfl
@[simp] theorem Part.cmpTripNotice_prm (p : Part) (c d f : Nat) : (p.cmpTripNotice c d f).prm = p.prm := rfl
@[simp] theorem Part.cmpTripNotice_text (p : Part) (c d f : Nat) : (p.cmpTripNotice c d f).text = p.text := rfl
@[simp] theorem Part.cmpMessageNotice_base (p : Part) : (p.cmpMessageNotice).base = p.base := rfl
@[simp] theorem Part.cmpMessageNotice_trk (p : Part) : (p.cmpMessageNotice).trk = p.trk := rfl
@[simp] theorem Part.cmpMessageNotice_arr (p : Part) : (p.cmpMessageNotice).arr = p.arr := rfl
@[simp] theorem Part.cmpMessageNotice_prm (p : Part) : (p.cmpMessageNotice).prm = p.prm := rfl
@[simp] theorem Part.cmpMessageNotice_text (p : Part) : (p.cmpMessageNotice).text = p.text := rfl
@[simp] theorem Part.cmpChannelChange_base (p : Part) : (p.cmpChannelChange).base = p.base := rfl
@[simp] theorem Part.cmpChannelChange_trk (p : Part) : (p.cmpChannelChange).trk = p.trk := rfl
@[simp] theorem Part.cmpChannelChange_arr (p : Part) : (p.cmpChannelChange).arr = p.arr := rfl
@[simp] theorem Part.cmpChannelChange_prm (p : Part) : (p.cmpChannelChange).prm = p.prm := rfl
@[simp] theorem Part.cmpChannelChange_text (p : Part) : (p.cmpChannelChange).text = p.text := rfl
@[simp] theorem Part.cmpTextNotice_base (p : Part) (k : Nat) (b : Bool) : (p.cmpTextNotice k b).base = p.base := rfl
@[simp] theorem Part.cmpTextNotice_trk (p : Part) (k : Nat) (b : Bool) : (p.cmpTextNotice k b).trk = p.trk := rfl
@[simp] theorem Part.cmpTextNotice_arr (p : Part) (k : Nat) (b : Bool) : (p.cmpTextNotice k b).arr = p.arr := rfl
@[simp] theorem Part.cmpTextNotice_prm (p : Part) (k : Nat) (b : Bool) : (p.cmpTextNotice k b).prm = p.prm := rfl
@[simp] theorem Part.cmpTextNotice_text (p : Part) (k : Nat) (b : Bool) : (p.cmpTextNotice k b).text = p.text := rfl

/-! ### ARR operations: ARR, the held values in PRM, the display side (chapter 3) -/

@[simp] theorem Part.onlyArr_base (p q : Part) : (p.onlyArr q).base = p.base := rfl
@[simp] theorem Part.onlyArr_text (p q : Part) : (p.onlyArr q).text = p.text := rfl
@[simp] theorem Part.promptEstimate_base (p : Part) (n : Nat) (f : Bool) : (p.promptEstimate n f).base = p.base := rfl
@[simp] theorem Part.promptEstimate_trk (p : Part) (n : Nat) (f : Bool) : (p.promptEstimate n f).trk = p.trk := rfl
@[simp] theorem Part.promptEstimate_text (p : Part) (n : Nat) (f : Bool) : (p.promptEstimate n f).text = p.text := rfl
@[simp] theorem Part.promptEnded_base (p : Part) (n : Nat) : (p.promptEnded n).base = p.base := rfl
@[simp] theorem Part.promptEnded_trk (p : Part) (n : Nat) : (p.promptEnded n).trk = p.trk := rfl
@[simp] theorem Part.promptEnded_text (p : Part) (n : Nat) : (p.promptEnded n).text = p.text := rfl
@[simp] theorem Part.arrEvaluation_base (p : Part) (c : Nat) : (p.arrEvaluation c).base = p.base := rfl
@[simp] theorem Part.arrEvaluation_trk (p : Part) (c : Nat) : (p.arrEvaluation c).trk = p.trk := rfl
@[simp] theorem Part.arrEvaluation_text (p : Part) (c : Nat) : (p.arrEvaluation c).text = p.text := rfl
@[simp] theorem Part.arrArrival_base (p : Part) (c d f : Nat) : (p.arrArrival c d f).base = p.base := rfl
@[simp] theorem Part.arrArrival_trk (p : Part) (c d f : Nat) : (p.arrArrival c d f).trk = p.trk := rfl
@[simp] theorem Part.arrArrival_text (p : Part) (c d f : Nat) : (p.arrArrival c d f).text = p.text := rfl
@[simp] theorem Part.arrDeparture_base (p : Part) (c d f : Nat) : (p.arrDeparture c d f).base = p.base := rfl
@[simp] theorem Part.arrDeparture_trk (p : Part) (c d f : Nat) : (p.arrDeparture c d f).trk = p.trk := rfl
@[simp] theorem Part.arrDeparture_text (p : Part) (c d f : Nat) : (p.arrDeparture c d f).text = p.text := rfl
@[simp] theorem Part.arrWithdraw_base (p : Part) (c : Nat) : (p.arrWithdraw c).base = p.base := rfl
@[simp] theorem Part.arrWithdraw_trk (p : Part) (c : Nat) : (p.arrWithdraw c).trk = p.trk := rfl
@[simp] theorem Part.arrWithdraw_text (p : Part) (c : Nat) : (p.arrWithdraw c).text = p.text := rfl
@[simp] theorem Part.arrReturn_base (p : Part) (c : Nat) : (p.arrReturn c).base = p.base := rfl
@[simp] theorem Part.arrReturn_trk (p : Part) (c : Nat) : (p.arrReturn c).trk = p.trk := rfl
@[simp] theorem Part.arrReturn_text (p : Part) (c : Nat) : (p.arrReturn c).text = p.text := rfl

/-! ### PRM operations: PRM and the display side (chapter 4) -/

@[simp] theorem Part.onlyPrm_base (p q : Part) : (p.onlyPrm q).base = p.base := rfl
@[simp] theorem Part.onlyPrm_text (p q : Part) : (p.onlyPrm q).text = p.text := rfl
@[simp] theorem Part.setQueue_base (p : Part) (t : Nat) (r : List Nat) : (p.setQueue t r).base = p.base := rfl
@[simp] theorem Part.setQueue_trk (p : Part) (t : Nat) (r : List Nat) : (p.setQueue t r).trk = p.trk := rfl
@[simp] theorem Part.setQueue_arr (p : Part) (t : Nat) (r : List Nat) : (p.setQueue t r).arr = p.arr := rfl
@[simp] theorem Part.setQueue_text (p : Part) (t : Nat) (r : List Nat) : (p.setQueue t r).text = p.text := rfl
@[simp] theorem Part.setAssignment_base (p : Part) (n : Nat) (f : Assignment → Assignment) :
    (p.setAssignment n f).base = p.base := rfl
@[simp] theorem Part.setAssignment_trk (p : Part) (n : Nat) (f : Assignment → Assignment) :
    (p.setAssignment n f).trk = p.trk := rfl
@[simp] theorem Part.setAssignment_arr (p : Part) (n : Nat) (f : Assignment → Assignment) :
    (p.setAssignment n f).arr = p.arr := rfl
@[simp] theorem Part.setAssignment_text (p : Part) (n : Nat) (f : Assignment → Assignment) :
    (p.setAssignment n f).text = p.text := rfl
@[simp] theorem Part.removeEntries_base (p : Part) (g : Assignment → Bool) : (p.removeEntries g).base = p.base := rfl
@[simp] theorem Part.removeEntries_trk (p : Part) (g : Assignment → Bool) : (p.removeEntries g).trk = p.trk := rfl
@[simp] theorem Part.removeEntries_arr (p : Part) (g : Assignment → Bool) : (p.removeEntries g).arr = p.arr := rfl
@[simp] theorem Part.removeEntries_text (p : Part) (g : Assignment → Bool) : (p.removeEntries g).text = p.text := rfl
@[simp] theorem Part.retireEntries_base (p : Part) (g : Assignment → Bool) (w : Nat → Word × Word) :
    (p.retireEntries g w).base = p.base := by
  simp only [Part.retireEntries]
  split <;> rfl
@[simp] theorem Part.retireEntries_trk (p : Part) (g : Assignment → Bool) (w : Nat → Word × Word) :
    (p.retireEntries g w).trk = p.trk := by
  simp only [Part.retireEntries]
  split <;> rfl
@[simp] theorem Part.retireEntries_arr (p : Part) (g : Assignment → Bool) (w : Nat → Word × Word) :
    (p.retireEntries g w).arr = p.arr := by
  simp only [Part.retireEntries]
  split <;> rfl
@[simp] theorem Part.retireEntries_text (p : Part) (g : Assignment → Bool) (w : Nat → Word × Word) :
    (p.retireEntries g w).text = p.text := by
  simp only [Part.retireEntries]
  split <;> rfl
@[simp] theorem Part.createEntry_base (p : Part) (a b c d e f g : Nat) (s : Bool) :
    (p.createEntry a b c d e f g s).base = p.base := rfl
@[simp] theorem Part.createEntry_trk (p : Part) (a b c d e f g : Nat) (s : Bool) :
    (p.createEntry a b c d e f g s).trk = p.trk := rfl
@[simp] theorem Part.createEntry_arr (p : Part) (a b c d e f g : Nat) (s : Bool) :
    (p.createEntry a b c d e f g s).arr = p.arr := rfl
@[simp] theorem Part.createEntry_text (p : Part) (a b c d e f g : Nat) (s : Bool) :
    (p.createEntry a b c d e f g s).text = p.text := rfl
@[simp] theorem Part.refuseAssign_base (p : Part) (k n : Nat) (w : AssignReason) :
    (p.refuseAssign k n w).base = p.base := rfl
@[simp] theorem Part.refuseAssign_trk (p : Part) (k n : Nat) (w : AssignReason) :
    (p.refuseAssign k n w).trk = p.trk := rfl
@[simp] theorem Part.refuseAssign_arr (p : Part) (k n : Nat) (w : AssignReason) :
    (p.refuseAssign k n w).arr = p.arr := rfl
@[simp] theorem Part.refuseAssign_text (p : Part) (k n : Nat) (w : AssignReason) :
    (p.refuseAssign k n w).text = p.text := rfl
@[simp] theorem Part.refuseAssign_prm (p : Part) (k n : Nat) (w : AssignReason) :
    (p.refuseAssign k n w).prm = p.prm := rfl
@[simp] theorem Part.displace_base (p : Part) (a : Assignment) : (p.displace a).base = p.base := rfl
@[simp] theorem Part.displace_trk (p : Part) (a : Assignment) : (p.displace a).trk = p.trk := rfl
@[simp] theorem Part.displace_arr (p : Part) (a : Assignment) : (p.displace a).arr = p.arr := rfl
@[simp] theorem Part.displace_text (p : Part) (a : Assignment) : (p.displace a).text = p.text := rfl
@[simp] theorem Part.dropNew_base (p : Part) (k t n : Nat) (c : NodeConfig) :
    (p.dropNew k t n c).base = p.base := by
  unfold Part.dropNew
  split <;> rfl
@[simp] theorem Part.dropNew_trk (p : Part) (k t n : Nat) (c : NodeConfig) :
    (p.dropNew k t n c).trk = p.trk := by
  unfold Part.dropNew
  split <;> rfl
@[simp] theorem Part.dropNew_arr (p : Part) (k t n : Nat) (c : NodeConfig) :
    (p.dropNew k t n c).arr = p.arr := by
  unfold Part.dropNew
  split <;> rfl
@[simp] theorem Part.dropNew_text (p : Part) (k t n : Nat) (c : NodeConfig) :
    (p.dropNew k t n c).text = p.text := by
  unfold Part.dropNew
  split <;> rfl
@[simp] theorem Part.takeNew_base (p : Part) : p.takeNew.base = p.base := rfl
@[simp] theorem Part.examineNew_base (p : Part) (o : Nat) (w : List Word) :
    (p.examineNew o w).base = p.base := by
  simp only [Part.examineNew]
  repeat' split
  all_goals simp
@[simp] theorem Part.prmNew_base (p : Part) (w : List Word) :
    (p.prmNew w).base = p.base := by
  simp [Part.prmNew]
@[simp] theorem Part.takeNew_trk (p : Part) : p.takeNew.trk = p.trk := rfl
@[simp] theorem Part.examineNew_trk (p : Part) (o : Nat) (w : List Word) :
    (p.examineNew o w).trk = p.trk := by
  simp only [Part.examineNew]
  repeat' split
  all_goals simp
@[simp] theorem Part.prmNew_trk (p : Part) (w : List Word) :
    (p.prmNew w).trk = p.trk := by
  simp [Part.prmNew]
@[simp] theorem Part.takeNew_arr (p : Part) : p.takeNew.arr = p.arr := rfl
@[simp] theorem Part.examineNew_arr (p : Part) (o : Nat) (w : List Word) :
    (p.examineNew o w).arr = p.arr := by
  simp only [Part.examineNew]
  repeat' split
  all_goals simp
@[simp] theorem Part.prmNew_arr (p : Part) (w : List Word) :
    (p.prmNew w).arr = p.arr := by
  simp [Part.prmNew]
@[simp] theorem Part.takeNew_text (p : Part) : p.takeNew.text = p.text := rfl
@[simp] theorem Part.examineNew_text (p : Part) (o : Nat) (w : List Word) :
    (p.examineNew o w).text = p.text := by
  simp only [Part.examineNew]
  repeat' split
  all_goals simp
@[simp] theorem Part.prmNew_text (p : Part) (w : List Word) :
    (p.prmNew w).text = p.text := by
  simp [Part.prmNew]
@[simp] theorem Part.prmCancel_base (p : Part) (w : List Word) :
    (p.prmCancel w).base = p.base := by
  unfold Part.prmCancel
  split <;> simp
@[simp] theorem Part.prmCancel_trk (p : Part) (w : List Word) :
    (p.prmCancel w).trk = p.trk := by
  unfold Part.prmCancel
  split <;> simp
@[simp] theorem Part.prmCancel_arr (p : Part) (w : List Word) :
    (p.prmCancel w).arr = p.arr := by
  unfold Part.prmCancel
  split <;> simp
@[simp] theorem Part.prmCancel_text (p : Part) (w : List Word) :
    (p.prmCancel w).text = p.text := by
  unfold Part.prmCancel
  split <;> simp
@[simp] theorem Part.reassign_base (p : Part) (a : Assignment) (c d : Nat) : (p.reassign a c d).base = p.base := rfl
@[simp] theorem Part.reassign_trk (p : Part) (a : Assignment) (c d : Nat) : (p.reassign a c d).trk = p.trk := rfl
@[simp] theorem Part.reassign_arr (p : Part) (a : Assignment) (c d : Nat) : (p.reassign a c d).arr = p.arr := rfl
@[simp] theorem Part.reassign_text (p : Part) (a : Assignment) (c d : Nat) : (p.reassign a c d).text = p.text := rfl
@[simp] theorem Part.prmReassign_base (p : Part) (w : List Word) :
    (p.prmReassign w).base = p.base := by
  simp only [Part.prmReassign]
  repeat' split
  all_goals simp
@[simp] theorem Part.prmReassign_trk (p : Part) (w : List Word) :
    (p.prmReassign w).trk = p.trk := by
  simp only [Part.prmReassign]
  repeat' split
  all_goals simp
@[simp] theorem Part.prmReassign_arr (p : Part) (w : List Word) :
    (p.prmReassign w).arr = p.arr := by
  simp only [Part.prmReassign]
  repeat' split
  all_goals simp
@[simp] theorem Part.prmReassign_text (p : Part) (w : List Word) :
    (p.prmReassign w).text = p.text := by
  simp only [Part.prmReassign]
  repeat' split
  all_goals simp
@[simp] theorem Part.prmRecord_base (p : Part) (s : Nat) (w : List Word) :
    (p.prmRecord s w).base = p.base := by
  unfold Part.prmRecord
  split <;> simp
@[simp] theorem Part.prmRecord_trk (p : Part) (s : Nat) (w : List Word) :
    (p.prmRecord s w).trk = p.trk := by
  unfold Part.prmRecord
  split <;> simp
@[simp] theorem Part.prmRecord_arr (p : Part) (s : Nat) (w : List Word) :
    (p.prmRecord s w).arr = p.arr := by
  unfold Part.prmRecord
  split <;> simp
@[simp] theorem Part.prmRecord_text (p : Part) (s : Nat) (w : List Word) :
    (p.prmRecord s w).text = p.text := by
  unfold Part.prmRecord
  split <;> simp
@[simp] theorem Part.prmWithdraw_base (p : Part) (c : Nat) :
    (p.prmWithdraw c).base = p.base := by
  rw [Part.prmWithdraw, Part.retireEntries_base]
  rfl
@[simp] theorem Part.prmWithdraw_trk (p : Part) (c : Nat) :
    (p.prmWithdraw c).trk = p.trk := by
  rw [Part.prmWithdraw, Part.retireEntries_trk]
@[simp] theorem Part.prmWithdraw_arr (p : Part) (c : Nat) :
    (p.prmWithdraw c).arr = p.arr := by
  rw [Part.prmWithdraw, Part.retireEntries_arr]
@[simp] theorem Part.prmWithdraw_text (p : Part) (c : Nat) :
    (p.prmWithdraw c).text = p.text := by
  rw [Part.prmWithdraw, Part.retireEntries_text]
  rfl
@[simp] theorem Part.prmReturn_base (p : Part) (c : Nat) : (p.prmReturn c).base = p.base := rfl
@[simp] theorem Part.prmReturn_trk (p : Part) (c : Nat) : (p.prmReturn c).trk = p.trk := rfl
@[simp] theorem Part.prmReturn_arr (p : Part) (c : Nat) : (p.prmReturn c).arr = p.arr := rfl
@[simp] theorem Part.prmReturn_text (p : Part) (c : Nat) : (p.prmReturn c).text = p.text := rfl
@[simp] theorem Part.prmArrival_base (p : Part) (c d f : Nat) : (p.prmArrival c d f).base = p.base := rfl
@[simp] theorem Part.prmArrival_trk (p : Part) (c d f : Nat) : (p.prmArrival c d f).trk = p.trk := rfl
@[simp] theorem Part.prmArrival_arr (p : Part) (c d f : Nat) : (p.prmArrival c d f).arr = p.arr := rfl
@[simp] theorem Part.prmArrival_text (p : Part) (c d f : Nat) : (p.prmArrival c d f).text = p.text := rfl
@[simp] theorem Part.prmDeparture_base (p : Part) (c d f : Nat) : (p.prmDeparture c d f).base = p.base := rfl
@[simp] theorem Part.prmDeparture_trk (p : Part) (c d f : Nat) : (p.prmDeparture c d f).trk = p.trk := rfl
@[simp] theorem Part.prmDeparture_arr (p : Part) (c d f : Nat) : (p.prmDeparture c d f).arr = p.arr := rfl
@[simp] theorem Part.prmDeparture_text (p : Part) (c d f : Nat) : (p.prmDeparture c d f).text = p.text := rfl
@[simp] theorem Part.showDeadline_base (p : Part) (t : Nat) :
    (p.showDeadline t).base = p.base := by
  unfold Part.showDeadline
  split <;> rfl
@[simp] theorem Part.showDeadline_trk (p : Part) (t : Nat) :
    (p.showDeadline t).trk = p.trk := by
  unfold Part.showDeadline
  split <;> rfl
@[simp] theorem Part.showDeadline_arr (p : Part) (t : Nat) :
    (p.showDeadline t).arr = p.arr := by
  unfold Part.showDeadline
  split <;> rfl
@[simp] theorem Part.showDeadline_text (p : Part) (t : Nat) :
    (p.showDeadline t).text = p.text := by
  unfold Part.showDeadline
  split <;> rfl
@[simp] theorem Part.lifetime_base (p : Part) :
    (p.lifetime).base = p.base := by
  simp only [Part.lifetime]
  split <;> simp
@[simp] theorem Part.lifetime_trk (p : Part) :
    (p.lifetime).trk = p.trk := by
  simp only [Part.lifetime]
  split <;> simp
@[simp] theorem Part.lifetime_arr (p : Part) :
    (p.lifetime).arr = p.arr := by
  simp only [Part.lifetime]
  split <;> simp
@[simp] theorem Part.lifetime_text (p : Part) :
    (p.lifetime).text = p.text := by
  simp only [Part.lifetime]
  split <;> simp
@[simp] theorem Part.prmFlush_base (p : Part) (k : Nat) :
    (p.prmFlush k).base = p.base := by
  rw [Part.prmFlush, Part.retireEntries_base]
  rfl
@[simp] theorem Part.prmFlush_trk (p : Part) (k : Nat) :
    (p.prmFlush k).trk = p.trk := by
  rw [Part.prmFlush, Part.retireEntries_trk]
@[simp] theorem Part.prmFlush_arr (p : Part) (k : Nat) :
    (p.prmFlush k).arr = p.arr := by
  rw [Part.prmFlush, Part.retireEntries_arr]
@[simp] theorem Part.prmFlush_text (p : Part) (k : Nat) :
    (p.prmFlush k).text = p.text := by
  rw [Part.prmFlush, Part.retireEntries_text]
  rfl

/-! ### MSG, TXF and TRG operations (chapter 5) -/

@[simp] theorem Part.onlyMsg_base (p q : Part) : (p.onlyMsg q).base = p.base := rfl
@[simp] theorem Part.txfPump_base (p : Part) : (p.txfPump).base = p.base := rfl
@[simp] theorem Part.txfPump_trk (p : Part) : (p.txfPump).trk = p.trk := rfl
@[simp] theorem Part.txfPump_arr (p : Part) : (p.txfPump).arr = p.arr := rfl
@[simp] theorem Part.txfPump_prm (p : Part) : (p.txfPump).prm = p.prm := rfl
@[simp] theorem Part.textWrite_base (p : Part) (a : Nat) : (p.textWrite a).base = p.base := rfl
@[simp] theorem Part.textWrite_trk (p : Part) (a : Nat) : (p.textWrite a).trk = p.trk := rfl
@[simp] theorem Part.textWrite_arr (p : Part) (a : Nat) : (p.textWrite a).arr = p.arr := rfl
@[simp] theorem Part.textWrite_prm (p : Part) (a : Nat) : (p.textWrite a).prm = p.prm := rfl
@[simp] theorem Part.msgDefine_base (p : Part) (m : Nat) (f : MessageFields) : (p.msgDefine m f).base = p.base := rfl
@[simp] theorem Part.msgDefine_trk (p : Part) (m : Nat) (f : MessageFields) : (p.msgDefine m f).trk = p.trk := rfl
@[simp] theorem Part.msgDefine_arr (p : Part) (m : Nat) (f : MessageFields) : (p.msgDefine m f).arr = p.arr := rfl
@[simp] theorem Part.msgDefine_prm (p : Part) (m : Nat) (f : MessageFields) : (p.msgDefine m f).prm = p.prm := rfl
@[simp] theorem Part.msgActivate_base (p : Part) (m : Nat) (f : MessageFields) :
    (p.msgActivate m f).base = p.base := rfl
@[simp] theorem Part.msgActivate_trk (p : Part) (m : Nat) (f : MessageFields) : (p.msgActivate m f).trk = p.trk := rfl
@[simp] theorem Part.msgActivate_arr (p : Part) (m : Nat) (f : MessageFields) : (p.msgActivate m f).arr = p.arr := rfl
@[simp] theorem Part.msgActivate_prm (p : Part) (m : Nat) (f : MessageFields) : (p.msgActivate m f).prm = p.prm := rfl
@[simp] theorem Part.refuseMessage_base (p : Part) (m : Nat) : (p.refuseMessage m).base = p.base := rfl
@[simp] theorem Part.refuseMessage_trk (p : Part) (m : Nat) : (p.refuseMessage m).trk = p.trk := rfl
@[simp] theorem Part.refuseMessage_arr (p : Part) (m : Nat) : (p.refuseMessage m).arr = p.arr := rfl
@[simp] theorem Part.refuseMessage_prm (p : Part) (m : Nat) : (p.refuseMessage m).prm = p.prm := rfl
@[simp] theorem Part.trgHandOn_base (p : Part) (c : Nat) (w : List Word) : (p.trgHandOn c w).base = p.base := rfl
@[simp] theorem Part.trgHandOn_trk (p : Part) (c : Nat) (w : List Word) : (p.trgHandOn c w).trk = p.trk := rfl
@[simp] theorem Part.trgHandOn_arr (p : Part) (c : Nat) (w : List Word) : (p.trgHandOn c w).arr = p.arr := rfl
@[simp] theorem Part.trgHandOn_prm (p : Part) (c : Nat) (w : List Word) : (p.trgHandOn c w).prm = p.prm := rfl
@[simp] theorem Part.textData_base (p : Part) (w : Word) :
    (p.textData w).base = p.base := by
  unfold Part.textData
  split <;> rfl
@[simp] theorem Part.textData_trk (p : Part) (w : Word) :
    (p.textData w).trk = p.trk := by
  unfold Part.textData
  split <;> rfl
@[simp] theorem Part.textData_arr (p : Part) (w : Word) :
    (p.textData w).arr = p.arr := by
  unfold Part.textData
  split <;> rfl
@[simp] theorem Part.textData_prm (p : Part) (w : Word) :
    (p.textData w).prm = p.prm := by
  unfold Part.textData
  split <;> rfl
@[simp] theorem Part.msgCancel_base (p : Part) (m : Nat) :
    (p.msgCancel m).base = p.base := by
  unfold Part.msgCancel
  split <;> rfl
@[simp] theorem Part.msgCancel_trk (p : Part) (m : Nat) :
    (p.msgCancel m).trk = p.trk := by
  unfold Part.msgCancel
  split <;> rfl
@[simp] theorem Part.msgCancel_arr (p : Part) (m : Nat) :
    (p.msgCancel m).arr = p.arr := by
  unfold Part.msgCancel
  split <;> rfl
@[simp] theorem Part.msgCancel_prm (p : Part) (m : Nat) :
    (p.msgCancel m).prm = p.prm := by
  unfold Part.msgCancel
  split <;> rfl
@[simp] theorem Part.msgClear_base (p : Part) (m : Nat) :
    (p.msgClear m).base = p.base := by
  unfold Part.msgClear
  split <;> rfl
@[simp] theorem Part.msgClear_trk (p : Part) (m : Nat) :
    (p.msgClear m).trk = p.trk := by
  unfold Part.msgClear
  split <;> rfl
@[simp] theorem Part.msgClear_arr (p : Part) (m : Nat) :
    (p.msgClear m).arr = p.arr := by
  unfold Part.msgClear
  split <;> rfl
@[simp] theorem Part.msgClear_prm (p : Part) (m : Nat) :
    (p.msgClear m).prm = p.prm := by
  unfold Part.msgClear
  split <;> rfl
@[simp] theorem Part.msgRecord_base (p : Part) (m : Nat) (w : List Word) :
    (p.msgRecord m w).base = p.base := by
  unfold Part.msgRecord
  repeat' split
  all_goals simp
@[simp] theorem Part.msgRecord_trk (p : Part) (m : Nat) (w : List Word) :
    (p.msgRecord m w).trk = p.trk := by
  unfold Part.msgRecord
  repeat' split
  all_goals simp
@[simp] theorem Part.msgRecord_arr (p : Part) (m : Nat) (w : List Word) :
    (p.msgRecord m w).arr = p.arr := by
  unfold Part.msgRecord
  repeat' split
  all_goals simp
@[simp] theorem Part.msgRecord_prm (p : Part) (m : Nat) (w : List Word) :
    (p.msgRecord m w).prm = p.prm := by
  unfold Part.msgRecord
  repeat' split
  all_goals simp
@[simp] theorem Part.msgExpire_base (p : Part) (m : Nat) :
    (p.msgExpire m).base = p.base := by
  unfold Part.msgExpire
  split <;> rfl
@[simp] theorem Part.msgExpire_trk (p : Part) (m : Nat) :
    (p.msgExpire m).trk = p.trk := by
  unfold Part.msgExpire
  split <;> rfl
@[simp] theorem Part.msgExpire_arr (p : Part) (m : Nat) :
    (p.msgExpire m).arr = p.arr := by
  unfold Part.msgExpire
  split <;> rfl
@[simp] theorem Part.msgExpire_prm (p : Part) (m : Nat) :
    (p.msgExpire m).prm = p.prm := by
  unfold Part.msgExpire
  split <;> rfl

/-! ### OVR operations (chapter 7) -/

@[simp] theorem Part.setChannel_base (p : Part) (k : Nat) (c : Channel) : (p.setChannel k c).base = p.base := rfl
@[simp] theorem Part.channelNotice_base (p : Part) (k : Nat) : (p.channelNotice k).base = p.base := rfl
@[simp] theorem Part.channelNotice_trk (p : Part) (k : Nat) : (p.channelNotice k).trk = p.trk := rfl
@[simp] theorem Part.channelNotice_arr (p : Part) (k : Nat) : (p.channelNotice k).arr = p.arr := rfl
@[simp] theorem Part.channelNotice_prm (p : Part) (k : Nat) : (p.channelNotice k).prm = p.prm := rfl
@[simp] theorem Part.channelNotice_text (p : Part) (k : Nat) : (p.channelNotice k).text = p.text := rfl
@[simp] theorem Part.activateChannel_base (p : Part) (k : Nat) :
    (p.activateChannel k).base = p.base := by
  simp [Part.activateChannel]
@[simp] theorem Part.activateChannel_trk (p : Part) (k : Nat) :
    (p.activateChannel k).trk = p.trk := by
  simp [Part.activateChannel]
@[simp] theorem Part.activateChannel_arr (p : Part) (k : Nat) :
    (p.activateChannel k).arr = p.arr := by
  simp [Part.activateChannel]
@[simp] theorem Part.sourceChange_base (p : Part) (k : Nat) :
    (p.sourceChange k).base = p.base := by
  simp only [Part.sourceChange]
  split <;> simp
@[simp] theorem Part.sourceChange_trk (p : Part) (k : Nat) :
    (p.sourceChange k).trk = p.trk := by
  simp only [Part.sourceChange]
  split <;> simp
@[simp] theorem Part.sourceChange_arr (p : Part) (k : Nat) :
    (p.sourceChange k).arr = p.arr := by
  simp only [Part.sourceChange]
  split <;> simp
@[simp] theorem Part.testLine_base (p : Part) (k : Nat) :
    (p.testLine k).base = p.base := by
  simp only [Part.testLine]
  split
  · rfl
  · split <;> simp
@[simp] theorem Part.testLine_trk (p : Part) (k : Nat) :
    (p.testLine k).trk = p.trk := by
  simp only [Part.testLine]
  split
  · rfl
  · split <;> simp
@[simp] theorem Part.testLine_arr (p : Part) (k : Nat) :
    (p.testLine k).arr = p.arr := by
  simp only [Part.testLine]
  split
  · rfl
  · split <;> simp
@[simp] theorem Part.memoryRequest_base (p : Part) (w : List Word) (k : Nat) :
    (p.memoryRequest w k).base = p.base := by
  simp only [Part.memoryRequest]
  split <;> split <;> simp
@[simp] theorem Part.memoryRequest_trk (p : Part) (w : List Word) (k : Nat) :
    (p.memoryRequest w k).trk = p.trk := by
  simp only [Part.memoryRequest]
  split <;> split <;> simp
@[simp] theorem Part.memoryRequest_arr (p : Part) (w : List Word) (k : Nat) :
    (p.memoryRequest w k).arr = p.arr := by
  simp only [Part.memoryRequest]
  split <;> split <;> simp
@[simp] theorem Part.ovrRecord_base (p : Part) (w : List Word) :
    (p.ovrRecord w).base = p.base := by
  unfold Part.ovrRecord
  split
  · simp
  · exact foldl_keeps Part.base (fun q k => Part.memoryRequest_base q w k) _ p
@[simp] theorem Part.ovrRecord_trk (p : Part) (w : List Word) :
    (p.ovrRecord w).trk = p.trk := by
  unfold Part.ovrRecord
  split
  · simp
  · exact foldl_keeps Part.trk (fun q k => Part.memoryRequest_trk q w k) _ p
@[simp] theorem Part.ovrRecord_arr (p : Part) (w : List Word) :
    (p.ovrRecord w).arr = p.arr := by
  unfold Part.ovrRecord
  split
  · simp
  · exact foldl_keeps Part.arr (fun q k => Part.memoryRequest_arr q w k) _ p
@[simp] theorem Part.clearLatch_base (p : Part) (k : Nat) :
    (p.clearLatch k).base = p.base := by
  unfold Part.clearLatch
  split <;> simp
@[simp] theorem Part.clearLatch_trk (p : Part) (k : Nat) :
    (p.clearLatch k).trk = p.trk := by
  unfold Part.clearLatch
  split <;> simp
@[simp] theorem Part.clearLatch_arr (p : Part) (k : Nat) :
    (p.clearLatch k).arr = p.arr := by
  unfold Part.clearLatch
  split <;> simp
@[simp] theorem Part.clearLatch_prm (p : Part) (k : Nat) :
    (p.clearLatch k).prm = p.prm := by
  unfold Part.clearLatch
  split <;> simp

/-! ### TRK operations (chapter 2) -/

@[simp] theorem Part.setCar_base (p : Part) (c : Nat) (x : Car) : (p.setCar c x).base = p.base := rfl
@[simp] theorem Part.setCar_text (p : Part) (c : Nat) (x : Car) : (p.setCar c x).text = p.text := rfl
@[simp] theorem Part.countInterpretation_base (p : Part) (w : List Word) :
    (p.countInterpretation w).base = p.base := rfl
@[simp] theorem Part.countInterpretation_trk (p : Part) (w : List Word) : (p.countInterpretation w).trk = p.trk := rfl
@[simp] theorem Part.countInterpretation_arr (p : Part) (w : List Word) : (p.countInterpretation w).arr = p.arr := rfl
@[simp] theorem Part.countInterpretation_prm (p : Part) (w : List Word) : (p.countInterpretation w).prm = p.prm := rfl
@[simp] theorem Part.countInterpretation_text (p : Part) (w : List Word) :
    (p.countInterpretation w).text = p.text := rfl
@[simp] theorem Part.setVisit_base (p : Part) (c d : Nat) (v : Option Nat) (o : Bool) :
    (p.setVisit c d v o).base = p.base := rfl
@[simp] theorem Part.setVisit_arr (p : Part) (c d : Nat) (v : Option Nat) (o : Bool) :
    (p.setVisit c d v o).arr = p.arr := rfl
@[simp] theorem Part.setVisit_prm (p : Part) (c d : Nat) (v : Option Nat) (o : Bool) :
    (p.setVisit c d v o).prm = p.prm := rfl
@[simp] theorem Part.setVisit_text (p : Part) (c d : Nat) (v : Option Nat) (o : Bool) :
    (p.setVisit c d v o).text = p.text := rfl
@[simp] theorem Part.raiseDeparture_base (p : Part) (c d f : Nat) :
    (p.raiseDeparture c d f).base = p.base := by
  simp [Part.raiseDeparture]
@[simp] theorem Part.raiseDeparture_trk (p : Part) (c d f : Nat) :
    (p.raiseDeparture c d f).trk = p.trk := by
  simp [Part.raiseDeparture]
@[simp] theorem Part.raiseDeparture_text (p : Part) (c d f : Nat) :
    (p.raiseDeparture c d f).text = p.text := by
  simp [Part.raiseDeparture]
@[simp] theorem Part.raiseArrival_base (p : Part) (c d f : Nat) :
    (p.raiseArrival c d f).base = p.base := by
  simp [Part.raiseArrival]
@[simp] theorem Part.raiseArrival_text (p : Part) (c d f : Nat) :
    (p.raiseArrival c d f).text = p.text := by
  simp [Part.raiseArrival]
@[simp] theorem Part.endVisit_base (p : Part) (c d : Nat) :
    (p.endVisit c d).base = p.base := by
  simp only [Part.endVisit]
  split
  · rfl
  · split <;> simp
@[simp] theorem Part.endVisit_text (p : Part) (c d : Nat) :
    (p.endVisit c d).text = p.text := by
  simp only [Part.endVisit]
  split
  · rfl
  · split <;> simp
@[simp] theorem Part.beginVisit_base (p : Part) (c d f : Nat) :
    (p.beginVisit c d f).base = p.base := by
  unfold Part.beginVisit
  split <;> simp
@[simp] theorem Part.beginVisit_text (p : Part) (c d f : Nat) :
    (p.beginVisit c d f).text = p.text := by
  unfold Part.beginVisit
  split <;> simp
@[simp] theorem Part.openVisit_base (p : Part) (c d f : Nat) :
    (p.openVisit c d f).base = p.base := by
  unfold Part.openVisit
  split <;> simp
@[simp] theorem Part.openVisit_text (p : Part) (c d f : Nat) :
    (p.openVisit c d f).text = p.text := by
  unfold Part.openVisit
  split <;> simp
@[simp] theorem Part.updateVisit_base (p : Part) (c d : Nat) :
    (p.updateVisit c d).base = p.base := by
  unfold Part.updateVisit
  split <;> simp
@[simp] theorem Part.updateVisit_text (p : Part) (c d : Nat) :
    (p.updateVisit c d).text = p.text := by
  unfold Part.updateVisit
  split <;> simp
@[simp] theorem Part.noticeWithdrawal_base (p : Part) (c : Nat) (x : Car) :
    (p.noticeWithdrawal c x).base = p.base := by
  simp only [Part.noticeWithdrawal]
  split
  · simp
  · split <;> simp
@[simp] theorem Part.noticeWithdrawal_trk (p : Part) (c : Nat) (x : Car) :
    (p.noticeWithdrawal c x).trk = p.trk := by
  simp only [Part.noticeWithdrawal]
  split
  · simp
  · split <;> simp
@[simp] theorem Part.noticeWithdrawal_text (p : Part) (c : Nat) (x : Car) :
    (p.noticeWithdrawal c x).text = p.text := by
  simp only [Part.noticeWithdrawal]
  split
  · simp
  · split <;> simp
@[simp] theorem Part.noticeChanges_base (p : Part) (c : Nat) (x : Car) :
    (p.noticeChanges c x).base = p.base := 
  foldl_keeps Part.base (fun q d => Part.cmpDeckChange_base q c d) _ p
@[simp] theorem Part.noticeChanges_trk (p : Part) (c : Nat) (x : Car) :
    (p.noticeChanges c x).trk = p.trk := 
  foldl_keeps Part.trk (fun q d => Part.cmpDeckChange_trk q c d) _ p
@[simp] theorem Part.noticeChanges_arr (p : Part) (c : Nat) (x : Car) :
    (p.noticeChanges c x).arr = p.arr := 
  foldl_keeps Part.arr (fun q d => Part.cmpDeckChange_arr q c d) _ p
@[simp] theorem Part.noticeChanges_prm (p : Part) (c : Nat) (x : Car) :
    (p.noticeChanges c x).prm = p.prm := 
  foldl_keeps Part.prm (fun q d => Part.cmpDeckChange_prm q c d) _ p
@[simp] theorem Part.noticeChanges_text (p : Part) (c : Nat) (x : Car) :
    (p.noticeChanges c x).text = p.text := 
  foldl_keeps Part.text (fun q d => Part.cmpDeckChange_text q c d) _ p
@[simp] theorem Part.noticeStatus_base (p : Part) (c : Nat) (x : Car) :
    (p.noticeStatus c x).base = p.base := by
  simp only [Part.noticeStatus]
  split <;> rfl
@[simp] theorem Part.noticeStatus_trk (p : Part) (c : Nat) (x : Car) :
    (p.noticeStatus c x).trk = p.trk := by
  simp only [Part.noticeStatus]
  split <;> rfl
@[simp] theorem Part.noticeStatus_arr (p : Part) (c : Nat) (x : Car) :
    (p.noticeStatus c x).arr = p.arr := by
  simp only [Part.noticeStatus]
  split <;> rfl
@[simp] theorem Part.noticeStatus_prm (p : Part) (c : Nat) (x : Car) :
    (p.noticeStatus c x).prm = p.prm := by
  simp only [Part.noticeStatus]
  split <;> rfl
@[simp] theorem Part.noticeStatus_text (p : Part) (c : Nat) (x : Car) :
    (p.noticeStatus c x).text = p.text := by
  simp only [Part.noticeStatus]
  split <;> rfl
@[simp] theorem Part.evaluateCar_base (p : Part) (c : Nat) (g : CarConfig) (w : List Word) :
    (p.evaluateCar c g w).base = p.base := by
  simp only [Part.evaluateCar, Part.noticeStatus_base, Part.noticeChanges_base, Part.arrEvaluation_base,
    Part.trgHandOn_base, Part.noticeWithdrawal_base]
  rw [foldl_keeps Part.base (fun q d => Part.updateVisit_base q c d)]
  split <;> simp
@[simp] theorem Part.trkRecord_base (p : Part) (c : Nat) (w : List Word) :
    (p.trkRecord c w).base = p.base := by
  unfold Part.trkRecord
  split <;> simp
@[simp] theorem Part.staleExpiry_base (p : Part) (c : Nat) :
    (p.staleExpiry c).base = p.base := by
  unfold Part.staleExpiry
  split
  · simp only [Part.noticeStatus_base, Part.arrEvaluation_base]
    rw [foldl_keeps Part.base (fun q d => Part.cmpDeckChange_base q c d)]
    simp
  · rfl
@[simp] theorem Part.staleExpiry_text (p : Part) (c : Nat) :
    (p.staleExpiry c).text = p.text := by
  unfold Part.staleExpiry
  split
  · simp only [Part.noticeStatus_text, Part.arrEvaluation_text]
    rw [foldl_keeps Part.text (fun q d => Part.cmpDeckChange_text q c d)]
    simp
  · rfl
@[simp] theorem Part.emptyHistory_base (p : Part) (c : Nat) :
    (p.emptyHistory c).base = p.base := by
  unfold Part.emptyHistory
  split <;> simp
@[simp] theorem Part.emptyHistory_arr (p : Part) (c : Nat) :
    (p.emptyHistory c).arr = p.arr := by
  unfold Part.emptyHistory
  split <;> simp
@[simp] theorem Part.emptyHistory_prm (p : Part) (c : Nat) :
    (p.emptyHistory c).prm = p.prm := by
  unfold Part.emptyHistory
  split <;> simp
@[simp] theorem Part.emptyHistory_text (p : Part) (c : Nat) :
    (p.emptyHistory c).text = p.text := by
  unfold Part.emptyHistory
  split <;> simp
@[simp] theorem Part.staleNow_base (p : Part) :
    (p.staleNow).base = p.base := 
  foldl_keeps Part.base (fun q c => Part.staleExpiry_base q c) _ p
@[simp] theorem Part.staleNow_text (p : Part) :
    (p.staleNow).text = p.text := 
  foldl_keeps Part.text (fun q c => Part.staleExpiry_text q c) _ p

/-! ### Link events: the display side alone (chapter 8) -/

@[simp] theorem Part.sendFrame_base (p : Part) (r : Nat) :
    (p.sendFrame r).base = p.base := by
  simp only [Part.sendFrame]
  split <;> rfl
@[simp] theorem Part.sendFrame_trk (p : Part) (r : Nat) :
    (p.sendFrame r).trk = p.trk := by
  simp only [Part.sendFrame]
  split <;> rfl
@[simp] theorem Part.sendFrame_arr (p : Part) (r : Nat) :
    (p.sendFrame r).arr = p.arr := by
  simp only [Part.sendFrame]
  split <;> rfl
@[simp] theorem Part.sendFrame_prm (p : Part) (r : Nat) :
    (p.sendFrame r).prm = p.prm := by
  simp only [Part.sendFrame]
  split <;> rfl
@[simp] theorem Part.sendFrame_text (p : Part) (r : Nat) :
    (p.sendFrame r).text = p.text := by
  simp only [Part.sendFrame]
  split <;> rfl
@[simp] theorem Part.frameReturn_base (p : Part) (r : Nat) (x : Port) (b : List Byte) :
    (p.frameReturn r x b).base = p.base := by
  simp only [Part.frameReturn]
  repeat' split
  all_goals rfl
@[simp] theorem Part.frameReturn_trk (p : Part) (r : Nat) (x : Port) (b : List Byte) :
    (p.frameReturn r x b).trk = p.trk := by
  simp only [Part.frameReturn]
  repeat' split
  all_goals rfl
@[simp] theorem Part.frameReturn_arr (p : Part) (r : Nat) (x : Port) (b : List Byte) :
    (p.frameReturn r x b).arr = p.arr := by
  simp only [Part.frameReturn]
  repeat' split
  all_goals rfl
@[simp] theorem Part.frameReturn_prm (p : Part) (r : Nat) (x : Port) (b : List Byte) :
    (p.frameReturn r x b).prm = p.prm := by
  simp only [Part.frameReturn]
  repeat' split
  all_goals rfl
@[simp] theorem Part.frameReturn_text (p : Part) (r : Nat) (x : Port) (b : List Byte) :
    (p.frameReturn r x b).text = p.text := by
  simp only [Part.frameReturn]
  repeat' split
  all_goals rfl
@[simp] theorem Part.returnTimeout_base (p : Part) (r t : Nat) :
    (p.returnTimeout r t).base = p.base := by
  unfold Part.returnTimeout
  repeat' split
  all_goals rfl
@[simp] theorem Part.returnTimeout_trk (p : Part) (r t : Nat) :
    (p.returnTimeout r t).trk = p.trk := by
  unfold Part.returnTimeout
  repeat' split
  all_goals rfl
@[simp] theorem Part.returnTimeout_arr (p : Part) (r t : Nat) :
    (p.returnTimeout r t).arr = p.arr := by
  unfold Part.returnTimeout
  repeat' split
  all_goals rfl
@[simp] theorem Part.returnTimeout_prm (p : Part) (r t : Nat) :
    (p.returnTimeout r t).prm = p.prm := by
  unfold Part.returnTimeout
  repeat' split
  all_goals rfl
@[simp] theorem Part.returnTimeout_text (p : Part) (r t : Nat) :
    (p.returnTimeout r t).text = p.text := by
  unfold Part.returnTimeout
  repeat' split
  all_goals rfl
@[simp] theorem Part.trailingTimeout_base (p : Part) (r t : Nat) :
    (p.trailingTimeout r t).base = p.base := by
  unfold Part.trailingTimeout
  split <;> rfl
@[simp] theorem Part.trailingTimeout_trk (p : Part) (r t : Nat) :
    (p.trailingTimeout r t).trk = p.trk := by
  unfold Part.trailingTimeout
  split <;> rfl
@[simp] theorem Part.trailingTimeout_arr (p : Part) (r t : Nat) :
    (p.trailingTimeout r t).arr = p.arr := by
  unfold Part.trailingTimeout
  split <;> rfl
@[simp] theorem Part.trailingTimeout_prm (p : Part) (r t : Nat) :
    (p.trailingTimeout r t).prm = p.prm := by
  unfold Part.trailingTimeout
  split <;> rfl
@[simp] theorem Part.trailingTimeout_text (p : Part) (r t : Nat) :
    (p.trailingTimeout r t).text = p.text := by
  unfold Part.trailingTimeout
  split <;> rfl
@[simp] theorem Part.busyBackoff_base (p : Part) (r n : Nat) (x : Option Region) :
    (p.busyBackoff r n x).base = p.base := by
  simp only [Part.busyBackoff]
  repeat' split
  all_goals rfl
@[simp] theorem Part.busyBackoff_trk (p : Part) (r n : Nat) (x : Option Region) :
    (p.busyBackoff r n x).trk = p.trk := by
  simp only [Part.busyBackoff]
  repeat' split
  all_goals rfl
@[simp] theorem Part.busyBackoff_arr (p : Part) (r n : Nat) (x : Option Region) :
    (p.busyBackoff r n x).arr = p.arr := by
  simp only [Part.busyBackoff]
  repeat' split
  all_goals rfl
@[simp] theorem Part.busyBackoff_prm (p : Part) (r n : Nat) (x : Option Region) :
    (p.busyBackoff r n x).prm = p.prm := by
  simp only [Part.busyBackoff]
  repeat' split
  all_goals rfl
@[simp] theorem Part.busyBackoff_text (p : Part) (r n : Nat) (x : Option Region) :
    (p.busyBackoff r n x).text = p.text := by
  simp only [Part.busyBackoff]
  repeat' split
  all_goals rfl
@[simp] theorem Part.pollTimer_base (p : Part) (r n : Nat) :
    (p.pollTimer r n).base = p.base := by
  unfold Part.pollTimer
  repeat' split
  all_goals rfl
@[simp] theorem Part.pollTimer_trk (p : Part) (r n : Nat) :
    (p.pollTimer r n).trk = p.trk := by
  unfold Part.pollTimer
  repeat' split
  all_goals rfl
@[simp] theorem Part.pollTimer_arr (p : Part) (r n : Nat) :
    (p.pollTimer r n).arr = p.arr := by
  unfold Part.pollTimer
  repeat' split
  all_goals rfl
@[simp] theorem Part.pollTimer_prm (p : Part) (r n : Nat) :
    (p.pollTimer r n).prm = p.prm := by
  unfold Part.pollTimer
  repeat' split
  all_goals rfl
@[simp] theorem Part.pollTimer_text (p : Part) (r n : Nat) :
    (p.pollTimer r n).text = p.text := by
  unfold Part.pollTimer
  repeat' split
  all_goals rfl
@[simp] theorem Part.joinTimer_base (p : Part) (r n : Nat) :
    (p.joinTimer r n).base = p.base := by
  unfold Part.joinTimer
  repeat' split
  all_goals rfl
@[simp] theorem Part.joinTimer_trk (p : Part) (r n : Nat) :
    (p.joinTimer r n).trk = p.trk := by
  unfold Part.joinTimer
  repeat' split
  all_goals rfl
@[simp] theorem Part.joinTimer_arr (p : Part) (r n : Nat) :
    (p.joinTimer r n).arr = p.arr := by
  unfold Part.joinTimer
  repeat' split
  all_goals rfl
@[simp] theorem Part.joinTimer_prm (p : Part) (r n : Nat) :
    (p.joinTimer r n).prm = p.prm := by
  unfold Part.joinTimer
  repeat' split
  all_goals rfl
@[simp] theorem Part.joinTimer_text (p : Part) (r n : Nat) :
    (p.joinTimer r n).text = p.text := by
  unfold Part.joinTimer
  repeat' split
  all_goals rfl
@[simp] theorem Part.ringCheck_base (p : Part) (r : Nat) :
    (p.ringCheck r).base = p.base := by
  simp only [Part.ringCheck]
  split <;> rfl
@[simp] theorem Part.ringCheck_trk (p : Part) (r : Nat) :
    (p.ringCheck r).trk = p.trk := by
  simp only [Part.ringCheck]
  split <;> rfl
@[simp] theorem Part.ringCheck_arr (p : Part) (r : Nat) :
    (p.ringCheck r).arr = p.arr := by
  simp only [Part.ringCheck]
  split <;> rfl
@[simp] theorem Part.ringCheck_prm (p : Part) (r : Nat) :
    (p.ringCheck r).prm = p.prm := by
  simp only [Part.ringCheck]
  split <;> rfl
@[simp] theorem Part.ringCheck_text (p : Part) (r : Nat) :
    (p.ringCheck r).text = p.text := by
  simp only [Part.ringCheck]
  split <;> rfl
@[simp] theorem Part.traceEnd_base (p : Part) (r : Nat) :
    (p.traceEnd r).base = p.base := by
  simp only [Part.traceEnd]
  repeat' split
  all_goals rfl
@[simp] theorem Part.traceEnd_trk (p : Part) (r : Nat) :
    (p.traceEnd r).trk = p.trk := by
  simp only [Part.traceEnd]
  repeat' split
  all_goals rfl
@[simp] theorem Part.traceEnd_arr (p : Part) (r : Nat) :
    (p.traceEnd r).arr = p.arr := by
  simp only [Part.traceEnd]
  repeat' split
  all_goals rfl
@[simp] theorem Part.traceEnd_prm (p : Part) (r : Nat) :
    (p.traceEnd r).prm = p.prm := by
  simp only [Part.traceEnd]
  repeat' split
  all_goals rfl
@[simp] theorem Part.traceEnd_text (p : Part) (r : Nat) :
    (p.traceEnd r).text = p.text := by
  simp only [Part.traceEnd]
  repeat' split
  all_goals rfl

/-! ### PATH operations -/

@[simp] theorem Part.onPath_text (p : Part) (f : Path → Path) : (p.onPath f).text = p.text := rfl
@[simp] theorem Part.request_base (p : Part) (b : Nat) :
    (p.request b).base = p.base := by
  unfold Part.request
  split <;> first | rfl | simp
@[simp] theorem Part.request_trk (p : Part) (b : Nat) :
    (p.request b).trk = p.trk := by
  unfold Part.request
  split <;> first | rfl | simp
@[simp] theorem Part.request_arr (p : Part) (b : Nat) :
    (p.request b).arr = p.arr := by
  unfold Part.request
  split <;> first | rfl | simp
@[simp] theorem Part.request_prm (p : Part) (b : Nat) :
    (p.request b).prm = p.prm := by
  unfold Part.request
  split <;> first | rfl | simp
@[simp] theorem Part.serveRequest_base (p : Part) (b : Nat) :
    (p.serveRequest b).base = p.base := by
  unfold Part.serveRequest
  split
  · rfl
  · simp
@[simp] theorem Part.serveRequest_trk (p : Part) (b : Nat) :
    (p.serveRequest b).trk = p.trk := by
  unfold Part.serveRequest
  split
  · rfl
  · simp
@[simp] theorem Part.serveRequest_arr (p : Part) (b : Nat) :
    (p.serveRequest b).arr = p.arr := by
  unfold Part.serveRequest
  split
  · rfl
  · simp
@[simp] theorem Part.serveRequest_prm (p : Part) (b : Nat) :
    (p.serveRequest b).prm = p.prm := by
  unfold Part.serveRequest
  split
  · rfl
  · simp
@[simp] theorem Part.serviceWrite_base (p : Part) (v : Word) :
    (p.serviceWrite v).base = p.base := by
  simp only [Part.serviceWrite]
  split
  · rfl
  · rw [Part.onRpt_base]
    exact foldl_keeps Part.base (fun q b => Part.serveRequest_base q b) _ p
@[simp] theorem Part.serviceWrite_trk (p : Part) (v : Word) :
    (p.serviceWrite v).trk = p.trk := by
  simp only [Part.serviceWrite]
  split
  · rfl
  · exact foldl_keeps Part.trk (fun q b => Part.serveRequest_trk q b) _ p
@[simp] theorem Part.serviceWrite_arr (p : Part) (v : Word) :
    (p.serviceWrite v).arr = p.arr := by
  simp only [Part.serviceWrite]
  split
  · rfl
  · exact foldl_keeps Part.arr (fun q b => Part.serveRequest_arr q b) _ p
@[simp] theorem Part.serviceWrite_prm (p : Part) (v : Word) :
    (p.serviceWrite v).prm = p.prm := by
  simp only [Part.serviceWrite]
  split
  · rfl
  · exact foldl_keeps Part.prm (fun q b => Part.serveRequest_prm q b) _ p
@[simp] theorem Part.joinOwn_trk (p : Part) : (p.joinOwn).trk = p.trk := rfl
@[simp] theorem Part.joinOwn_arr (p : Part) : (p.joinOwn).arr = p.arr := rfl
@[simp] theorem Part.joinOwn_prm (p : Part) : (p.joinOwn).prm = p.prm := rfl
@[simp] theorem Part.joinOwn_text (p : Part) : (p.joinOwn).text = p.text := rfl
@[simp] theorem Part.joinOwn_disp (p : Part) : (p.joinOwn).disp = p.disp := rfl
@[simp] theorem Part.settle_trk (p : Part) : (p.settle).trk = p.trk := rfl
@[simp] theorem Part.settle_arr (p : Part) : (p.settle).arr = p.arr := rfl
@[simp] theorem Part.settle_prm (p : Part) : (p.settle).prm = p.prm := rfl

end Sys2Proof.Machine
end

