-- ==== Sys2Proof/Laws/Memory.lean ====
section
/-! SUPPORT. Memory: a read after a write, and the canonical form that every memory operation keeps. -/

namespace Sys2Proof.Machine

/-! ### Reads after writes -/

/-- A written byte reads as written, and every other byte reads as before. -/
theorem readByte_writeByte (m : List Host.Cell) (low k j : Nat) (v : Byte) (h : cellsFrom low m = true) :
    readByte (writeByte m k v) j = if j = k then v else readByte m j := by
  induction m generalizing low with
  | nil =>
    simp only [writeByte]
    split
    · rename_i hv
      simp [readByte, hv]
    · simp only [readByte]
  | cons c rest ih =>
    obtain ⟨k', v'⟩ := c
    simp only [cellsFrom, Bool.and_eq_true, decide_eq_true_eq, bne_iff_ne] at h
    obtain ⟨⟨⟨hlow, hv'⟩, hk'⟩, hrest⟩ := h
    have above : ∀ x, x ≤ k' → readByte rest x = memoryAtPowerOn := by
      intro x hx
      clear ih
      have : ∀ l lo, cellsFrom lo l = true → x < lo → readByte l x = memoryAtPowerOn := by
        intro l
        induction l with
        | nil => intro lo _ _; rfl
        | cons d l ihl =>
          obtain ⟨kd, vd⟩ := d
          intro lo hl hlt
          simp only [cellsFrom, Bool.and_eq_true, decide_eq_true_eq, bne_iff_ne] at hl
          simp only [readByte]
          rw [if_neg (by omega)]
          exact ihl _ hl.2 (by omega)
      exact this rest (k' + 1) hrest (by omega)
    simp only [writeByte]
    split
    · split
      · rename_i hlt hv
        by_cases hj : j = k
        · subst hj
          simp only [readByte, if_true]
          rw [if_neg (by omega), above j (by omega), hv]
        · simp [hj]
      · simp only [readByte]
    · split
      · rename_i hnlt heq
        subst heq
        split
        · rename_i hv
          by_cases hj : j = k
          · subst hj
            simp only [if_true]
            rw [above j (by omega), hv]
          · simp [readByte, hj]
        · by_cases hj : j = k <;> simp [readByte, hj]
      · rename_i hnlt hne
        simp only [readByte, ih _ hrest]
        by_cases hj : j = k'
        · subst hj
          simp only [if_true]
          rw [if_neg (by omega)]
        · simp [hj]

/-- The canonical form weakens downward. -/
theorem cellsFrom_mono {lo lo' : Nat} {m : List Host.Cell} (h : cellsFrom lo m = true) (hle : lo' ≤ lo) :
    cellsFrom lo' m = true := by
  cases m with
  | nil => rfl
  | cons c rest =>
    obtain ⟨k, v⟩ := c
    simp only [cellsFrom, Bool.and_eq_true, decide_eq_true_eq, bne_iff_ne] at h ⊢
    exact ⟨⟨⟨by omega, h.1.1.2⟩, h.1.2⟩, h.2⟩

/-- A byte write inside the 64 MiB keeps the canonical form. -/
theorem cellsFrom_writeByte {lo : Nat} {m : List Host.Cell} {k : Nat} {v : Byte} (h : cellsFrom lo m = true)
    (hlo : lo ≤ k) (hk : k < 2 ^ 26) : cellsFrom lo (writeByte m k v) = true := by
  induction m generalizing lo with
  | nil =>
    simp only [writeByte]
    split
    · rfl
    · rename_i hv
      simp only [cellsFrom, Bool.and_eq_true, decide_eq_true_eq, bne_iff_ne]
      exact ⟨⟨⟨hlo, hv⟩, hk⟩, trivial⟩
  | cons c rest ih =>
    obtain ⟨k', v'⟩ := c
    simp only [writeByte]
    have h0 := h
    simp only [cellsFrom, Bool.and_eq_true, decide_eq_true_eq, bne_iff_ne] at h
    obtain ⟨⟨⟨hlow, hv'⟩, hk'⟩, hrest⟩ := h
    split
    · split
      · exact h0
      · rename_i hlt hv
        simp only [cellsFrom, Bool.and_eq_true, decide_eq_true_eq, bne_iff_ne]
        exact ⟨⟨⟨hlo, hv⟩, hk⟩, ⟨⟨by omega, hv'⟩, hk'⟩, hrest⟩
    · split
      · rename_i hnlt heq
        subst heq
        split
        · exact cellsFrom_mono hrest (by omega)
        · rename_i hv
          simp only [cellsFrom, Bool.and_eq_true, decide_eq_true_eq, bne_iff_ne]
          exact ⟨⟨⟨hlow, hv⟩, hk'⟩, hrest⟩
      · rename_i hnlt hne
        simp only [cellsFrom, Bool.and_eq_true, decide_eq_true_eq, bne_iff_ne]
        exact ⟨⟨⟨hlow, hv'⟩, hk'⟩, ih hrest (by omega)⟩

/-! ### The canonical form (log entry 2) -/

theorem memoryWf_writeByte {m : List Host.Cell} {k : Nat} {v : Byte} (h : memoryWf m = true) (hk : k < 2 ^ 26) :
    memoryWf (writeByte m k v) = true := cellsFrom_writeByte h (Nat.zero_le k) hk

theorem memoryWf_writeLane {m : List Host.Cell} {data : Word} {be : BitVec 4} {a : Addr} {i : Nat}
    (h : memoryWf m = true) (hi : i < 4) : memoryWf (writeLane data be a m i) = true := by
  unfold writeLane
  split
  · exact memoryWf_writeByte h (by have := a.isLt; omega)
  · exact h

/-- A write of a word, by the host or by the part, keeps the canonical form. -/
theorem memoryWf_writeWord {m : List Host.Cell} {a : Addr} {data : Word} {be : BitVec 4} (h : memoryWf m = true) :
    memoryWf (writeWord m a data be) = true := by
  simp only [writeWord, List.foldl_cons, List.foldl_nil]
  exact memoryWf_writeLane (memoryWf_writeLane (memoryWf_writeLane (memoryWf_writeLane h (by omega)) (by omega))
    (by omega)) (by omega)

theorem memoryWf_writeWhole {m : List Host.Cell} {a : Addr} {data : Word} (h : memoryWf m = true) :
    memoryWf (writeWhole m a data) = true := memoryWf_writeWord h

/-- The accesses that pass while RESET_N is asserted keep the canonical form. -/
theorem memoryWf_passAccesses (passed : List HostAccess) {x : List Host.Cell × Word} (h : memoryWf x.1 = true) :
    memoryWf (passed.foldl passAccess x).1 = true := by
  induction passed generalizing x with
  | nil => exact h
  | cons a rest ih =>
    cases a with
    | write addr data be => exact ih (memoryWf_writeWord h)
    | read addr be => exact ih h

/-- The memory of the state after reset is in canonical form. -/
theorem memoryWf_reset : memoryWf State.reset.mem = true := rfl

/-- Memory in canonical form, after an own write. -/
theorem memoryWf_ownWrite {s : State} {w : Option OwnWrite} (h : memoryWf s.mem = true) :
    memoryWf (s.ownWrite w).mem = true := by
  unfold State.ownWrite
  split
  · exact h
  · exact memoryWf_writeWhole h

/-! ### A byte after a word write (R164) -/

/-- What a lane of a word write leaves in each byte. -/
theorem readByte_writeLane {m : List Host.Cell} {data : Word} {be : BitVec 4} {a : Addr} {i j : Nat}
    (h : memoryWf m = true) :
    readByte (writeLane data be a m i) j =
      if be.getLsbD i = true ∧ j = 4 * a.toNat + i then byteAt data i else readByte m j := by
  unfold writeLane
  split
  · rename_i hb
    rw [readByte_writeByte _ 0 _ _ _ h]
    simp [hb]
  · rename_i hb
    simp [hb]

/-- A word write changes the enabled bytes of its word and no other byte (R164). -/
theorem readByte_writeWord {m : List Host.Cell} {a : Addr} {data : Word} {be : BitVec 4} {j : Nat}
    (h : memoryWf m = true) :
    readByte (writeWord m a data be) j =
      if 4 * a.toNat ≤ j ∧ j < 4 * a.toNat + 4 ∧ be.getLsbD (j - 4 * a.toNat) = true then
        byteAt data (j - 4 * a.toNat)
      else readByte m j := by
  have h0 : memoryWf (writeLane data be a m 0) = true := memoryWf_writeLane h (by omega)
  have h1 : memoryWf (writeLane data be a (writeLane data be a m 0) 1) = true := memoryWf_writeLane h0 (by omega)
  have h2 := memoryWf_writeLane (data := data) (be := be) (a := a) (i := 2) h1 (by omega)
  simp only [writeWord, List.foldl_cons, List.foldl_nil]
  rw [readByte_writeLane h2, readByte_writeLane h1, readByte_writeLane h0, readByte_writeLane h]
  by_cases hj : 4 * a.toNat ≤ j ∧ j < 4 * a.toNat + 4
  · obtain ⟨h1, h2⟩ := hj
    have hcase : j = 4 * a.toNat ∨ j = 4 * a.toNat + 1 ∨ j = 4 * a.toNat + 2 ∨ j = 4 * a.toNat + 3 := by omega
    rcases hcase with h | h | h | h <;> subst h <;> simp
  · have hn : ∀ i, i < 4 → j ≠ 4 * a.toNat + i := by intro i hi; omega
    simp only [hn 0 (by omega), hn 1 (by omega), hn 2 (by omega), hn 3 (by omega), and_false, if_false]
    rw [if_neg]
    rintro ⟨h1, h2, -⟩
    exact hj ⟨h1, h2⟩

end Sys2Proof.Machine
end

