-- ==== Sys2Proof/Laws/PerInstr.lean ====
section
/-! SUPPORT. The family `NoWord`, one lemma per command: spec/opcode_table.json gives the rows no bits, so no word spells the
command. -/

open Sys2Proof

/-- No word, of whatever length, spells the command. -/
def Sys2Proof.Laws.NoWord.Statement (i : Instr) : Prop := ∀ nbits w : Nat, decodeTableWord nbits w = some i → False

open Sys2Proof.Laws.NoWord

theorem Sys2Proof.Laws.NoWord.resetN (anchor : BitVec 4) (passed : List HostAccess) :
    Statement (.resetN anchor passed) := fun _ _ h => nomatch h
theorem Sys2Proof.Laws.NoWord.takeFull (data : Word) (be : BitVec 4) :
    Statement (.takeFull data be) := fun _ _ h => nomatch h
theorem Sys2Proof.Laws.NoWord.takeParams (data : Word) (be : BitVec 4) :
    Statement (.takeParams data be) := fun _ _ h => nomatch h
theorem Sys2Proof.Laws.NoWord.takeWordRead : Statement .takeWordRead := fun _ _ h => nomatch h
theorem Sys2Proof.Laws.NoWord.modified (offset : Nat) (data : Word) (be : BitVec 4) :
    Statement (.modified offset data be) := fun _ _ h => nomatch h
theorem Sys2Proof.Laws.NoWord.takeRead : Statement .takeRead := fun _ _ h => nomatch h
theorem Sys2Proof.Laws.NoWord.takeResultWrite : Statement .takeResultWrite := fun _ _ h => nomatch h
theorem Sys2Proof.Laws.NoWord.latchClear (channel : Nat) : Statement (.latchClear channel) := fun _ _ h => nomatch h
theorem Sys2Proof.Laws.NoWord.countersClear : Statement .countersClear := fun _ _ h => nomatch h
theorem Sys2Proof.Laws.NoWord.statisticsClear : Statement .statisticsClear := fun _ _ h => nomatch h
theorem Sys2Proof.Laws.NoWord.repaint : Statement .repaint := fun _ _ h => nomatch h
theorem Sys2Proof.Laws.NoWord.hostWrite (addr : Addr) (data : Word) (be : BitVec 4) :
    Statement (.hostWrite addr data be) := fun _ _ h => nomatch h
theorem Sys2Proof.Laws.NoWord.mirrorMerge (addr : Addr) (data : Word) (be : BitVec 4) :
    Statement (.mirrorMerge addr data be) := fun _ _ h => nomatch h
theorem Sys2Proof.Laws.NoWord.carRecord (addr : Addr) (data : Word) (be : BitVec 4) :
    Statement (.carRecord addr data be) := fun _ _ h => nomatch h
theorem Sys2Proof.Laws.NoWord.assignNew (addr : Addr) (data : Word) (be : BitVec 4) :
    Statement (.assignNew addr data be) := fun _ _ h => nomatch h
theorem Sys2Proof.Laws.NoWord.assignCancel (addr : Addr) (data : Word) (be : BitVec 4) :
    Statement (.assignCancel addr data be) := fun _ _ h => nomatch h
theorem Sys2Proof.Laws.NoWord.assignReassign (addr : Addr) (data : Word) (be : BitVec 4) :
    Statement (.assignReassign addr data be) := fun _ _ h => nomatch h
theorem Sys2Proof.Laws.NoWord.messageDefine (addr : Addr) (data : Word) (be : BitVec 4) :
    Statement (.messageDefine addr data be) := fun _ _ h => nomatch h
theorem Sys2Proof.Laws.NoWord.messageActivate (addr : Addr) (data : Word) (be : BitVec 4) :
    Statement (.messageActivate addr data be) := fun _ _ h => nomatch h
theorem Sys2Proof.Laws.NoWord.messageCancel (addr : Addr) (data : Word) (be : BitVec 4) :
    Statement (.messageCancel addr data be) := fun _ _ h => nomatch h
theorem Sys2Proof.Laws.NoWord.messageClear (addr : Addr) (data : Word) (be : BitVec 4) :
    Statement (.messageClear addr data be) := fun _ _ h => nomatch h
theorem Sys2Proof.Laws.NoWord.overrideActivate (addr : Addr) (data : Word) (be : BitVec 4) :
    Statement (.overrideActivate addr data be) := fun _ _ h => nomatch h
theorem Sys2Proof.Laws.NoWord.overrideRelease (addr : Addr) (data : Word) (be : BitVec 4) :
    Statement (.overrideRelease addr data be) := fun _ _ h => nomatch h
theorem Sys2Proof.Laws.NoWord.textAreaWrite (addr : Addr) (data : Word) (be : BitVec 4) :
    Statement (.textAreaWrite addr data be) := fun _ _ h => nomatch h
theorem Sys2Proof.Laws.NoWord.textRead : Statement .textRead := fun _ _ h => nomatch h
theorem Sys2Proof.Laws.NoWord.consume (addr : Addr) (be : BitVec 4) :
    Statement (.consume addr be) := fun _ _ h => nomatch h
theorem Sys2Proof.Laws.NoWord.reportEntryWrite : Statement .reportEntryWrite := fun _ _ h => nomatch h
theorem Sys2Proof.Laws.NoWord.statusRecordWrite : Statement .statusRecordWrite := fun _ _ h => nomatch h
theorem Sys2Proof.Laws.NoWord.serviceWordWriteBack : Statement .serviceWordWriteBack := fun _ _ h => nomatch h
theorem Sys2Proof.Laws.NoWord.carStale (car : Nat) : Statement (.carStale car) := fun _ _ h => nomatch h
theorem Sys2Proof.Laws.NoWord.positionHistoryEmptied (car : Nat) :
    Statement (.positionHistoryEmptied car) := fun _ _ h => nomatch h
theorem Sys2Proof.Laws.NoWord.showDeadline (node : Nat) : Statement (.showDeadline node) := fun _ _ h => nomatch h
theorem Sys2Proof.Laws.NoWord.lifetime : Statement .lifetime := fun _ _ h => nomatch h
theorem Sys2Proof.Laws.NoWord.messageExpired (id : Nat) : Statement (.messageExpired id) := fun _ _ h => nomatch h
theorem Sys2Proof.Laws.NoWord.dwellDeadline (node : Nat) (region : Region) :
    Statement (.dwellDeadline node region) := fun _ _ h => nomatch h
theorem Sys2Proof.Laws.NoWord.lineAccepted (line : Nat) : Statement (.lineAccepted line) := fun _ _ h => nomatch h
theorem Sys2Proof.Laws.NoWord.sendFrame (ring : Nat) : Statement (.sendFrame ring) := fun _ _ h => nomatch h
theorem Sys2Proof.Laws.NoWord.frameReturn (ring : Nat) (port : Port) (bytes : List Byte) :
    Statement (.frameReturn ring port bytes) := fun _ _ h => nomatch h
theorem Sys2Proof.Laws.NoWord.returnTimeout (ring tag : Nat) :
    Statement (.returnTimeout ring tag) := fun _ _ h => nomatch h
theorem Sys2Proof.Laws.NoWord.trailingTimeout (ring tag : Nat) :
    Statement (.trailingTimeout ring tag) := fun _ _ h => nomatch h
theorem Sys2Proof.Laws.NoWord.busyBackoff (ring position : Nat) (region : Option Region) :
    Statement (.busyBackoff ring position region) := fun _ _ h => nomatch h
theorem Sys2Proof.Laws.NoWord.pollTimer (ring position : Nat) :
    Statement (.pollTimer ring position) := fun _ _ h => nomatch h
theorem Sys2Proof.Laws.NoWord.joinTimer (ring position : Nat) :
    Statement (.joinTimer ring position) := fun _ _ h => nomatch h
theorem Sys2Proof.Laws.NoWord.ringCheck (ring : Nat) : Statement (.ringCheck ring) := fun _ _ h => nomatch h
theorem Sys2Proof.Laws.NoWord.traceEnd (ring : Nat) : Statement (.traceEnd ring) := fun _ _ h => nomatch h
theorem Sys2Proof.Laws.NoWord.lineSampling (levels : BitVec 4) :
    Statement (.lineSampling levels) := fun _ _ h => nomatch h
end

