-- ==== Sys2Proof/Laws/Step.lean ====
section
/-! SUPPORT. What the operations of Machine/Path.lean do, once each: a host access that is not held, what every command ends
with, and what the report writer's choice leaves alone. -/

namespace Sys2Proof.Machine

/-! ### The report writer's choice leaves everything but the writer and the records alone (R185) -/

theorem Rpt.beginRecord_keeps {α : Type} (g : Rpt → α) (hg : ∀ (r : Rpt) l w, g { r with records := l, writer := w } = g r)
    (r : Rpt) (i : Nat) : g (r.beginRecord i) = g r := by
  unfold Rpt.beginRecord
  split
  · rfl
  · exact hg _ _ _

theorem Rpt.chooseSequence_keeps {α : Type} (g : Rpt → α)
    (hg : ∀ (r : Rpt) l w, g { r with records := l, writer := w } = g r) (r : Rpt) : g r.chooseSequence = g r := by
  unfold Rpt.chooseSequence
  split
  · rfl
  · split
    · split
      · exact hg r r.records _
      · rfl
    · split
      · exact hg r r.records _
      · exact Rpt.beginRecord_keeps g hg r _

theorem Rpt.choose_keeps {α : Type} (g : Rpt → α)
    (hg : ∀ (r : Rpt) l w b, g { r with records := l, writer := w, writeBackDue := b } = g r) (r : Rpt) :
    g r.choose = g r := by
  unfold Rpt.choose
  split
  · split
    · exact hg r r.records _ _
    · exact Rpt.chooseSequence_keeps g (fun r l w => hg r l w r.writeBackDue) r
  · rfl
  · rfl
  · rfl

@[simp] theorem Rpt.choose_area (r : Rpt) : r.choose.area = r.area := Rpt.choose_keeps (·.area) (fun _ _ _ _ => rfl) r
@[simp] theorem Rpt.choose_slots (r : Rpt) : r.choose.slots = r.slots := Rpt.choose_keeps (·.slots) (fun _ _ _ _ => rfl) r
@[simp] theorem Rpt.choose_producer (r : Rpt) : r.choose.producer = r.producer :=
  Rpt.choose_keeps (·.producer) (fun _ _ _ _ => rfl) r
@[simp] theorem Rpt.choose_sequence (r : Rpt) : r.choose.sequence = r.sequence :=
  Rpt.choose_keeps (·.sequence) (fun _ _ _ _ => rfl) r
@[simp] theorem Rpt.choose_drops (r : Rpt) : r.choose.drops = r.drops := Rpt.choose_keeps (·.drops) (fun _ _ _ _ => rfl) r
@[simp] theorem Rpt.choose_waiting (r : Rpt) : r.choose.waiting = r.waiting :=
  Rpt.choose_keeps (·.waiting) (fun _ _ _ _ => rfl) r
@[simp] theorem Rpt.choose_lastWrite (r : Rpt) : r.choose.lastWrite = r.lastWrite :=
  Rpt.choose_keeps (·.lastWrite) (fun _ _ _ _ => rfl) r
@[simp] theorem Rpt.choose_lastRecord (r : Rpt) : r.choose.lastRecord = r.lastRecord :=
  Rpt.choose_keeps (·.lastRecord) (fun _ _ _ _ => rfl) r
@[simp] theorem Rpt.choose_counters (r : Rpt) : r.choose.counters = r.counters :=
  Rpt.choose_keeps (·.counters) (fun _ _ _ _ => rfl) r
@[simp] theorem Rpt.choose_requests (r : Rpt) : r.choose.requests = r.requests :=
  Rpt.choose_keeps (·.requests) (fun _ _ _ _ => rfl) r
@[simp] theorem Rpt.choose_attention (r : Rpt) : r.choose.attention = r.attention :=
  Rpt.choose_keeps (·.attention) (fun _ _ _ _ => rfl) r

/-! ### Rest (R97, R98) -/

/-- TXF with a checked and reading head does nothing of itself. -/
theorem Part.txfPump_of_headReading {p : Part} (h : p.txf.headReading = true) : p.txfPump = p := by
  have hc : Part.checkHeads (p.txf.jobs.length + 1) p = p := by
    unfold Part.checkHeads
    unfold Txf.headReading at h
    split
    · rfl
    · rename_i j _ hj
      rw [hj] at h
      simp only [ne_eq, decide_not, Bool.and_eq_true, Bool.not_eq_true', decide_eq_false_iff_not] at h
      rw [if_neg h.1]
  have hi : p.issueRead = p := by
    unfold Part.issueRead
    unfold Txf.headReading at h
    split
    · rename_i j _ hr hj
      rw [hj, hr] at h
      simp at h
    · rfl
  unfold Part.txfPump
  rw [hc, hi]
  rfl

/-- What a command ends with, while TXF's head is checked and reading. -/
theorem Part.settle_of_headReading {p : Part} (h : p.txf.headReading = true) :
    p.settle = (p.onRpt (·.choose)).joinOwn := by
  unfold Part.settle
  rw [Part.txfPump_of_headReading h]

/-- A joining access changes the queue alone. -/
theorem Path.join_eq (x : Path) (k : OwnKind) (b : Bool) : x.join k b = { x with own := (x.join k b).own } := by
  unfold Path.join
  split <;> rfl

/-- The joining of the own accesses changes the queue alone. -/
theorem Part.joinOwn_eq (p : Part) : p.joinOwn = { p with path := { p.path with own := p.joinOwn.path.own } } := by
  have h : p.joinOwn.path = { p.path with own := p.joinOwn.path.own } := by
    unfold Part.joinOwn Part.onPath
    simp only
    rw [Path.join_eq (Path.join _ _ _), Path.join_eq (Path.join _ _ _), Path.join_eq (Path.join _ _ _),
      Path.join_eq (Path.join _ _ _), Path.join_eq p.path]
  rw [← h]
  rfl

@[simp] theorem Part.joinOwn_state (p : Part) : p.joinOwn.path.state = p.path.state := by rw [Part.joinOwn_eq]
@[simp] theorem Part.joinOwn_anchor (p : Part) : p.joinOwn.path.anchor = p.path.anchor := by rw [Part.joinOwn_eq]
@[simp] theorem Part.joinOwn_takeWord (p : Part) : p.joinOwn.path.takeWord = p.path.takeWord := by rw [Part.joinOwn_eq]
@[simp] theorem Part.joinOwn_takeWordRead (p : Part) : p.joinOwn.path.takeWordRead = p.path.takeWordRead := by rw [Part.joinOwn_eq]
@[simp] theorem Part.joinOwn_watch (p : Part) : p.joinOwn.path.watch = p.path.watch := by rw [Part.joinOwn_eq]
@[simp] theorem Part.joinOwn_mirror (p : Part) : p.joinOwn.path.mirror = p.path.mirror := by rw [Part.joinOwn_eq]
@[simp] theorem Part.joinOwn_lastSeq (p : Part) : p.joinOwn.path.lastSeq = p.path.lastSeq := by rw [Part.joinOwn_eq]
@[simp] theorem Part.joinOwn_take (p : Part) : p.joinOwn.path.take = p.path.take := by rw [Part.joinOwn_eq]

/-- An access that waits, or is not wanted, does not join again. -/
theorem Path.join_of_waits {x : Path} {k : OwnKind} {b : Bool} (h : (!b || x.waits k) = true) : x.join k b = x := by
  unfold Path.join
  cases b <;> simp_all

/-- Where every wanted access waits, none joins. -/
theorem Part.joinOwn_of_accessesWait {p : Part} (h : p.accessesWait = true) : p.joinOwn = p := by
  unfold Part.accessesWait at h
  simp only [Bool.and_eq_true] at h
  obtain ⟨⟨⟨⟨h1, h2⟩, h3⟩, h4⟩, h5⟩ := h
  have h4' : (!decide (p.disp.rpt.writer ≠ .idle) || p.path.waits .report) = true := by
    simpa [Decidable.not_not] using h4
  unfold Part.joinOwn Part.onPath
  simp only
  rw [Path.join_of_waits h1, Path.join_of_waits h2, Path.join_of_waits h3, Path.join_of_waits h4',
    Path.join_of_waits h5]

/-- A part at rest stays as it is when a command ends. -/
theorem Part.settle_of_atRest {p : Part} (h : p.atRest) : p.settle = p := by
  obtain ⟨h1, h2, h3⟩ := h
  have hr : p.onRpt (·.choose) = p := by
    change { p with disp := { p.disp with rpt := p.disp.rpt.choose } } = p
    rw [h2]
  rw [Part.settle_of_headReading h1, hr, Part.joinOwn_of_accessesWait h3]

@[simp] theorem Path.passOver_waits (x : Path) (k : OwnKind) : x.passOver.waits k = x.waits k := by
  simp [Path.waits, Path.passOver, List.any_map, Function.comp_def]

@[simp] theorem Path.passOver_takeReads (x : Path) : x.passOver.takeReads = x.takeReads := rfl
@[simp] theorem Path.passOver_resultDue (x : Path) : x.passOver.resultDue = x.resultDue := rfl
@[simp] theorem Path.passOver_inAnchor (x : Path) (a : Nat) : x.passOver.inAnchor a = x.inAnchor a := rfl
@[simp] theorem Path.passOver_slotWord (x : Path) (a : Nat) : x.passOver.slotWord a = x.slotWord a := rfl
@[simp] theorem Path.passOver_inTextArea (x : Path) (a : Nat) : x.passOver.inTextArea a = x.inTextArea a := rfl
@[simp] theorem Path.passOver_reportSlot (x : Path) (a : Nat) : x.passOver.reportSlot a = x.reportSlot a := rfl

/-- A part at rest stays at rest when every waiting own access has been passed over once more. -/
theorem Part.atRest_passOver {p : Part} (h : p.atRest) : (p.onPath (·.passOver)).atRest := by
  refine ⟨h.1, h.2.1, ?_⟩
  rw [← h.2.2]
  unfold Part.accessesWait
  simp only [Part.onPath_path, Path.passOver_waits, Path.passOver_takeReads, Path.passOver_resultDue,
    Path.passOver_takeWordRead]
  rfl

/-! ### What a command's end keeps -/

/-- A part with the same base has the same configuration and the same clock and pins. -/
theorem Part.same_of_base {p q : Part} (h : p.base = q.base) : p.sameConfig q ∧ p.sameClock q := by
  have hp := path_of_base h
  exact ⟨⟨params_of_base h, geo_of_base h, nodes_of_base h, by rw [hp], by rw [hp]⟩, now_of_base h,
    congrArg (fun b => b.1.2.1) h, congrArg (fun b => b.1.2.2.1) h, congrArg (fun b => b.1.2.2.2.1) h,
    congrArg (fun b => b.1.2.2.2.2) h⟩

/-- What a command ends with changes neither the configuration nor the clock and pins. -/
theorem Part.settle_same (p : Part) : p.settle.sameConfig p ∧ p.settle.sameClock p := by
  obtain ⟨⟨h1, h2, h3, h4, h5⟩, h6⟩ := Part.same_of_base (Part.txfPump_base p)
  refine ⟨⟨h1, h2, h3, ?_, ?_⟩, h6⟩
  · unfold Part.settle
    rw [Part.joinOwn_watch]
    exact h4
  · unfold Part.settle
    rw [Part.joinOwn_anchor]
    exact h5

/-- What a command ends with changes neither tracking, arrivals nor assignments. -/
theorem Part.settle_sameTraffic (p : Part) : p.settle.sameTraffic p :=
  ⟨Part.settle_trk p, Part.settle_arr p, Part.settle_prm p⟩

/-- While TXF's head reads, what a command ends with changes no text and, of the display side, the report writer alone. -/
theorem Part.settle_sameTexts {p : Part} (h : p.txf.headReading = true) :
    p.settle.sameTexts p ∧ p.settle.disp = { p.disp with rpt := p.disp.rpt.choose } := by
  rw [Part.settle_of_headReading h]
  exact ⟨⟨rfl, rfl, rfl, rfl⟩, rfl⟩

theorem Part.sameConfig.trans {p q r : Part} (h : p.sameConfig q) (h' : q.sameConfig r) : p.sameConfig r :=
  ⟨h.1.trans h'.1, h.2.1.trans h'.2.1, h.2.2.1.trans h'.2.2.1, h.2.2.2.1.trans h'.2.2.2.1,
    h.2.2.2.2.trans h'.2.2.2.2⟩

theorem Part.sameClock.trans {p q r : Part} (h : p.sameClock q) (h' : q.sameClock r) : p.sameClock r :=
  ⟨h.1.trans h'.1, h.2.1.trans h'.2.1, h.2.2.1.trans h'.2.2.1, h.2.2.2.1.trans h'.2.2.2.1,
    h.2.2.2.2.trans h'.2.2.2.2⟩

/-- What every command ends with, after an operation that keeps the base. -/
theorem Part.settle_same_of_base {p q : Part} (h : p.base = q.base) : p.settle.sameConfig q ∧ p.settle.sameClock q :=
  ⟨(Part.settle_same p).1.trans (Part.same_of_base h).1, (Part.settle_same p).2.trans (Part.same_of_base h).2⟩

/-! ### Host accesses (R164, R173, R179) -/

theorem State.release_of_portFree {s : State} (h : s.portFree = true) : s.release = s := by
  unfold State.portFree at h
  simp only [Bool.and_eq_true, decide_eq_true_eq, Bool.not_eq_true'] at h
  have hc : s.clearResult = s := by
    unfold State.clearResult
    rw [h.2]
    rfl
  unfold State.release
  rw [hc]
  simp only [h.1]

/-- A host write that is not held: memory takes it as given, and PATH watches it. -/
theorem State.hostWrite_of_portFree {s : State} (h : s.portFree = true) (a : Addr) (data : Word) (be : BitVec 4) :
    s.hostWrite a data be =
      { s with
        mem := writeWord s.mem a data be
        part := ((s.part.onPath (·.passOver)).watchWrite a.toNat data be).settle } := by
  unfold State.hostWrite
  rw [State.release_of_portFree h]
  rfl

/-- A host read that is not held. -/
theorem State.hostRead_of_portFree {s : State} (h : s.portFree = true) (a : Addr) :
    s.hostRead a =
      s.onPart fun p =>
        (({ p.onPath (·.passOver) with hostData := readWord s.mem a }).watchRead a.toNat (readWord s.mem a)).settle := by
  unfold State.hostRead
  rw [State.release_of_portFree h]
  rfl

/-- The mirror and the last sequence numbers decide what a slot holds. -/
theorem Path.slotWords_of_mirror {x y : Path} (h : x.mirror = y.mirror) (k slot : Nat) :
    x.slotWords k slot = y.slotWords k slot := by
  unfold Path.slotWords
  rw [h]

/-- What watching a closing-word write of window `k`, slot `slot` comes to (R177). -/
theorem Part.watchWrite_closing {p : Part} {a k slot : Nat} {data : Word} {be : BitVec 4} {words : List Word}
    (ha : p.path.inAnchor a = false)
    (hs : p.path.slotWord a = some (k, recordSize k * slot + (recordSize k - 1)))
    (hw : (p.path.mergeMirror k (recordSize k * slot + (recordSize k - 1)) data be).slotWords k slot = words) :
    ∃ x : Path, x.watch = p.path.watch ∧ x.anchor = p.path.anchor ∧ x.state = p.path.state
      ∧ x.lastSeq = p.path.lastSeq
      ∧ p.watchWrite a data be =
          if sequenceOf (words.getD (recordSize k - 1) 0) = p.path.lastTaken k slot then
            { p with path := x }.count .repeatTake 1
          else
            ({ p with path := x.setTaken k slot (sequenceOf (words.getD (recordSize k - 1) 0)) } : Part).handRecord k slot
              words := by
  have hsize : 0 < recordSize k := by unfold recordSize; split <;> omega
  have hmod : (recordSize k * slot + (recordSize k - 1)) % recordSize k = recordSize k - 1 := by
    rw [Nat.mul_add_mod]
    exact Nat.mod_eq_of_lt (by omega)
  have hdiv : (recordSize k * slot + (recordSize k - 1)) / recordSize k = slot := by
    rw [Nat.mul_add_div hsize, Nat.div_eq_of_lt (by omega), Nat.add_zero]
  have hmt : ∀ x : Path, (x.mergeTake a data be).watch = x.watch ∧ (x.mergeTake a data be).anchor = x.anchor
      ∧ (x.mergeTake a data be).state = x.state ∧ (x.mergeTake a data be).lastSeq = x.lastSeq
      ∧ (x.mergeTake a data be).mirror = x.mirror := by
    intro x
    unfold Path.mergeTake
    split <;> exact ⟨rfl, rfl, rfl, rfl, rfl⟩
  obtain ⟨m1, m2, m3, m4, m5⟩ := hmt p.path
  have hw' : ((p.path.mergeTake a data be).mergeMirror k (recordSize k * slot + (recordSize k - 1)) data be).slotWords
      k slot = words := by
    rw [← hw]
    apply Path.slotWords_of_mirror
    show (p.path.mergeTake a data be).mirror.modify k _ = _
    rw [m5]
    rfl
  refine ⟨(p.path.mergeTake a data be).mergeMirror k (recordSize k * slot + (recordSize k - 1)) data be, m1, m2, m3,
    m4, ?_⟩
  simp only [Part.watchWrite, ha, hs, Part.capture, Part.onPath_path, Bool.false_eq_true, ↓reduceIte, hmod, hdiv,
    Part.closeRecord, hw']
  have hl : ((p.path.mergeTake a data be).mergeMirror k (recordSize k * slot + (recordSize k - 1)) data be).lastTaken
      k slot = p.path.lastTaken k slot := by
    unfold Path.lastTaken
    show ((p.path.mergeTake a data be).lastSeq.getD k []).getD slot 0 = _
    rw [m4]
  rw [hl]
  rfl

/-- A host write that takes a record hands its words to the window's owner (R177). -/
theorem State.Takes.hostWrite {s : State} {a : Addr} {data : Word} {be : BitVec 4} {k slot : Nat} {words : List Word}
    (h : s.Takes a data be k slot words) :
    ∃ x : Path, x.watch = s.part.path.watch ∧ x.anchor = s.part.path.anchor ∧ x.state = s.part.path.state
      ∧ s.hostWrite a data be =
          { s with
            mem := writeWord s.mem a data be
            part := (({ s.part with path := x } : Part).handRecord k slot words).settle } := by
  obtain ⟨x, h1, h2, h3, -, h5⟩ := Part.watchWrite_closing (p := s.part.onPath (·.passOver)) (data := data) (be := be)
    (words := words) h.outside h.closing h.record
  have hf : ¬sequenceOf (words.getD (recordSize k - 1) 0)
      = (s.part.onPath (·.passOver)).path.lastTaken k slot := h.fresh
  rw [if_neg hf] at h5
  exact ⟨x.setTaken k slot (sequenceOf (words.getD (recordSize k - 1) 0)), h1, h2, h3, by
    rw [State.hostWrite_of_portFree h.free, h5]; rfl⟩

/-- Every host write row is the one bus operation (log entry 5). -/
theorem exec_of_busWrites {c : Instr} {a : Addr} {data : Word} {be : BitVec 4} (h : c ∈ busWrites a data be) (s : State) :
    exec c s = .next (s.hostWrite a data be) := by
  simp only [busWrites, List.mem_cons, List.not_mem_nil, or_false] at h
  obtain rfl | rfl | rfl | rfl | rfl | rfl | rfl | rfl | rfl | rfl | rfl | rfl | rfl := h <;> rfl

end Sys2Proof.Machine
end

