-- ==== Sys2Proof/Tests/Slice0.lean ====
section
/-! SUPPORT. Tests of the model on a small tower, and a witness for every statement that has hypotheses. Every expected
value is worked out from the rules of the spec that the test's comment names. -/

namespace Sys2Proof.Tests

open Sys2Proof.Machine

/-! ### A small tower -/

/-- Three floors 4 m apart. -/
def floors : List Floor :=
  [⟨0, [0x30#8], true, true⟩, ⟨4000, [0x31#8], true, false⟩, ⟨8000, [0x32#8], true, false⟩]

/-- A double-deck car: deck 0 serves floors 0 and 1, deck 1 floors 1 and 2. -/
def doubleDeck : CarConfig := ⟨2500, 200, .oneOfOne, 2, 4000, [0x41#8], [], [0, 1], [1, 2]⟩

/-- A single-deck car that serves every floor, deglitching two of three. -/
def singleDeck : CarConfig := ⟨2500, 200, .twoOfThree, 1, 0, [0x42#8], [0x45#8], [0, 1, 2], []⟩

/-- Cars 0 and 31 are configured. -/
def cars : List (Option CarConfig) := some doubleDeck :: List.replicate 30 none ++ [some singleDeck]

/-- A terminal at floor 0 and a hall lantern of car 0 at floor 1 on ring 0; a lobby board and a terminal on ring 5. -/
def nodeTable : List (Option NodeConfig) :=
  [some ⟨.terminal, 0, 1, 0, 0, false, 0, 0, 0, 6 :: List.replicate 31 0⟩,
    some ⟨.hallLantern, 0, 2, 0, 0, true, 1, 0, 0, List.replicate 32 0⟩,
    some ⟨.lobbyBoard, 5, 1, 0, 0, false, 2, 0, 0, List.replicate 32 0⟩]
    ++ List.replicate 188 none ++ [some ⟨.terminal, 5, 2, 1, 0, false, 1, 0, 0, List.replicate 32 0⟩]

/-- The windows: records at 2000H, 2400H, 2800H and 2A00H, reports at 3000H, one text area at 4000H. -/
def watchMap : List Window :=
  [⟨true, 0x2000, 512⟩, ⟨true, 0x2400, 1024⟩, ⟨true, 0x2800, 512⟩, ⟨true, 0x2A00, 8⟩, ⟨true, 0x3000, 2048⟩,
    ⟨true, 0x4000, 64⟩, ⟨false, 0, 0⟩, ⟨false, 0, 0⟩]

/-- A path that runs, the anchor block at 500000H, with the report class's write waiting. -/
def runningPath : Path where
  state := .running
  anchor := 5
  takeWord := some 0
  takeWordRead := false
  watch := watchMap
  mirror := [List.replicate 512 0, List.replicate 1024 0, List.replicate 512 0, List.replicate 8 0]
  lastSeq := [List.replicate 32 0, List.replicate 128 0, List.replicate 64 0, [0]]
  take := none
  own := [⟨.report, 0⟩]

/-- RPT with the counters record's write sequence begun. -/
def writing : Rpt := { Rpt.reset with area := some 0x3000, writer := .record 234 0 (List.replicate 10 1) }

/-- Link nodes of a ring that have joined. -/
def joined (index : Nat) : LinkNode := { LinkNode.fresh index 9000 with state := .active, joinDue := false }

/-- A CLOSED ring of two joined nodes. -/
def closedRing (i j : Nat) : Ring :=
  { Ring.reset with nodes := [joined i, joined j], window := 1, state := .closed, lastServed := 2 }

/-- The rings: 0 and 5 in use. -/
def rings : List Ring := [closedRing 0 1, Ring.reset, Ring.reset, Ring.reset, Ring.reset, closedRing 2 191]

/-- The tower 10 s after its reset, at rest. -/
def tower : Part :=
  { Part.reset 5 0 with
    now := 10005
    sampledAt := 10000
    path := runningPath
    geo := ⟨floors, cars⟩
    nodes := nodeTable
    arr := freshArr nodeTable
    prm := freshPrm nodeTable
    ovr := List.replicate 4 { Channel.reset with config := some ⟨0xFFFF, none, true, true⟩ }
    disp := ⟨freshCmp nodeTable, rings, writing⟩ }

/-- The tower with empty memory and no command waiting. -/
def base : State := ⟨tower, [], []⟩

/-- A state of the tower. -/
def stateOf (p : Part) : State := ⟨p, [], []⟩

/-- The address of the closing word of a record slot. -/
def closing (k slot : Nat) : Addr :=
  BitVec.ofNat 24 ([0x2000, 0x2400, 0x2800, 0x2A00].getD k 0 + recordSize k * slot + (recordSize k - 1))

/-- The state in which the host has written the first words of a record. -/
def written (p : Part) (k slot : Nat) (ws : List Word) : State :=
  let fill (l : List Word) : List Word :=
    l.take (recordSize k * slot) ++ ws ++ l.drop (recordSize k * slot + ws.length)
  stateOf (p.onPath fun x => { x with mirror := x.mirror.modify k fill })

/-- The words of a record whose closing word carries the sequence number 1. -/
def record (k : Nat) (ws : List Word) : List Word := ws ++ List.replicate (recordSize k - 1 - ws.length) 0 ++ [1]

/-- The first two words of the newest report that waits. -/
def lastReport (s : State) : Option (Word × Word) := s.part.disp.rpt.waiting.getLast?.map fun r => (r.word0, r.word1)

/-- The state a step leaves; the same state where it leaves none. -/
def after (c : Instr) (s : State) : State :=
  match exec c s with
  | .next t => t
  | .fault _ => s
  | .refused _ => s


/-! ### Variants of the tower -/

/-- An assignment of car 0, deck 0 from floor 0 to floor 1, made at the terminal at floor 0. -/
def booking (number order : Nat) (prompt : PromptState) (deadline : Option Time) (estimate : Option Estimate) :
    Assignment :=
  ⟨number, order, 0, 0, 1, 0, 0, false, 9000, false, prompt, deadline, estimate⟩

/-- Two assignments at the terminal at floor 0, the first SHOWING until now. -/
def booked : Part :=
  { tower with prm := { tower.prm with
      table := [booking 7 0 .showing (some 10005) (some .none), booking 8 1 .queued none (some .none)]
      nextOrder := 2
      queues := [⟨0, [7, 8]⟩, ⟨191, []⟩] } }

/-- The tower with one car's state changed. -/
def withCar (c : Nat) (x : Car) : Part := tower.setCar c x

/-- Fields of a message of priority `n` for every LINE region, its text at word 0 of the text area. -/
def lineFields (n : Nat) : MessageFields := ⟨n, false, .any, 0xFFFF, none, 0, ⟨0, 0, 5⟩⟩

/-- An ACTIVE message whose text is READY. -/
def showing (n : Nat) (text : List Byte) : Message := ⟨.active, some (lineFields n), some 10005, [], ⟨some .ready, text, 1⟩⟩

/-- Messages 3, 5 and 127 are ACTIVE, 5 at a lower priority, and trigger 0 is HELD on message 127. -/
def messaged : Part :=
  { tower with
    msg := ((tower.msg.set 3 (showing 4 [0x41#8])).set 5 (showing 2 [0x42#8])).set 127 (showing 4 [0x43#8])
    trg := some ⟨0, 5, 1, true, .rise, .activate 127, true, some true⟩ :: List.replicate 31 none }

/-- The tower with ring 0 changed. -/
def withRing (f : Ring → Ring) : Part := { tower with disp := tower.disp.setRing 0 (f (tower.disp.ring 0)) }

/-- A PAINT of the PROMPT region. -/
def paintEntry : QueueEntry := ⟨.paint, some .prompt, 1, Content.blank, 0⟩

/-- A send record of a frame for position 1, sent on port A at time `t` with a timeout of 10 ms. -/
def sentRecord (e : QueueEntry) (t : Time) : SendRecord := ⟨1, e, true, false, t, 0, 10, []⟩

/-- Ring 0 with a frame of position 1 outstanding under tag 0 since time `t`, the node in a state with a retry count. -/
def outstandingSince (st : NodeState) (retry : Nat) (t : Time) : Part :=
  withRing fun r =>
    { r with
      nodes := [{ joined 0 with state := st, retry := retry, flights := [⟨paintEntry, none⟩] }, joined 1]
      tags := [(0, .outstanding (sentRecord paintEntry t))], lastTag := 0 }

/-- Ring 0 with an outstanding TRACE that has returned. -/
def traced (st : RingState) (dual : Bool) (copies : List Copy) : Part :=
  withRing fun r =>
    { r with state := st, tags := [(4, .outstanding ⟨0, traceEntry, true, dual, 10000, 0, 10, copies⟩)], lastTag := 4 }

/-- A take in progress from RUNNING, with its own access waiting. -/
def taking (t : Take) (k : OwnKind) : Part :=
  tower.onPath fun x => { x with state := .taking true, take := some t, own := [⟨k, 0⟩, ⟨.report, 0⟩] }

/-- The words of an anchor block whose parameters are the defaults, as a TAKE_PARAMS reads them. -/
def paramWords : List Word :=
  [0x484E0416#32, 1, 2, 0, 1000, 600, 1500, 6000, 50, 8000, 3000, 4000, 3, 4, 5000, 2500, 180, 6000, 3000, 5000, 1000,
    10, 10, 10, 10, 10, 10, 3, 3, 3, 3, 3, 3, 20, 1]

/-- TXF's head job in TEXT at word 4001H with `left` bytes to come, and a READY range of message 9. -/
def fetching (left : Nat) (discard : Bool) : Part :=
  { tower with
    msg := (tower.msg.set 127 (showing 4 [])).set 9 (showing 4 [0x44#8])
    txf := ⟨[⟨.message 127, ⟨0, 0, 5⟩, .text, 0x4000, 2, 0x4001, left, [0x48#8, 0x49#8, 0x4A#8, 0x4B#8]⟩],
      [⟨.message 9, 0x4010, 1⟩], some ⟨0x4001, discard⟩⟩
    path := { runningPath with own := [⟨.text, 0⟩, ⟨.report, 0⟩] } }

/-- The same, the text read's turn having come because it waited through 32 host accesses. -/
def fetchingNow (left : Nat) (discard : Bool) : Part :=
  (fetching left discard).onPath fun x => { x with own := [⟨.text, 32⟩, ⟨.report, 0⟩] }

/-- The tower with RPT changed. -/
def withRpt (f : Rpt → Rpt) : Part := tower.onRpt f

/-- A report. -/
def sample : Report := ⟨0x00000003#32, 0x11#32, 0x22#32⟩

set_option maxRecDepth 20000

/-! ### Well-formedness: an ill-formed command for each check, and the last unit that exists -/

theorem test_wf_modified : Instr.wellFormed (.modified 4095 0 0) = true ∧ Instr.wellFormed (.modified 4096 0 0) = false := by decide
theorem test_wf_latchClear : Instr.wellFormed (.latchClear 3) = true ∧ Instr.wellFormed (.latchClear 4) = false := by decide
theorem test_wf_carStale : Instr.wellFormed (.carStale 31) = true ∧ Instr.wellFormed (.carStale 32) = false := by decide
theorem test_wf_positionHistoryEmptied : Instr.wellFormed (.positionHistoryEmptied 31) = true ∧ Instr.wellFormed (.positionHistoryEmptied 32) = false := by decide
theorem test_wf_showDeadline : Instr.wellFormed (.showDeadline 191) = true ∧ Instr.wellFormed (.showDeadline 192) = false := by decide
theorem test_wf_messageExpired : Instr.wellFormed (.messageExpired 127) = true ∧ Instr.wellFormed (.messageExpired 128) = false := by decide
theorem test_wf_dwellDeadline : Instr.wellFormed (.dwellDeadline 191 .line) = true ∧ Instr.wellFormed (.dwellDeadline 192 .line) = false := by decide
theorem test_wf_lineAccepted : Instr.wellFormed (.lineAccepted 3) = true ∧ Instr.wellFormed (.lineAccepted 4) = false := by decide
theorem test_wf_sendFrame : Instr.wellFormed (.sendFrame 5) = true ∧ Instr.wellFormed (.sendFrame 6) = false := by decide
theorem test_wf_frameReturn : Instr.wellFormed (.frameReturn 5 .a []) = true ∧ Instr.wellFormed (.frameReturn 6 .a []) = false := by decide
theorem test_wf_returnTimeout_ring : Instr.wellFormed (.returnTimeout 5 255) = true ∧ Instr.wellFormed (.returnTimeout 6 255) = false := by decide
theorem test_wf_returnTimeout_tag : Instr.wellFormed (.returnTimeout 0 0) = true ∧ Instr.wellFormed (.returnTimeout 0 256) = false := by decide
theorem test_wf_trailingTimeout_ring : Instr.wellFormed (.trailingTimeout 5 255) = true ∧ Instr.wellFormed (.trailingTimeout 6 255) = false := by decide
theorem test_wf_trailingTimeout_tag : Instr.wellFormed (.trailingTimeout 0 0) = true ∧ Instr.wellFormed (.trailingTimeout 0 256) = false := by decide
theorem test_wf_busyBackoff_ring : Instr.wellFormed (.busyBackoff 5 1 none) = true ∧ Instr.wellFormed (.busyBackoff 6 1 none) = false := by decide
theorem test_wf_busyBackoff_low : Instr.wellFormed (.busyBackoff 0 1 none) = true ∧ Instr.wellFormed (.busyBackoff 0 0 none) = false := by decide
theorem test_wf_busyBackoff_high : Instr.wellFormed (.busyBackoff 0 32 none) = true ∧ Instr.wellFormed (.busyBackoff 0 33 none) = false := by decide
theorem test_wf_pollTimer_ring : Instr.wellFormed (.pollTimer 5 1) = true ∧ Instr.wellFormed (.pollTimer 6 1) = false := by decide
theorem test_wf_pollTimer_low : Instr.wellFormed (.pollTimer 0 1) = true ∧ Instr.wellFormed (.pollTimer 0 0) = false := by decide
theorem test_wf_pollTimer_high : Instr.wellFormed (.pollTimer 0 32) = true ∧ Instr.wellFormed (.pollTimer 0 33) = false := by decide
theorem test_wf_joinTimer_ring : Instr.wellFormed (.joinTimer 5 1) = true ∧ Instr.wellFormed (.joinTimer 6 1) = false := by decide
theorem test_wf_joinTimer_low : Instr.wellFormed (.joinTimer 0 1) = true ∧ Instr.wellFormed (.joinTimer 0 0) = false := by decide
theorem test_wf_joinTimer_high : Instr.wellFormed (.joinTimer 0 32) = true ∧ Instr.wellFormed (.joinTimer 0 33) = false := by decide
theorem test_wf_ringCheck : Instr.wellFormed (.ringCheck 5) = true ∧ Instr.wellFormed (.ringCheck 6) = false := by decide
theorem test_wf_traceEnd : Instr.wellFormed (.traceEnd 5) = true ∧ Instr.wellFormed (.traceEnd 6) = false := by decide
/-- The table gives no row bits, so no word spells a command. -/
theorem test_no_word : decodeTableWord 32 1 = none ∧ decodeTableWord 0 0 = none := by decide

/-! ### One or two tests a command -/

/-- R190: the check value of this CRC-16 for the nine digits 1 to 9 is 29B1H. -/
theorem test_crc16 :
    crc16 [0x31#8, 0x32#8, 0x33#8, 0x34#8, 0x35#8, 0x36#8, 0x37#8, 0x38#8, 0x39#8] = 0x29B1#16 := by decide

/-- Two writes of a word with a read between them, passed while RESET_N is asserted. -/
def passing : List HostAccess := [.write 0x10#24 0xAB#32 0x1#4, .read 0x10#24 0xF#4, .write 0x10#24 0xCD#32 0x1#4]

/-- R164, R166, R167: the straps are read, the watch map is gone, the passed writes reach memory, and the passed read returns
the content between them. -/
theorem test_resetN :
    (after (.resetN 3 passing) base).part.path.anchor = 3 ∧ (after (.resetN 3 passing) base).part.path.watch = []
      ∧ readByte (after (.resetN 3 passing) base).mem 0x40 = 0xCD
      ∧ (after (.resetN 3 passing) base).part.hostData = 0xAB := by decide

/-- R168: 1 asks for a TAKE_FULL, and the path remembers that it was RUNNING (R165). -/
theorem test_takeFull :
    ((after (.takeFull 1 0xF#4) base).part.path.take.map (·.kind), (after (.takeFull 1 0xF#4) base).part.path.state)
      = (some .full, .taking true) := by decide

/-- R168: 2 asks for a TAKE_PARAMS. -/
theorem test_takeParams :
    (after (.takeParams 2 0x1#4) base).part.path.take.map (·.kind) = some .params := by decide

/-- R167: the take word is at word 2 of the block; the value read from memory is judged. -/
theorem test_takeWordRead :
    ((after .takeWordRead
      { stateOf (tower.onPath fun x => { x with takeWordRead := true, own := [⟨.takeWord, 0⟩, ⟨.report, 0⟩] }) with
        mem := writeWhole [] 0x500002#24 2#32 }).part.path.take).map (·.kind) = some .params := by decide

/-- R169: a write in the anchor block ends the take with code 10H. -/
theorem test_modified :
    ((after (.modified 4095 7 0xF#4) (stateOf (taking (Take.fresh .full) .takeRead))).part.path.take).map (·.result)
      = some (some (0x10, 0)) := by decide

/-- R168: the first read is of word 0 of the block. -/
theorem test_takeRead :
    ((after .takeRead { stateOf (taking (Take.fresh .full) .takeRead) with
      mem := writeWhole [] 0x500000#24 0x484E0416#32 }).part.path.take).map (·.copy) = some [0x484E0416#32] := by decide

/-- R170: a wrong signature is refused with code 01H. -/
theorem test_takeRead_refuses :
    ((after .takeRead (stateOf (taking { Take.fresh .params with copy := List.replicate 34 0 } .takeRead))).part.path.take).map
      (·.result) = some (some (0x01, 0)) := by decide

/-- R173: an accepted take writes the result mark with code 0 and entry 0. -/
theorem test_takeResultWrite :
    readWord (after .takeResultWrite
      (stateOf (taking { Take.fresh .params with copy := paramWords, result := some (0, 0) } .takeResult))).mem 0x500002#24
      = 0x80000000#32 := by decide

/-- R132: a LATCHED channel is turned OFF, reported as 13H. -/
theorem test_latchClear :
    ((after (.latchClear 2) (stateOf { tower with ovr := tower.ovr.set 2 { tower.channel 2 with latch := true } })).part.channel
        2).state = .off
      ∧ lastReport (after (.latchClear 2)
          (stateOf { tower with ovr := tower.ovr.set 2 { tower.channel 2 with latch := true } }))
        = some (0x00000213#32, 0) := by decide

/-- R187: every counter returns to 0, and the write-back follows the write in progress. -/
theorem test_countersClear :
    ((after .countersClear (stateOf (withRpt fun r => { r with counters := List.replicate 16 9 }))).part.disp.rpt.counters,
      (after .countersClear base).part.disp.rpt.writeBackDue) = (List.replicate 16 0, true) := by decide

/-- R187: the statistics of every ring are cleared, the minimum to 65,535. -/
theorem test_statisticsClear :
    ((after .statisticsClear (stateOf (withRing fun r => { r with stats := ⟨1, 2, 3, 4, 5, 6⟩ }))).part.disp.ring 0).stats
      = ⟨65535, 0, 0, 0, 0, 0⟩ := by decide

/-- R125: a region of a reachable node takes a new version, one of an unreachable node does not. -/
theorem test_repaint :
    (((after .repaint (stateOf { tower with disp := setReachable tower.disp 0 true })).part.disp.cmp.region 0 .prompt).map
        (·.version),
      ((after .repaint (stateOf { tower with disp := setReachable tower.disp 0 true })).part.disp.cmp.region 1 .arrow).map
        (·.version)) = (some 1, some 0) := by decide

/-- R164: only the enabled bytes reach memory. -/
theorem test_hostWrite :
    readWord (after (.hostWrite 0x100#24 0xAABBCCDD#32 0x5#4) base).mem 0x100#24 = 0x00BB00DD#32 := by decide

/-- R177: the enabled bytes merge into the mirror. -/
theorem test_mirrorMerge :
    (after (.mirrorMerge 0x2A00#24 0x02010201#32 0x2#4) base).part.path.mirror.getD 3 [] = 0x200#32 :: List.replicate 7 0 := by
  decide

/-- R15, R23, R24: at 3,900 mm deck 1 stands at 7,900 mm, within 200 mm of floor 2. -/
theorem test_carRecord :
    ((after (.carRecord (closing 0 0) 1 0xF#4) (written tower 0 0 [3900])).part.deck 0 1).accepted = some 2
      ∧ ((after (.carRecord (closing 0 0) 1 0xF#4) (written tower 0 0 [3900])).part.deck 0 1).state = .atFloor := by
  decide

/-- R21, R22: 2,000 mm in 400 ms is 5,000 mm/s, moving up with a lead of 6,000 mm (7,500 clamped). -/
theorem test_carRecord_speed :
    ((after (.carRecord (closing 0 31) 1 0xF#4)
        (written (withCar 31 { tower.car 31 with history := [(0, 9605)] }) 0 31 [2000])).part.car 31).speed = 5000
      ∧ ((after (.carRecord (closing 0 31) 1 0xF#4)
        (written (withCar 31 { tower.car 31 with history := [(0, 9605)] }) 0 31 [2000])).part.car 31).lead = 6000 := by
  decide

/-- R62, R65 to R69: assignment 9 from the terminal at floor 0 to floor 1 shows for prompt_show_ms. -/
theorem test_assignNew :
    ((after (.assignNew (closing 2 0) 1 0xF#4) (written tower 2 0 [0x00090001#32, 0x00010000#32, 0])).part.assignment 9).map
        (fun a => (a.destination, a.prompt, a.deadline)) = some (1, .showing, some 15005) := by decide

/-- R63: under an ACTIVE channel a NEW is dropped and the first is reported as 07H. -/
theorem test_assignNew_dropped :
    lastReport (after (.assignNew (closing 2 0) 1 0xF#4)
      (written { tower with ovr := tower.ovr.set 1 { tower.channel 1 with latch := true } } 2 0
        [0x00090001#32, 0x00010000#32, 0])) = some (0x01000007#32, 0x00090001#32) := by decide

/-- R72, R73: the cancelled head leaves and the next reference shows. -/
theorem test_assignCancel :
    ((after (.assignCancel (closing 2 0) 1 0xF#4) (written booked 2 0 [0x00070002#32])).part.queueOf 0,
      ((after (.assignCancel (closing 2 0) 1 0xF#4) (written booked 2 0 [0x00070002#32])).part.assignment 8).map (·.prompt))
      = ([8], some .showing) := by decide

/-- R74: car 31 takes assignment 8. -/
theorem test_assignReassign :
    ((after (.assignReassign (closing 2 0) 1 0xF#4) (written booked 2 0 [0x00080003#32, 0, 31])).part.assignment 8).map
      (fun a => (a.car, a.deck, a.prompt)) = some (31, 0, .queued) := by decide

/-- R88: a DEFINE of an EMPTY entry makes it DEFINED and its text PENDING. -/
theorem test_messageDefine :
    ((after (.messageDefine (closing 1 127) 1 0xF#4)
        (written tower 1 127 [0x00400301#32, 0xF#32, 0x80000000#32, 0x500#32, 0])).part.message 127).state = .defined
      ∧ ((after (.messageDefine (closing 1 127) 1 0xF#4)
        (written tower 1 127 [0x00400301#32, 0xF#32, 0x80000000#32, 0x500#32, 0])).part.message 127).text.status
        = some .pending := by decide

/-- R89: an ACTIVATE with a lifetime of 2 s expires 2,000 ms later. -/
theorem test_messageActivate :
    ((after (.messageActivate (closing 1 0) 1 0xF#4)
        (written tower 1 0 [0x00400302#32, 0x2000F#32, 0x80000000#32, 0x500#32, 0])).part.message 0).expiry = some 12005 := by
  decide

/-- R90, R93: a CANCEL makes the entry DEFINED and releases its trigger. -/
theorem test_messageCancel :
    ((after (.messageCancel (closing 1 127) 1 0xF#4) (written messaged 1 127 [3])).part.message 127).state = .defined
      ∧ ((after (.messageCancel (closing 1 127) 1 0xF#4) (written messaged 1 127 [3])).part.trg.head?).join.map (·.held)
        = some false := by decide

/-- R90: a CLEAR empties the entry but keeps the text version. -/
theorem test_messageClear :
    (after (.messageClear (closing 1 3) 1 0xF#4) (written messaged 1 3 [4])).part.message 3
      = ⟨.empty, none, none, [], ⟨none, [], 1⟩⟩ := by decide

/-- R129, R131: code 1 for channel 3 asserts its memory request, and the channel activates: report 12H. -/
theorem test_overrideActivate :
    ((after (.overrideActivate (closing 3 0) 1 0xF#4) (written tower 3 0 [0x01000000#32])).part.channel 3).state = .active
      ∧ lastReport (after (.overrideActivate (closing 3 0) 1 0xF#4) (written tower 3 0 [0x01000000#32]))
        = some (0x00020312#32, 0) := by decide

/-- R131: the release of the only source leaves the channel LATCHED. -/
theorem test_overrideRelease :
    ((after (.overrideRelease (closing 3 0) 1 0xF#4)
      (written { tower with ovr := tower.ovr.set 0 { tower.channel 0 with latch := true, memory := true } } 3 0 [2])).part.channel
        0).state = .latched := by decide

/-- R102: a write into the head job's range discards the read and starts the job again. -/
theorem test_textAreaWrite :
    (after (.textAreaWrite 0x4001#24 0 0xF#4) (stateOf (fetching 1 false))).part.txf.read.map (·.discard) = some true
      ∧ (after (.textAreaWrite 0x4001#24 0 0xF#4) (stateOf (fetching 1 false))).part.txf.jobs.map (·.fill) = [[]] := by
  decide

/-- R100: the last byte of a text of five completes it under the next version. -/
theorem test_textRead :
    ((after .textRead { stateOf (fetchingNow 1 false) with mem := [(4 * 0x4001, 0x4C#8)] }).part.message 127).text
      = ⟨some .ready, [0x48#8, 0x49#8, 0x4A#8, 0x4B#8, 0x4C#8], 2⟩ := by decide

/-- R182, R183: the read of an UNCONSUMED slot's closing word frees it and releases ATTN_N. -/
theorem test_consume :
    (after (.consume 0x3003#24 0xF#4) (stateOf (withRpt fun r => r.setSlot 0 .unconsumed))).part.disp.rpt.attention = false
      ∧ (after (.consume 0x3002#24 0xF#4) (stateOf (withRpt fun r => r.setSlot 0 .unconsumed))).part.disp.rpt.attention
        = true := by decide

/-- R180, R183: the closing word carries the sequence number and the drop count and asserts ATTN_N. -/
theorem test_reportEntryWrite :
    readWord (after .reportEntryWrite (stateOf (withRpt fun r =>
        { r with producer := 2, sequence := 4, drops := 3, writer := .entry 3 (some sample) }))).mem 0x300B#24
        = 0x00030005#32
      ∧ (after .reportEntryWrite (stateOf (withRpt fun r =>
        { r with producer := 2, sequence := 4, drops := 3, writer := .entry 3 (some sample) }))).part.disp.rpt.attention
        = true := by decide

/-- R185, Table 11-11: the counters record stands at word 1,072 of the report area. -/
theorem test_statusRecordWrite : readWord (after .statusRecordWrite base).mem 0x3430#24 = 1#32 := by decide

/-- R187: the service word, word 3 of the block, is written back as 0. -/
theorem test_serviceWordWriteBack :
    (after .serviceWordWriteBack { stateOf (withRpt fun r => { r with writer := .serviceBack }) with
      mem := writeWhole [] 0x500003#24 0x40#32 }).mem = [] := by decide

/-- R30: the decks of a car silent for stale_ms become STALE, reported as 03H. -/
theorem test_carStale :
    ((after (.carStale 31) (stateOf (withCar 31 { tower.car 31 with timer := some 9005 }))).part.deck 31 0).state = .stale
      ∧ lastReport (after (.carStale 31) (stateOf (withCar 31 { tower.car 31 with timer := some 9005 })))
        = some (0x00001F03#32, 0) := by decide

/-- R30: one millisecond too early nothing happens. -/
theorem test_carStale_early :
    (after (.carStale 31) (stateOf (withCar 31 { tower.car 31 with timer := some 9006 }))).part
      = withCar 31 { tower.car 31 with timer := some 9006 } := by decide

/-- A car that took its last record 2^31 ms ago. -/
def longStale : Car :=
  { tower.car 0 with
    history := [(5, 0)], timer := some (10005 - 0x80000000#32)
    decks := [{ Deck.fresh with state := .stale }, { Deck.fresh with state := .stale }] }

/-- R30: its position history is emptied. -/
theorem test_positionHistoryEmptied :
    ((after (.positionHistoryEmptied 0) (stateOf (withCar 0 longStale))).part.car 0).history = [] := by decide

/-- R70, R69: the next reference shows, alone, for prompt_show_ms. -/
theorem test_showDeadline :
    ((after (.showDeadline 0) (stateOf booked)).part.assignment 8).map (fun a => (a.prompt, a.deadline))
      = some (.showing, some 15005) := by decide

/-- R78: at 180 s the assignments leave; a second before they stay. -/
theorem test_lifetime :
    ((after .lifetime (stateOf { booked with now := 189000 })).part.prm.table.length,
      (after .lifetime (stateOf { booked with now := 188999 })).part.prm.table.length) = (0, 2) := by decide

/-- R92: at its expiry a message becomes DEFINED, reported as 08H. -/
theorem test_messageExpired :
    ((after (.messageExpired 127) (stateOf messaged)).part.message 127).state = .defined
      ∧ lastReport (after (.messageExpired 127) (stateOf messaged)) = some (0x00007F08#32, 0) := by decide

/-- The LINE region of the terminal at floor 0 shows message 3 until now. -/
def dwelling : Part :=
  let x : RegionRecord := ⟨.line, Content.ofCodes [0x41#8], 1, .normal, some 3, some 4, some 10005⟩
  { messaged with disp := { messaged.disp with cmp := messaged.disp.cmp.setRegion 0 x } }

/-- R117: the rotation goes on to message 127, the other of the top level, for rotate_ms. -/
theorem test_dwellDeadline :
    ((after (.dwellDeadline 0 .line) (stateOf dwelling)).part.disp.cmp.region 0 .line).map
      (fun x => (x.shown, x.content.codes, x.dwell)) = some (some 127, [0x43#8], some 16005) := by decide

/-- Channel 1 sampled with its line asserted twice in the newest three. -/
def sampled : Part :=
  { tower with
    ovr := tower.ovr.set 1
      { tower.channel 1 with samples := [false, false, false, false, false, true, false, true], test := some .twoOfThree } }

/-- R128: two of three samples accept the line. -/
theorem test_lineAccepted :
    ((after (.lineAccepted 1) (stateOf sampled)).part.channel 1).state = .active := by decide

/-- R128: under 4oo8 four asserted and four released samples leave either state, and five of a kind turn it. -/
theorem test_acceptLine_fourOfEight :
    acceptLine .fourOfEight [true, true, true, true, false, false, false, false] false = false
      ∧ acceptLine .fourOfEight [true, true, true, true, false, false, false, false] true = true
      ∧ acceptLine .fourOfEight [true, true, true, true, true, false, false, false] false = true
      ∧ acceptLine .fourOfEight [true, true, true, false, false, false, false, false] true = false := by decide

/-- R149: the frame goes out on port A under the next tag. -/
theorem test_sendFrame :
    ((after (.sendFrame 0) (stateOf (withRing fun r =>
      { r with nodes := [{ joined 0 with queue := [paintEntry] }, joined 1] }))).part.disp.ring 0).driveA.take 6
      = [1, 2, 0, 4, 1, 2] := by decide

/-- R152: a BUSY frame is held for busy_backoff_ms. -/
theorem test_frameReturn_busy :
    (((after (.frameReturn 0 .b (withTrailer (frameBytes 1 0 paintEntry) 2 0 0))
      (stateOf (outstandingSince .active 0 10000))).part.disp.ring 0).node 1).map (·.flights)
      = some [⟨paintEntry, some 10025⟩] := by decide

/-- R162: 5 ms there and back is 50 tenths of a millisecond. -/
theorem test_frameReturn_accepted :
    ((after (.frameReturn 0 .b (withTrailer (frameBytes 1 0 paintEntry) 1 0 0))
      (stateOf (outstandingSince .active 0 10000))).part.disp.ring 0).stats.maximum = 50 := by decide

/-- R154, R155: beyond `retries` (3) the node is LOST, reported as 0DH. -/
theorem test_returnTimeout :
    (((after (.returnTimeout 0 0) (stateOf (outstandingSince .suspect 3 9995))).part.disp.ring 0).node 1).map (·.state)
        = some .lost
      ∧ lastReport (after (.returnTimeout 0 0) (stateOf (outstandingSince .suspect 3 9995)))
        = some (0x0100000D#32, 0) := by decide

/-- R150: a TRAILING tag becomes FREE. -/
theorem test_trailingTimeout :
    ((after (.trailingTimeout 0 9) (stateOf (withRing fun r => { r with tags := [(9, .trailing 9995 10)] }))).part.disp.ring
      0).tags = [] := by decide

/-- R152: the held frame goes back to its queue. -/
theorem test_busyBackoff :
    (((after (.busyBackoff 0 1 (some .prompt)) (stateOf (withRing fun r =>
      { r with nodes := [{ joined 0 with flights := [⟨paintEntry, some 10005⟩] }, joined 1] }))).part.disp.ring 0).node
        1).map (fun n => (n.queue, n.flights)) = some ([paintEntry], []) := by decide

/-- R156: after poll_ms without a sending a POLL is queued. -/
theorem test_pollTimer :
    (((after (.pollTimer 0 2) (stateOf (withRing fun r =>
      { r with nodes := [joined 0, { joined 1 with lastSent := 7005 }] }))).part.disp.ring 0).node 2).map
        (fun n => n.queue.map (·.kind)) = some [.poll] := by decide

/-- R156: after rejoin_ms a join POLL becomes due. -/
theorem test_joinTimer :
    (((after (.joinTimer 0 2) (stateOf (withRing fun r =>
      { r with nodes := [joined 0, { joined 1 with state := .lost, joinFrom := 5005 }] }))).part.disp.ring 0).node 2).map
        (·.joinDue) = some true := by decide

/-- R158: ring_check_ms after the last TRACE another is due. -/
theorem test_ringCheck :
    ((after (.ringCheck 0) (stateOf (withRing fun r => { r with traceSent := some 9005 }))).part.disp.ring 0).traceDue
      = true := by decide

/-- R159, R160: on a ring of 2 wrapped with hop counts 1 and 1, the break lies between positions 1 and 2. -/
theorem test_traceEnd :
    ((after (.traceEnd 0) (stateOf (traced .untested true [⟨.a, true, 1⟩, ⟨.b, true, 1⟩]))).part.disp.ring 0).location
        = some (1, 2)
      ∧ lastReport (after (.traceEnd 0) (stateOf (traced .untested true [⟨.a, true, 1⟩, ⟨.b, true, 1⟩])))
        = some (0x0000000F#32, 0x00000201#32) := by decide

/-- R127: at a multiple of 10 ms the level of OVR2 joins its history. -/
theorem test_lineSampling :
    ((after (.lineSampling 0x4#4) (stateOf { tower with now := 10010 })).part.channel 2).samples
      = [false, false, false, false, false, false, false, true] := by decide

/-- The tower with nothing to do. -/
def quiet : State := stateOf ((withRpt fun r => { r with writer := .idle }).onPath fun x => { x with own := [] })

/-- The idle block lets a tenth of a millisecond pass when nothing of its own is due (log entry 1). -/
theorem test_idle :
    (match step quiet with
      | .next t => t.part.tenth
      | .fault _ => 0
      | .refused _ => 0) = 1 := by decide

/-! ### Witnesses: for every statement with hypotheses, states and operands that meet them, clause by clause -/

/-- A state with one command in its queue. -/
def front (c : Instr) (s : State) : State := { s with pending := [c] }

/-- A closing-word write with sequence number 1. -/
abbrev close (row : Addr → Word → BitVec 4 → Instr) (k slot : Nat) : Instr := row (closing k slot) 1 0xF#4

theorem tower_atRest : tower.atRest := ⟨by decide, rfl, by decide⟩
theorem tower_shaped : tower.shaped = true := by decide
theorem base_portFree : base.portFree = true := by decide

theorem witness_StepKeepsMemoryForm :
    memoryWf [(0x41, 7#8)] = true
      ∧ step (front (.hostWrite 0x10#24 0xFF#32 0xF#4) { base with mem := [(0x41, 7#8)] })
        = .next (after (.hostWrite 0x10#24 0xFF#32 0xF#4) { base with mem := [(0x41, 7#8)] }) := ⟨by decide, rfl⟩

theorem witness_StepKeepsSizes :
    tower.shaped = true ∧ tower.bounded = true ∧ step (front (.lifetime) base) = .next (after .lifetime base) := ⟨tower_shaped, by decide, rfl⟩

theorem witness_StepKeepsRest :
    tower.atRest ∧ step (front (.takeFull 1 0xF#4) base) = .next (after (.takeFull 1 0xF#4) base) := ⟨tower_atRest, rfl⟩

/-- An entry about to be closed while its slot is WRITING. -/
def closingEntry : Part :=
  withRpt fun r => { r.setSlot 63 .writing with producer := 63, writer := .entry 3 (some sample), waiting := [sample] }

theorem closingEntry_ringLaw : closingEntry.disp.rpt.ringLaw :=
  ⟨by decide, by decide, by decide, by decide,
    show closingEntry.disp.rpt.slots[closingEntry.disp.rpt.producer]? = some .writing by decide⟩

theorem witness_StepKeepsReportRing :
    closingEntry.disp.rpt.ringLaw
      ∧ step (front .reportEntryWrite (stateOf closingEntry)) = .next (after .reportEntryWrite (stateOf closingEntry)) :=
  ⟨closingEntry_ringLaw, rfl⟩

/-- A node with one PAINT outstanding, its window full, and an ALERT to send. -/
def windowFull : Part :=
  withRing fun r => { r with nodes :=
    [{ joined 0 with flights := [⟨paintEntry, none⟩], queue := [⟨.alert, some .line, 2, Content.blank, 0⟩] }, joined 1] }

theorem witness_StepKeepsWindow :
    windowFull.disp.windowLaw
      ∧ step (front (.sendFrame 0) (stateOf windowFull)) = .next (after (.sendFrame 0) (stateOf windowFull)) :=
  ⟨by unfold Disp.windowLaw Ring.windowLaw; decide, rfl⟩

theorem witness_StepKeepsHeld :
    messaged.heldLaw
      ∧ step (front (.messageExpired 127) (stateOf messaged)) = .next (after (.messageExpired 127) (stateOf messaged)) := by
  refine ⟨?_, rfl⟩
  intro t h
  rcases List.mem_cons.mp h with h | h
  · subst h; intro _; exact ⟨by decide, by decide⟩
  · rw [List.eq_of_mem_replicate h]; trivial

theorem witness_StepKeepsWithdrawn :
    booked.withdrawnLaw
      ∧ step (front (close .carRecord 0 0) (written booked 0 0 [0, 0, 0x100#32]))
        = .next (after (close .carRecord 0 0) (written booked 0 0 [0, 0, 0x100#32])) := by
  refine ⟨?_, rfl⟩
  unfold Part.withdrawnLaw
  decide

theorem witness_StepKeepsScope :
    booked.scopeLaw
      ∧ step (front (close .overrideActivate 3 0) (written booked 3 0 [1]))
        = .next (after (close .overrideActivate 3 0) (written booked 3 0 [1])) := by
  refine ⟨?_, rfl⟩
  unfold Part.scopeLaw
  decide

theorem tower_queueLaw : tower.queueLaw := by unfold Part.queueLaw Part.queueOrdered; decide
theorem booked_queueLaw : booked.queueLaw := by unfold Part.queueLaw Part.queueOrdered; decide

theorem witness_StepKeepsQueues :
    booked.queueLaw ∧ booked.queueOrder
      ∧ step (front (.showDeadline 0) (stateOf booked)) = .next (after (.showDeadline 0) (stateOf booked)) :=
  ⟨booked_queueLaw, by unfold Part.queueOrder; decide, rfl⟩

/-- Car 0 after a sample at `x` 400 ms ago, its deck 0 accepted at floor `a`. -/
def sampledAt (x a : Nat) : Part :=
  withCar 0 { tower.car 0 with
    history := [(x, 9605)], decks := [{ Deck.fresh with accepted := some a, state := .moving }, Deck.fresh] }

theorem witness_IndicationIsMonotonic_up :
    ((sampledAt 0 1).path.take.isSome = true → (sampledAt 0 1).path.take.isSome = true)
      ∧ step (front (close .carRecord 0 0) (written (sampledAt 0 1) 0 0 [2000]))
        = .next (after (close .carRecord 0 0) (written (sampledAt 0 1) 0 0 [2000]))
      ∧ ((written (sampledAt 0 1) 0 0 [2000]).part.deck 0 0).accepted = some 1
      ∧ ((after (close .carRecord 0 0) (written (sampledAt 0 1) 0 0 [2000])).part.deck 0 0).accepted = some 2
      ∧ ((after (close .carRecord 0 0) (written (sampledAt 0 1) 0 0 [2000])).part.car 0).motion = .movingUp :=
  ⟨by decide, rfl, by decide, by decide, by decide⟩

theorem witness_IndicationIsMonotonic_down :
    ((sampledAt 8000 1).path.take.isSome = true → (sampledAt 8000 1).path.take.isSome = true)
      ∧ step (front (close .carRecord 0 0) (written (sampledAt 8000 1) 0 0 [6000]))
        = .next (after (close .carRecord 0 0) (written (sampledAt 8000 1) 0 0 [6000]))
      ∧ ((written (sampledAt 8000 1) 0 0 [6000]).part.deck 0 0).accepted = some 1
      ∧ ((after (close .carRecord 0 0) (written (sampledAt 8000 1) 0 0 [6000])).part.deck 0 0).accepted = some 0
      ∧ ((after (close .carRecord 0 0) (written (sampledAt 8000 1) 0 0 [6000])).part.car 0).motion = .movingDown :=
  ⟨by decide, rfl, by decide, by decide, by decide⟩

theorem witness_ConfigurationNeedsATake :
    tower.path.take = none ∧ (∀ anchor passed, Instr.takeFull 1 0xF#4 ≠ .resetN anchor passed)
      ∧ exec (.takeFull 1 0xF#4) base = .next (after (.takeFull 1 0xF#4) base) :=
  ⟨by decide, fun _ _ => nofun, rfl⟩

theorem witness_OwnWritesAreFew :
    base.portFree = true ∧ exec (.consume 0x3003#24 0xF#4) base = .next (after (.consume 0x3003#24 0xF#4) base)
      ∧ exec (.lineSampling 1) base = .next (after (.lineSampling 1) base) := ⟨base_portFree, rfl, rfl⟩

theorem witness_FaultsAreIllFormed :
    Instr.wellFormed (.carStale 32) = false ∧ exec (.carStale 32) base = .fault .noSuchUnit
      ∧ Instr.wellFormed (.carStale 31) = true := ⟨by decide, rfl, by decide⟩

theorem witness_HostWriteReachesMemory :
    (∀ row ∈ busWrites 0xFFFFFF#24 0x11223344#32 0x9#4, row ∈ busWrites 0xFFFFFF#24 0x11223344#32 0x9#4)
      ∧ base.portFree = true ∧ memoryWf base.mem = true := ⟨fun _ h => h, base_portFree, by decide⟩

theorem witness_HostWritePassesThrough :
    base.portFree = true ∧ tower.atRest ∧ tower.path.take = none
      ∧ tower.path.inAnchor 0x4FFFFF = false ∧ tower.path.inAnchor 0x501000 = false
      ∧ tower.path.slotWord 0x4FFFFF = none ∧ tower.path.inTextArea 0x4FFFFF = false
      ∧ tower.path.slotWord 0x21FE = some (0, 510) ∧ 510 % recordSize 0 ≠ recordSize 0 - 1
      ∧ tower.path.slotWord 0x2A06 = some (3, 6) ∧ 6 % recordSize 3 ≠ recordSize 3 - 1 :=
  ⟨base_portFree, tower_atRest, by decide, by decide, by decide, by decide, by decide, by decide, by decide, by decide,
    by decide⟩

/-- The hypotheses of `RepeatIsCounted` at the tower: the closing word of a slot written with the number last taken, 0. -/
def Repeats (k slot : Nat) : Prop :=
  .carRecord (closing k slot) 0 0xF#4 ∈ busWrites (closing k slot) 0 0xF#4
    ∧ base.portFree = true ∧ tower.atRest ∧ tower.shaped = true ∧ tower.path.inAnchor (closing k slot).toNat = false
    ∧ tower.path.slotWord (closing k slot).toNat = some (k, recordSize k * slot + (recordSize k - 1))
    ∧ (tower.path.mergeMirror k (recordSize k * slot + (recordSize k - 1)) 0 0xF#4).slotWords k slot
      = List.replicate (recordSize k) 0
    ∧ sequenceOf ((List.replicate (recordSize k) (0 : Word)).getD (recordSize k - 1) 0) = tower.path.lastTaken k slot

theorem witness_RepeatIsCounted_first : Repeats 0 0 :=
  ⟨by decide, base_portFree, tower_atRest, tower_shaped, by decide, by decide, by decide, by decide⟩

theorem witness_RepeatIsCounted_last : Repeats 3 0 :=
  ⟨by decide, base_portFree, tower_atRest, tower_shaped, by decide, by decide, by decide, by decide⟩

theorem witness_ConsumeCompletes :
    base.portFree = true ∧ tower.atRest
      ∧ tower.path.reportSlot 0x3003 = some 0 ∧ tower.path.reportSlot 0x30FF = some 63
      ∧ (withRpt fun r => r.setSlot 0 .unconsumed).disp.rpt.slots[0]? = some .unconsumed
      ∧ (withRpt fun r => r.setSlot 0 .unconsumed).disp.rpt.producer = 0
      ∧ tower.disp.rpt.slots[63]? ≠ some .unconsumed
      ∧ tower.path.reportSlot 0x3100 = none ∧ tower.path.reportSlot 0x3002 = none :=
  ⟨base_portFree, tower_atRest, by decide, by decide, by decide, by decide, by decide, by decide, by decide⟩

theorem witness_TakeRequestBegins :
    base.portFree = true ∧ tower.atRest ∧ tower.path.take = none ∧ tower.path.state = .running
      ∧ tower.path.takeWord = some 0
      ∧ mergeWord 0 1 0xF#4 = 1 ∧ mergeWord 0 2 0x1#4 = 2 ∧ mergeWord 0 1 0xE#4 = 0 :=
  ⟨base_portFree, tower_atRest, by decide, by decide, by decide, by decide, by decide, by decide⟩

/-- The same from UNCONFIGURED. -/
theorem witness_TakeRequestBegins_unconfigured :
    (stateOf (tower.onPath fun x => { x with state := .unconfigured })).portFree = true
      ∧ (tower.onPath fun x => { x with state := .unconfigured }).atRest
      ∧ (tower.onPath fun x => { x with state := .unconfigured }).path.take = none :=
  ⟨by decide, ⟨by decide, rfl, by decide⟩, by decide⟩

/-- A write of the take word waits to be judged. -/
def asking : Part := tower.onPath fun x => { x with takeWordRead := true, own := [⟨.takeWord, 0⟩, ⟨.report, 0⟩] }

theorem witness_TakeWordReadCompletes :
    asking.path.ownNext = some .takeWord ∧ asking.atRest ∧ asking.path.take = none ∧ asking.path.state = .running
      ∧ readWord (writeWhole [] 0x500002#24 2) (wordAddr asking.path.takeAddress) = 2
      ∧ readWord (writeWhole [] 0x500002#24 1) (wordAddr asking.path.takeAddress) = 1
      ∧ readWord [] (wordAddr asking.path.takeAddress) = 0 :=
  ⟨by decide, ⟨by decide, rfl, by decide⟩, by decide, by decide, by decide, by decide, by decide⟩

theorem witness_ModifiedCompletes :
    0 < Config.anchorWords ∧ 4095 < Config.anchorWords ∧ (stateOf (taking (Take.fresh .full) .takeRead)).portFree = true
      ∧ (taking (Take.fresh .full) .takeRead).path.take = some (Take.fresh .full) ∧ (Take.fresh .full).result = none :=
  ⟨by decide, by decide, by decide, rfl, rfl⟩

/-- A TAKE_PARAMS that has read `n` words. -/
def paramTake (n : Nat) : Take := { Take.fresh .params with copy := paramWords.take n }

/-- The first read, the last read of a copy that passes, and the last read of one that fails. -/
theorem witness_TakeReadFillsCopy :
    (taking (paramTake 0) .takeRead).path.ownNext = some .takeRead ∧ (taking (paramTake 0) .takeRead).atRest
      ∧ (taking (paramTake 0) .takeRead).path.take = some (paramTake 0) ∧ takeOffset .params 0 = some 0
      ∧ (takeOffset .params 1).isSome = true
      ∧ (taking (paramTake 34) .takeRead).atRest ∧ takeOffset .params (paramTake 34).copy.length = some 0x32
      ∧ takeOffset .params ((paramTake 34).copy.length + 1) = none
      ∧ validate 0x500000 .params { paramTake 34 with copy := (paramTake 34).copy ++ [1] }.word = none
      ∧ validate 0x500000 .params { paramTake 34 with copy := (paramTake 34).copy ++ [9] }.word = some (0x0F, 30) :=
  ⟨by decide, ⟨by decide, rfl, by decide⟩, rfl, by decide, by decide, ⟨by decide, rfl, by decide⟩, by decide, by decide,
    by decide, by decide⟩

/-- A TAKE_FULL whose copy gives an OVERRIDE_RECORD window at 2A00H alone, with `n` of its words read. -/
def mirrorTake (n : Nat) : Take :=
  { Take.fresh .full with
    copy := List.replicate 10 0 ++ [0x80002A00#32, 8] ++ List.replicate 4084 0
    mirror := [[], [], [], List.replicate n 0] }

theorem witness_TakeReadFillsMirror :
    (taking (mirrorTake 7) .takeRead).path.ownNext = some .takeRead ∧ (taking (mirrorTake 7) .takeRead).atRest
      ∧ (taking (mirrorTake 7) .takeRead).path.take = some (mirrorTake 7) ∧ (mirrorTake 7).kind = .full
      ∧ (mirrorTake 7).copy.length = Config.anchorWords ∧ (mirrorTake 7).mirror.length = 4
      ∧ (mirrorTake 7).nextMirror = some (3, 0x2A07) ∧ (mirrorTake 0).nextMirror = some (3, 0x2A00)
      ∧ (mirrorTake 8).nextMirror = none :=
  ⟨by decide, ⟨by decide, rfl, by decide⟩, rfl, rfl, by decide, rfl, by decide, by decide, by decide⟩

/-- A take with a result due. -/
def endedTake (kind : TakeKind) (due : Failure) : Take := { Take.fresh kind with result := some due }

/-- A failed TAKE_PARAMS, and a TAKE_FULL that passed while channel 2 is LATCHED. -/
theorem witness_TakeRefusalCompletes :
    (taking (endedTake .params (0x10, 0)) .takeResult).path.waits .takeResult = true
      ∧ (taking (endedTake .params (0x10, 0)) .takeResult).atRest
      ∧ ((taking (endedTake .params (0x10, 0)) .takeResult).takeResult (endedTake .params (0x10, 0)) (0x10, 0)).1 ≠ 0
      ∧ ({ taking (endedTake .full (0, 0)) .takeResult with
          ovr := tower.ovr.set 2 { tower.channel 2 with latch := true } } : Part).channelHeld = some 2
      ∧ (({ taking (endedTake .full (0, 0)) .takeResult with
          ovr := tower.ovr.set 2 { tower.channel 2 with latch := true } } : Part).takeResult
            (endedTake .full (0, 0)) (0, 0)).1 ≠ 0 :=
  ⟨by decide, ⟨by decide, rfl, by decide⟩, by decide, by decide, by decide⟩

theorem witness_ParamsAcceptanceCompletes :
    (taking (endedTake .params (0, 0)) .takeResult).path.waits .takeResult = true
      ∧ (taking (endedTake .params (0, 0)) .takeResult).path.take = some (endedTake .params (0, 0))
      ∧ (endedTake .params (0, 0)).kind = .params ∧ (endedTake .params (0, 0)).result = some (0, 0) :=
  ⟨by decide, rfl, rfl, rfl⟩

theorem witness_FullAcceptanceCompletes :
    (taking (endedTake .full (0, 0)) .takeResult).path.waits .takeResult = true
      ∧ (taking (endedTake .full (0, 0)) .takeResult).path.take = some (endedTake .full (0, 0))
      ∧ (endedTake .full (0, 0)).kind = .full ∧ (endedTake .full (0, 0)).result = some (0, 0)
      ∧ (taking (endedTake .full (0, 0)) .takeResult).channelHeld = none := ⟨by decide, rfl, rfl, rfl, by decide⟩

/-- Channel 3 LATCHED, the others OFF. -/
def latched : Part := { tower with ovr := tower.ovr.set 3 { tower.channel 3 with latch := true } }

theorem witness_LatchClearCompletes :
    3 < Config.channels ∧ (stateOf latched).portFree = true ∧ latched.atRest ∧ latched.shaped = true
      ∧ latched.disp.rpt.requests = 0 ∧ (latched.channel 3).state = .latched
      ∧ 0 < Config.channels ∧ (latched.channel 0).state = .off :=
  ⟨by decide, by decide, ⟨by decide, rfl, by decide⟩, by decide, by decide, by decide, by decide, by decide⟩

theorem witness_ServiceClearsComplete :
    base.portFree = true ∧ tower.atRest ∧ tower.shaped = true ∧ tower.disp.rpt.requests = 0 :=
  ⟨base_portFree, tower_atRest, tower_shaped, by decide⟩

/-- Node 0 is reachable, node 191 is not. -/
def lit : Part := { tower with disp := setReachable tower.disp 0 true }

theorem witness_RepaintCompletes :
    (stateOf lit).portFree = true ∧ lit.atRest ∧ lit.shaped = true ∧ lit.disp.rpt.requests = 0
      ∧ (lit.node 0).map (·.regions) = some [.prompt, .line]
      ∧ lit.disp.cmp.region 0 .prompt = some (RegionRecord.fresh .prompt) ∧ lit.disp.cmp.reachable 0 = true
      ∧ (lit.node 191).map (·.regions) = some [.prompt, .line]
      ∧ lit.disp.cmp.region 191 .line = some (RegionRecord.fresh .line) ∧ lit.disp.cmp.reachable 191 = false :=
  ⟨by decide, ⟨by decide, rfl, by decide⟩, by decide, by decide, by decide, by decide, by decide, by decide, by decide,
    by decide⟩

/-- A written record is taken by the write of its closing word. -/
theorem takes {p : Part} {k slot : Nat} {ws : List Word} (free : (written p k slot ws).portFree = true)
    (outside : (written p k slot ws).part.path.inAnchor (closing k slot).toNat = false)
    (at_ : (written p k slot ws).part.path.slotWord (closing k slot).toNat
      = some (k, recordSize k * slot + (recordSize k - 1)))
    (words : ((written p k slot ws).part.path.mergeMirror k (recordSize k * slot + (recordSize k - 1)) 1 0xF#4).slotWords k
      slot = record k ws)
    (fresh : sequenceOf ((record k ws).getD (recordSize k - 1) 0) ≠ (written p k slot ws).part.path.lastTaken k slot) :
    (written p k slot ws).Takes (closing k slot) 1 0xF#4 k slot (record k ws) :=
  ⟨free, outside, at_, words, fresh⟩

theorem tower_written_atRest (k slot : Nat) (ws : List Word) : (written tower k slot ws).part.atRest :=
  ⟨rfl, rfl, rfl⟩

theorem tower_written_shaped (k slot : Nat) (ws : List Word) : (written tower k slot ws).part.shaped = true := tower_shaped

/-- A car record of a slot that is not configured. -/
theorem witness_RefusedRecordIsReported_car :
    (written tower 0 1 []).Takes (closing 0 1) 1 0xF#4 0 1 (record 0 []) ∧ (written tower 0 1 []).part.atRest
      ∧ (written tower 0 1 []).part.shaped = true ∧ (written tower 0 1 []).part.carConfig 1 = none :=
  ⟨takes (by decide) (by decide) (by decide) (by decide) (by decide), tower_written_atRest .., tower_written_shaped ..,
    by decide⟩

/-- Message records with request codes 0 and 5, and a DEFINE with region kind 2. -/
theorem witness_RefusedRecordIsReported_message :
    (written tower 1 127 [0]).Takes (closing 1 127) 1 0xF#4 1 127 (record 1 [0]) ∧ messageRequest (record 1 [0]) = 0
      ∧ (written tower 1 0 [5]).Takes (closing 1 0) 1 0xF#4 1 0 (record 1 [5]) ∧ messageRequest (record 1 [5]) = 5
      ∧ (written tower 1 0 [0x402001]).Takes (closing 1 0) 1 0xF#4 1 0 (record 1 [0x402001])
      ∧ (written tower 1 0 [0x402001]).part.badMessage (record 1 [0x402001]) = true :=
  ⟨takes (by decide) (by decide) (by decide) (by decide) (by decide), by decide,
    takes (by decide) (by decide) (by decide) (by decide) (by decide), by decide,
    takes (by decide) (by decide) (by decide) (by decide) (by decide), by decide⟩

/-- Assignment records of kinds 0 and 4. -/
theorem witness_RefusedRecordIsReported_assign :
    (written tower 2 63 [0]).Takes (closing 2 63) 1 0xF#4 2 63 (record 2 [0]) ∧ assignKind (record 2 [0]) = 0
      ∧ (written tower 2 0 [4]).Takes (closing 2 0) 1 0xF#4 2 0 (record 2 [4]) ∧ assignKind (record 2 [4]) = 4 :=
  ⟨takes (by decide) (by decide) (by decide) (by decide) (by decide), by decide,
    takes (by decide) (by decide) (by decide) (by decide) (by decide), by decide⟩

/-- An override record with code 3 for channel 3. -/
theorem witness_RefusedRecordIsReported_override :
    (written tower 3 0 [0x03000000#32]).Takes (closing 3 0) 1 0xF#4 3 0 (record 3 [0x03000000#32])
      ∧ 3 < Config.channels ∧ 2 < overrideCode (record 3 [0x03000000#32]) 3 :=
  ⟨takes (by decide) (by decide) (by decide) (by decide) (by decide), by decide, by decide⟩

theorem witness_CarRecordCompletes :
    (written tower 0 31 [2000]).Takes (closing 0 31) 1 0xF#4 0 31 (record 0 [2000])
      ∧ (written tower 0 31 [2000]).part.shaped = true ∧ 31 < Config.maxCars
      ∧ (written tower 0 31 [2000]).part.carConfig 31 = some singleDeck :=
  ⟨takes (by decide) (by decide) (by decide) (by decide) (by decide), tower_written_shaped .., by decide, by decide⟩

theorem witness_CarRecordEvaluatesDecks :
    (written tower 0 0 [3900]).Takes (closing 0 0) 1 0xF#4 0 0 (record 0 [3900])
      ∧ (written tower 0 0 [3900]).part.shaped = true ∧ 0 < Config.maxCars
      ∧ (written tower 0 0 [3900]).part.carConfig 0 = some doubleDeck ∧ 1 < doubleDeck.decks ∧ doubleDeck.decks ≤ 2 :=
  ⟨takes (by decide) (by decide) (by decide) (by decide) (by decide), tower_written_shaped .., by decide, by decide, by decide,
    by decide⟩

/-- A NEW record of number 9 from the terminal at floor 0 to floor 1 by car 0. -/
def newWords : List Word := [0x00090001#32, 0x00010000#32, 0]

theorem witness_AssignNewCompletes :
    (written tower 2 63 newWords).Takes (closing 2 63) 1 0xF#4 2 63 (record 2 newWords)
      ∧ (written tower 2 63 newWords).part.atRest ∧ (written tower 2 63 newWords).part.queueLaw
      ∧ assignKind (record 2 newWords) = 1
      ∧ ((written tower 2 63 newWords).part.terminalNode 0).map (·.floor) = some 0
      ∧ ((written tower 2 63 newWords).part.terminalNode 0).map (written tower 2 63 newWords).part.governing = some none
      ∧ (written tower 2 63 newWords).part.checkCar 0 0 0 1 = none
      ∧ (written tower 2 63 newWords).part.assignment 9 = none
      ∧ (written tower 2 63 newWords).part.prm.table.length < Config.maxAssignments
      ∧ (written tower 2 63 newWords).part.queueOf 0 = [] :=
  ⟨takes (by decide) (by decide) (by decide) (by decide) (by decide), tower_written_atRest .., tower_queueLaw, by decide,
    by decide, by decide, by decide, by decide, by decide, by decide⟩

/-- The same with two assignments ahead in the queue: at the end, and when it is step-free before the one that waits. -/
theorem witness_AssignNewCompletes_behind :
    (written booked 2 0 newWords).Takes (closing 2 0) 1 0xF#4 2 0 (record 2 newWords)
      ∧ (written booked 2 0 newWords).part.atRest ∧ (written booked 2 0 newWords).part.queueLaw
      ∧ (written booked 2 0 newWords).part.assignment 9 = none
      ∧ booked.queueOf 0 = 7 :: [8] ∧ [8].length + 1 < Config.queueLimit
      ∧ (after (close .assignNew 2 0) (written booked 2 0 newWords)).part.queueOf 0 = [7, 8, 9]
      ∧ (after (close .assignNew 2 0) (written booked 2 0 (0x00090101#32 :: newWords.drop 1))).part.queueOf 0 = [7, 9, 8] :=
  ⟨takes (by decide) (by decide) (by decide) (by decide) (by decide), ⟨by decide, rfl, by decide⟩, booked_queueLaw, by decide,
    by decide, by decide, by decide, by decide⟩

/-- What every clause of `AssignRefusalCompletes` asks of a state with a written record. -/
def Assigning (p : Part) (ws : List Word) (kind : Nat) : Prop :=
  .assignNew (closing 2 0) 1 0xF#4 ∈ busWrites (closing 2 0) 1 0xF#4
    ∧ (written p 2 0 ws).Takes (closing 2 0) 1 0xF#4 2 0 (record 2 ws) ∧ (written p 2 0 ws).part.atRest
    ∧ (written p 2 0 ws).part.shaped = true ∧ assignKind (record 2 ws) = kind

/-- A NEW at node 1, which is no TERMINAL. -/
theorem witness_AssignRefusalCompletes_terminal :
    Assigning tower [0x00090001#32, 1] 1 ∧ (written tower 2 0 [0x00090001#32, 1]).part.terminalNode 1 = none :=
  ⟨⟨by decide, takes (by decide) (by decide) (by decide) (by decide) (by decide), ⟨by decide, rfl, by decide⟩, by decide,
    by decide⟩, by decide⟩

/-- A NEW to floor 2, which deck 0 does not serve. -/
theorem witness_AssignRefusalCompletes_served :
    Assigning tower [0x00090001#32, 0x00020000#32] 1
      ∧ (tower.terminalNode 0).map (fun n => (n.floor, tower.governing n)) = some (0, none)
      ∧ (written tower 2 0 [0x00090001#32, 0x00020000#32]).part.checkCar 0 0 0 2 = some .notServed :=
  ⟨⟨by decide, takes (by decide) (by decide) (by decide) (by decide) (by decide), ⟨by decide, rfl, by decide⟩, by decide,
    by decide⟩, by decide, by decide⟩

/-- A NEW under number 7, which is live. -/
theorem witness_AssignRefusalCompletes_duplicate :
    Assigning booked [0x00070001#32, 0x00010000#32] 1
      ∧ (booked.terminalNode 0).map (fun n => (n.floor, booked.governing n)) = some (0, none)
      ∧ (written booked 2 0 [0x00070001#32, 0x00010000#32]).part.checkCar 0 0 0 1 = none
      ∧ ((written booked 2 0 [0x00070001#32, 0x00010000#32]).part.assignment 7).isSome = true :=
  ⟨⟨by decide, takes (by decide) (by decide) (by decide) (by decide) (by decide), ⟨by decide, rfl, by decide⟩, by decide,
    by decide⟩, by decide, by decide, by decide⟩

/-- A REASSIGN of number 7 to deck 1 of car 0, which does not serve floor 0. -/
theorem witness_AssignRefusalCompletes_reassign :
    Assigning booked [0x00070003#32, 0, 0x100#32] 3
      ∧ (written booked 2 0 [0x00070003#32, 0, 0x100#32]).part.assignment 7
        = some (booking 7 0 .showing (some 10005) (some .none))
      ∧ (written booked 2 0 [0x00070003#32, 0, 0x100#32]).part.checkCar 0 1 0 1 = some .notServed :=
  ⟨⟨by decide, takes (by decide) (by decide) (by decide) (by decide) (by decide), ⟨by decide, rfl, by decide⟩, by decide,
    by decide⟩, by decide, by decide⟩

/-- A CANCEL of number 7, which is live, and of number 65535, which is not. -/
theorem witness_AssignCancelCompletes :
    (written booked 2 0 [0x00070002#32]).Takes (closing 2 0) 1 0xF#4 2 0 (record 2 [0x00070002#32])
      ∧ (written booked 2 0 [0x00070002#32]).part.atRest ∧ (written booked 2 0 [0x00070002#32]).part.shaped = true
      ∧ assignKind (record 2 [0x00070002#32]) = 2
      ∧ ((written booked 2 0 [0x00070002#32]).part.assignment 7).isSome = true
      ∧ (written booked 2 0 [0xFFFF0002#32]).Takes (closing 2 0) 1 0xF#4 2 0 (record 2 [0xFFFF0002#32])
      ∧ (written booked 2 0 [0xFFFF0002#32]).part.assignment 65535 = none :=
  ⟨takes (by decide) (by decide) (by decide) (by decide) (by decide), ⟨by decide, rfl, by decide⟩, by decide, by decide,
    by decide, takes (by decide) (by decide) (by decide) (by decide) (by decide), by decide⟩

/-- A REASSIGN of number 8 to car 31, and to the car it has. -/
theorem witness_AssignReassignCompletes :
    (written booked 2 0 [0x00080003#32, 0, 31]).Takes (closing 2 0) 1 0xF#4 2 0 (record 2 [0x00080003#32, 0, 31])
      ∧ (written booked 2 0 [0x00080003#32, 0, 31]).part.atRest ∧ assignKind (record 2 [0x00080003#32, 0, 31]) = 3
      ∧ (written booked 2 0 [0x00080003#32, 0, 31]).part.assignment 8 = some (booking 8 1 .queued none (some .none))
      ∧ (written booked 2 0 [0x00080003#32, 0, 31]).part.checkCar 31 0 0 1 = none
      ∧ (written booked 2 0 [0x00080003#32, 0, 0]).Takes (closing 2 0) 1 0xF#4 2 0 (record 2 [0x00080003#32, 0, 0])
      ∧ (written booked 2 0 [0x00080003#32, 0, 0]).part.checkCar 0 0 0 1 = none :=
  ⟨takes (by decide) (by decide) (by decide) (by decide) (by decide), ⟨by decide, rfl, by decide⟩, by decide, by decide,
    by decide, takes (by decide) (by decide) (by decide) (by decide) (by decide), by decide⟩

/-- A REASSIGN of number 65535, which is not live. -/
theorem witness_AssignReassignCompletes_unknown :
    (written booked 2 0 [0xFFFF0003#32]).Takes (closing 2 0) 1 0xF#4 2 0 (record 2 [0xFFFF0003#32])
      ∧ (written booked 2 0 [0xFFFF0003#32]).part.atRest ∧ (written booked 2 0 [0xFFFF0003#32]).part.shaped = true
      ∧ assignKind (record 2 [0xFFFF0003#32]) = 3
      ∧ (written booked 2 0 [0xFFFF0003#32]).part.assignment 65535 = none :=
  ⟨takes (by decide) (by decide) (by decide) (by decide) (by decide), ⟨by decide, rfl, by decide⟩, by decide, by decide,
    by decide⟩

/-- DEFINE of message 127 and ACTIVATE of message 0. -/
theorem witness_MessageStoreCompletes :
    (written tower 1 127 [0x00400301#32, 0, 0x80000000#32]).Takes (closing 1 127) 1 0xF#4 1 127
        (record 1 [0x00400301#32, 0, 0x80000000#32])
      ∧ (written tower 1 127 [0x00400301#32, 0, 0x80000000#32]).part.shaped = true ∧ 127 < Config.maxMessages
      ∧ (written tower 1 127 [0x00400301#32, 0, 0x80000000#32]).part.badMessage
        (record 1 [0x00400301#32, 0, 0x80000000#32]) = false
      ∧ messageRequest (record 1 [0x00400301#32, 0, 0x80000000#32]) = 1
      ∧ (written tower 1 0 [0x00400302#32, 0x20000#32, 0x80000000#32]).Takes (closing 1 0) 1 0xF#4 1 0
        (record 1 [0x00400302#32, 0x20000#32, 0x80000000#32])
      ∧ (written tower 1 0 [0x00400302#32, 0x20000#32, 0x80000000#32]).part.badMessage
        (record 1 [0x00400302#32, 0x20000#32, 0x80000000#32]) = false
      ∧ messageRequest (record 1 [0x00400302#32, 0x20000#32, 0x80000000#32]) = 2 :=
  ⟨takes (by decide) (by decide) (by decide) (by decide) (by decide), tower_written_shaped .., by decide, by decide, by decide,
    takes (by decide) (by decide) (by decide) (by decide) (by decide), by decide, by decide⟩

/-- A CANCEL of message 127, which is ACTIVE. -/
theorem witness_MessageEndsComplete_cancel :
    (written messaged 1 127 [3]).Takes (closing 1 127) 1 0xF#4 1 127 (record 1 [3]) ∧ (written messaged 1 127 [3]).part.atRest
      ∧ messageRequest (record 1 [3]) = 3 ∧ ((written messaged 1 127 [3]).part.message 127).state = .active :=
  ⟨takes (by decide) (by decide) (by decide) (by decide) (by decide), ⟨by decide, rfl, by decide⟩, by decide, by decide⟩

/-- A CLEAR of message 127, which is ACTIVE, and of message 0, which is EMPTY. -/
theorem witness_MessageEndsComplete_clear :
    (written messaged 1 127 [4]).Takes (closing 1 127) 1 0xF#4 1 127 (record 1 [4])
      ∧ (written messaged 1 127 [4]).part.atRest ∧ (written messaged 1 127 [4]).part.shaped = true
      ∧ 127 < Config.maxMessages ∧ messageRequest (record 1 [4]) = 4
      ∧ ((written messaged 1 127 [4]).part.message 127).state ≠ .empty
      ∧ (written messaged 1 0 [4]).Takes (closing 1 0) 1 0xF#4 1 0 (record 1 [4])
      ∧ ((written messaged 1 0 [4]).part.message 0).state = .empty :=
  ⟨takes (by decide) (by decide) (by decide) (by decide) (by decide), ⟨by decide, rfl, by decide⟩, by decide, by decide,
    by decide, by decide, takes (by decide) (by decide) (by decide) (by decide) (by decide), by decide⟩

/-- A record with codes 1 and 2 for channels 0 and 3. -/
theorem witness_OverrideRecordCompletes :
    (written tower 3 0 [0x02000001#32]).Takes (closing 3 0) 1 0xF#4 3 0 (record 3 [0x02000001#32])
      ∧ (written tower 3 0 [0x02000001#32]).part.atRest ∧ (written tower 3 0 [0x02000001#32]).part.shaped = true
      ∧ (∀ n < Config.channels, overrideCode (record 3 [0x02000001#32]) n ≤ 2)
      ∧ overrideCode (record 3 [0x02000001#32]) 0 = 1 ∧ overrideCode (record 3 [0x02000001#32]) 3 = 2 :=
  ⟨takes (by decide) (by decide) (by decide) (by decide) (by decide), tower_written_atRest .., tower_written_shaped ..,
    by decide, by decide, by decide⟩

theorem fetching_atRest (left : Nat) (discard : Bool) : (fetching left discard).atRest := ⟨rfl, rfl, rfl⟩

/-- Writes outside every range, into the head job's range, and into the READY range of message 9. -/
theorem witness_TextAreaWriteCompletes :
    (stateOf (fetching 1 false)).portFree = true ∧ (fetching 1 false).atRest ∧ (fetching 1 false).path.take = none
      ∧ (fetching 1 false).path.inAnchor 0x403F = false ∧ (fetching 1 false).path.slotWord 0x403F = none
      ∧ (fetching 1 false).path.inTextArea 0x403F = true ∧ (fetching 1 false).path.inTextArea 0x4000 = true
      ∧ (∀ o ∈ textOwners, (fetching 1 false).txf.headCovers o 0x403F = false
          ∧ (fetching 1 false).txf.readyCovers o 0x403F = false)
      ∧ (∃ j, (fetching 1 false).txf.jobs = [j] ∧ j.owner ∈ textOwners ∧ j.covers 0x4000 = true ∧ j.covers 0x4001 = true)
      ∧ TextOwner.message 9 ∈ textOwners ∧ (fetching 1 false).txf.readyCovers (.message 9) 0x4010 = true
      ∧ (∀ o', (fetching 1 false).txf.headCovers o' 0x4010 = false)
      ∧ (fetching 1 false).ownerRef (.message 9) = some ⟨0, 0, 5⟩ :=
  ⟨by decide, fetching_atRest 1 false, by decide, by decide, by decide, by decide, by decide, by decide,
    ⟨_, rfl, by decide, by decide, by decide⟩, by decide, by decide, fun o' => by simp [fetching, Txf.headCovers, Job.covers],
    by decide⟩

/-- The hypotheses of `TextReadCompletes` with `left` bytes to come. -/
def TextReading (left : Nat) (discard : Bool) : Prop :=
  (fetchingNow left discard).path.ownNext = some .text ∧ (fetchingNow left discard).atRest
    ∧ (fetchingNow left discard).shaped = true
    ∧ (∃ j, (fetchingNow left discard).txf.jobs = [j] ∧ j.owner ∈ textOwners ∧ j.phase = .text ∧ j.left = left)
    ∧ (fetchingNow left discard).txf.read = some ⟨0x4001, discard⟩

theorem witness_TextReadCompletes_more : TextReading 5 false :=
  ⟨by decide, ⟨by decide, rfl, by decide⟩, by decide, ⟨_, rfl, by decide, rfl, rfl⟩, rfl⟩

theorem witness_TextReadCompletes_last : TextReading 4 false :=
  ⟨by decide, ⟨by decide, rfl, by decide⟩, by decide, ⟨_, rfl, by decide, rfl, rfl⟩, rfl⟩

theorem witness_TextReadCompletes_discard : TextReading 1 true :=
  ⟨by decide, ⟨by decide, rfl, by decide⟩, by decide, ⟨_, rfl, by decide, rfl, rfl⟩, rfl⟩

/-- An entry about to begin. -/
def entering : Part := withRpt fun r => { r with writer := .entry 0 none, waiting := [sample, sample] }

/-- An entry after `done` of its writes. -/
def entered (done : Nat) : Part :=
  withRpt fun r => { r.setSlot 0 .writing with writer := .entry done (some sample), waiting := [sample] }

theorem witness_ReportEntryWriteCompletes_first :
    entering.path.ownNext = some .report ∧ entering.atRest ∧ entering.disp.rpt.ringLaw
      ∧ entering.disp.rpt.writer = .entry 0 none ∧ entering.disp.rpt.area = some 0x3000
      ∧ entering.disp.rpt.waiting = [sample, sample] :=
  ⟨by decide, ⟨by decide, rfl, by decide⟩,
    ⟨by decide, by decide, by decide, by decide,
      show entering.disp.rpt.slots[entering.disp.rpt.producer]? = some .free ∧ entering.disp.rpt.waiting ≠ [] by decide⟩,
    rfl, rfl, rfl⟩

/-- The hypotheses of `ReportEntryWriteCompletes` after `done` writes. -/
def Entered (done : Nat) : Prop :=
  (entered done).path.ownNext = some .report ∧ (entered done).atRest ∧ (entered done).disp.rpt.ringLaw
    ∧ (entered done).disp.rpt.writer = .entry done (some sample) ∧ (entered done).disp.rpt.area = some 0x3000

theorem witness_ReportEntryWriteCompletes_second : Entered 1 :=
  ⟨by decide, ⟨by decide, rfl, by decide⟩, ⟨by decide, by decide, by decide, by decide,
    show (entered 1).disp.rpt.slots[(entered 1).disp.rpt.producer]? = some .writing by decide⟩, rfl, rfl⟩

theorem witness_ReportEntryWriteCompletes_third : Entered 2 :=
  ⟨by decide, ⟨by decide, rfl, by decide⟩, ⟨by decide, by decide, by decide, by decide,
    show (entered 2).disp.rpt.slots[(entered 2).disp.rpt.producer]? = some .writing by decide⟩, rfl, rfl⟩

theorem witness_ReportEntryWriteCompletes_close : Entered 3 :=
  ⟨by decide, ⟨by decide, rfl, by decide⟩, ⟨by decide, by decide, by decide, by decide,
    show (entered 3).disp.rpt.slots[(entered 3).disp.rpt.producer]? = some .writing by decide⟩, rfl, rfl⟩

/-- The first and the last word of the counters record, and a write-back. -/
theorem witness_RecordWritesComplete :
    tower.path.ownNext = some .report ∧ tower.atRest ∧ tower.disp.rpt.writer = .record 234 0 (List.replicate 10 1)
      ∧ tower.disp.rpt.area = some 0x3000 ∧ 0 + 1 < (List.replicate 10 (1 : Word)).length
      ∧ (withRpt fun r => { r with writer := .record 234 9 (List.replicate 10 1) }).atRest
      ∧ (List.replicate 10 (1 : Word)).length ≤ 9 + 1
      ∧ (withRpt fun r => { r with writer := .serviceBack }).path.ownNext = some .report
      ∧ (withRpt fun r => { r with writer := .serviceBack }).atRest :=
  ⟨by decide, tower_atRest, rfl, rfl, by decide, ⟨by decide, rfl, by decide⟩, by decide, by decide, ⟨by decide, rfl, by decide⟩⟩

/-- RPT between write sequences after one of a kind, the counters record written last, with reports waiting and the record of an
index pending or none. -/
def choosing (last : LastWrite) (waiting : List Report) (pending : Option Nat) : Rpt :=
  { Rpt.reset with
    area := some 0x3000
    lastWrite := last
    lastRecord := some 234
    waiting := waiting
    records := (List.range 235).map fun i => ⟨[], 7, pending = some i⟩ }

theorem choosing_records (last : LastWrite) (waiting : List Report) (pending : Option Nat) (i : Nat) (x : StatusRecord)
    (h : (choosing last waiting pending).records[i]? = some x) : x.pending = decide (pending = some i) := by
  obtain ⟨_, rfl⟩ := List.getElem?_eq_some_iff.mp h
  simp [choosing]

/-- No record pending, the first and the last of the table pending, and reports that can and cannot be written. -/
theorem witness_RecordWritesComplete_choice :
    (choosing .entry [sample] none).noRecordPending ∧ (choosing .entry [sample] none).reportReady
      ∧ ¬ (choosing .entry [] none).reportReady
      ∧ (choosing .record [sample] (some 0)).nextPending 234 0 ⟨[], 7, true⟩
      ∧ (choosing .entry [] (some 234)).nextPending 234 234 ⟨[], 7, true⟩
      ∧ ((choosing .entry [sample] (some 0)).choose).writer = .record 0 0 [8, 8]
      ∧ ((choosing .record [sample] (some 0)).choose).writer = .entry 0 none := by
  refine ⟨fun i _ x hx => ?_, by unfold Rpt.reportReady; decide, by unfold Rpt.reportReady; decide,
    ⟨0, by decide, by decide, by decide, rfl, fun k hk => absurd hk (Nat.not_lt_zero k)⟩,
    ⟨234, by decide, by decide, by decide, rfl, fun k hk y hy => ?_⟩, by decide, by decide⟩
  · rw [choosing_records _ _ _ _ _ hx]; rfl
  · have h235 : Config.statusRecords = 235 := rfl
    have hk' : (234 + 1 + k) % Config.statusRecords ≠ 234 := by rw [h235]; omega
    rw [choosing_records _ _ _ _ _ hy]
    simpa using fun h => hk' h.symm

/-- A car whose last record is `stale_ms` old. -/
def silent (c : Nat) : Part := withCar c { tower.car c with timer := some 9005 }

theorem witness_CarStaleCompletes :
    31 < Config.maxCars ∧ (silent 31).atRest ∧ (silent 31).shaped = true ∧ (silent 31).staleDue 31 = true
      ∧ (silent 31).decksOf 31 = [0] ∧ (silent 0).shaped = true ∧ (silent 0).staleDue 0 = true
      ∧ (silent 0).decksOf 0 = [0, 1] :=
  ⟨by decide, ⟨by decide, rfl, by decide⟩, by decide, by decide, by decide, by decide, by decide, by decide⟩

/-- A single assignment showing at the terminal of node 191. -/
def lastBooked : Part :=
  { tower with prm := { tower.prm with
      table := [{ booking 7 0 .showing (some 10005) none with terminal := 191, boarding := 1 }]
      queues := [⟨0, []⟩, ⟨191, [7]⟩] } }

theorem witness_ShowDeadlineCompletes :
    0 < Config.maxNodes ∧ booked.atRest ∧ booked.queueLaw ∧ booked.showDeadlineDue 0 = true ∧ booked.queueOf 0 = [7, 8]
      ∧ booked.assignment 8 = some (booking 8 1 .queued none (some .none))
      ∧ 191 < Config.maxNodes ∧ lastBooked.atRest ∧ lastBooked.queueLaw ∧ lastBooked.showDeadlineDue 191 = true
      ∧ lastBooked.queueOf 191 = [7] :=
  ⟨by decide, ⟨by decide, rfl, by decide⟩, booked_queueLaw, by decide, by decide, by decide, by decide,
    ⟨by decide, rfl, by decide⟩, by unfold Part.queueLaw Part.queueOrdered; decide, by decide, by decide⟩

theorem witness_LifetimeCompletes :
    ({ booked with now := 189000 } : Part).atRest ∧ ({ booked with now := 189000 } : Part).shaped = true
      ∧ ({ booked with now := 189000 } : Part).prm.table.countP ({ booked with now := 189000 } : Part).pastLife = 2 :=
  ⟨⟨by decide, rfl, by decide⟩, by decide, by decide⟩

theorem witness_MessageExpiryCompletes :
    127 < Config.maxMessages ∧ messaged.atRest ∧ messaged.expiryDue 127 = true :=
  ⟨by decide, ⟨by decide, rfl, by decide⟩, by decide⟩

theorem witness_DwellDeadlineCompletes :
    0 < Config.maxNodes ∧ dwelling.atRest ∧ (dwelling.node 0).isSome = true
      ∧ dwelling.disp.cmp.region 0 .line
        = some ⟨.line, Content.ofCodes [0x41#8], 1, .normal, some 3, some 4, some 10005⟩
      ∧ isMessageRegion .line = true ∧ dwelling.reached 10005 = true
      ∧ (dwelling.node 0).map (fun n => nextAfter (rotationList dwelling n .line) 3) = some (some 127)
      ∧ (dwelling.node 0).map (fun n => nextAfter (rotationList dwelling n .line) 127) = some (some 3)
      ∧ (dwelling.node 0).map (fun n => topLevel dwelling (rotationList dwelling n .line)) = some 4 :=
  ⟨by decide, ⟨by decide, rfl, by decide⟩, by decide, by decide, by decide, by decide, by decide, by decide, by decide⟩

/-- Channel 0 after a sampling under 4oo8 that leaves four samples of each kind. -/
theorem witness_LineEventsComplete_four :
    ({ tower with ovr := tower.ovr.set 0 { tower.channel 0 with
        test := some .fourOfEight, samples := [true, true, true, true, false, false, false, false] } } : Part).atRest
      ∧ (newest 8 [true, true, true, true, false, false, false, false]).countP (· = true) = 4
      ∧ (newest 8 [true, true, true, true, false, false, false, false]).countP (· = false) = 4 :=
  ⟨⟨by decide, rfl, by decide⟩, by decide, by decide⟩

/-- A sampling that is due, one that is not, and the acceptance tests of channels 0 and 3 in two modes. -/
theorem witness_LineEventsComplete :
    ({ tower with now := 10010 } : Part).atRest ∧ ({ tower with now := 10010 } : Part).shaped = true
      ∧ (10010#32).toNat % 10 = 0 ∧ (10010#32 : Time) ≠ tower.sampledAt ∧ tower.now.toNat % 10 ≠ 0
      ∧ sampled.atRest ∧ sampled.shaped = true ∧ (sampled.channel 1).test = some .twoOfThree
      ∧ ({ tower with ovr := tower.ovr.set 3 { tower.channel 3 with test := some .sevenOfEight } } : Part).atRest
      ∧ (({ tower with ovr := tower.ovr.set 3 { tower.channel 3 with test := some .sevenOfEight } } : Part).channel 3).test
        = some .sevenOfEight :=
  ⟨⟨by decide, rfl, by decide⟩, by decide, by decide, by decide, by decide, ⟨by decide, rfl, by decide⟩, by decide, by decide,
    ⟨by decide, rfl, by decide⟩, by decide⟩

/-- Ring 0 with a PAINT queued for position 1 and `tag` the next free one, in a state with a TRACE due or not. -/
def queued (st : RingState) (due : Bool) (lastTag : Nat) : Part :=
  withRing fun r =>
    { r with nodes := [{ joined 0 with queue := [paintEntry] }, joined 1], state := st, traceDue := due, lastTag := lastTag }

/-- A frame served under tags 0 and 255, on one port and on two; a TRACE; an ALERT past the full window; a join POLL. -/
theorem witness_SendFrameCompletes :
    (queued .closed false 255).atRest ∧ (queued .closed false 255).shaped = true
      ∧ ((queued .closed false 255).disp.ring 0).choose = some (.served 1 paintEntry)
      ∧ ((queued .closed false 255).disp.ring 0).nextTag = some 0
      ∧ ((queued .closed false 254).disp.ring 0).nextTag = some 255
      ∧ ((queued .broken false 255).disp.ring 0).choose = some (.served 1 paintEntry)
      ∧ ((queued .untested true 255).disp.ring 0).choose = some .trace
      ∧ (windowFull.disp.ring 0).choose = some (.alert 1 ⟨.alert, some .line, 2, Content.blank, 0⟩)
      ∧ ((withRing fun r => { r with nodes := [LinkNode.fresh 0 0, joined 1] }).disp.ring 0).choose = some (.join 1) :=
  ⟨⟨by decide, rfl, by decide⟩, by decide, by decide, by decide, by decide, by decide, by decide, by decide, by decide⟩

/-- The frame of `outstandingSince` comes back with a status. -/
def answered (status : Byte) : List Byte := withTrailer (frameBytes 1 0 paintEntry) status 3 0

/-- The last tag, payloads of a POLL and of the paint frame, and a length byte beyond 100 in a frame long enough for it. -/
theorem witness_FrameReturnCompletes_checks :
    255 < Config.tags ∧ (payload pollEntry).length ≤ 100 ∧ (payload paintEntry).length ≤ 100
      ∧ readFrame (withTrailer (frameBytes 1 255 pollEntry) 9 0x83 7) = some ⟨255, 9, true, true, true, 7⟩
      ∧ readFrame (List.replicate 113 101) = none :=
  ⟨by decide, by decide, by decide, by decide, by decide⟩

/-- A frame that fails its checks, a late one, and one of each answer. -/
theorem witness_FrameReturnCompletes :
    0 < Config.rings ∧ (outstandingSince .active 0 10000).atRest ∧ (outstandingSince .active 0 10000).shaped = true
      ∧ readFrame [1, 2, 3] = none
      ∧ ((tower.disp.ring 0).nodes ≠ [] ∧ (tower.disp.ring 0).tag 0 = none)
      ∧ readFrame (answered 1) = some ⟨0, 1, true, true, false, 0⟩
      ∧ (readFrame (answered 2)).map (·.answer) = some .busy ∧ (readFrame (answered 3)).map (·.answer) = some .rejected
      ∧ ((outstandingSince .active 0 10000).disp.ring 0).tag 0 = some (.outstanding (sentRecord paintEntry 10000))
      ∧ (sentRecord paintEntry 10000).entry.kind ≠ .trace ∧ (sentRecord paintEntry 10000).onB = false
      ∧ (((outstandingSince .active 0 10000).disp.ring 0).node 1).map (·.state.joined) = some true :=
  ⟨by decide, ⟨by decide, rfl, by decide⟩, by decide, by decide, ⟨by decide, by decide⟩, by decide, by decide, by decide,
    by decide, by decide, by decide, by decide⟩

/-- Timeouts of a node that has not joined, of one at its last retry, and of one beyond it. -/
theorem witness_ReturnTimeoutCompletes :
    0 < Config.rings ∧ 0 < Config.tags
      ∧ (outstandingSince .lost 0 9995).atRest ∧ (outstandingSince .lost 0 9995).shaped = true
      ∧ (outstandingSince .lost 0 9995).returnDue 0 0 = true
      ∧ ((outstandingSince .lost 0 9995).disp.ring 0).tag 0 = some (.outstanding (sentRecord paintEntry 9995))
      ∧ (((outstandingSince .lost 0 9995).disp.ring 0).node 1).map (·.state.joined) = some false
      ∧ (outstandingSince .active 2 9995).atRest ∧ (outstandingSince .active 2 9995).returnDue 0 0 = true
      ∧ (((outstandingSince .active 2 9995).disp.ring 0).node 1).map (·.state.joined) = some true
      ∧ tower.params.retries.getD 0 0 = 3 :=
  ⟨by decide, by decide, ⟨by decide, rfl, by decide⟩, by decide, by decide, by decide, by decide, ⟨by decide, rfl, by decide⟩,
    by decide, by decide, by decide⟩

/-- A tower in which each of the simple timers is due. -/
def timed : Part :=
  let p := withRing fun r =>
    { r with
      nodes := [{ joined 0 with flights := [⟨paintEntry, some 10005⟩], lastSent := 7005 },
        { joined 1 with state := .lost, joinFrom := 5005 }]
      tags := [(255, .trailing 9995 10)], traceSent := some 9005 }
  p.setCar 0 longStale

theorem witness_SimpleTimersComplete :
    timed.atRest ∧ timed.historyDue 0 = true ∧ timed.trailingDue 0 255 = true
      ∧ timed.ringCheckDue (timed.disp.ring 0) = true
      ∧ ((timed.disp.ring 0).node 1).map (fun n => timed.backoffDue n (some .prompt))
        = some (some ⟨paintEntry, some 10005⟩)
      ∧ ((timed.disp.ring 0).node 1).map timed.pollDue = some true
      ∧ ((timed.disp.ring 0).node 2).map timed.joinTimerDue = some true ∧ 2 ≤ Config.maxPosition :=
  ⟨⟨by decide, rfl, by decide⟩, by decide, by decide, by decide, by decide, by decide, by decide, by decide⟩

/-- The hypotheses of `TraceEndCompletes` on ring 0 with a TRACE sent on both ports that returned as `copies`. -/
def TraceReturned (st : RingState) (copies : List Copy) (result : TraceResult) : Prop :=
  0 < Config.rings ∧ (traced st true copies).atRest ∧ (traced st true copies).shaped = true
    ∧ ((traced st true copies).disp.ring 0).outstandingTrace = some (4, ⟨0, traceEntry, true, true, 10000, 0, 10, copies⟩)
    ∧ (2 ≤ copies.length ∨ 10 ≤ (traced st true copies).since 10000)
    ∧ traceResult ⟨0, traceEntry, true, true, 10000, 0, 10, copies⟩ = result
    ∧ ((traced st true copies).disp.ring 0).state = st ∧ ((traced st true copies).disp.ring 0).nodes.length = 2

theorem witness_TraceEndCompletes_through : TraceReturned .untested [⟨.b, false, 2⟩, ⟨.a, false, 2⟩] .through :=
  ⟨by decide, ⟨by decide, rfl, by decide⟩, by decide, by decide, by decide, by decide, by decide, by decide⟩

theorem witness_TraceEndCompletes_wrapped : TraceReturned .down [⟨.a, true, 0⟩, ⟨.b, true, 2⟩] (.wrapped 0 2) :=
  ⟨by decide, ⟨by decide, rfl, by decide⟩, by decide, by decide, by decide, by decide, by decide, by decide⟩

theorem witness_TraceEndCompletes_broken : TraceReturned .broken [⟨.a, true, 2⟩, ⟨.b, true, 0⟩] (.wrapped 2 0) :=
  ⟨by decide, ⟨by decide, rfl, by decide⟩, by decide, by decide, by decide, by decide, by decide, by decide⟩

/-- The rows of R48 at their boundaries, with an eta_up_hyst_s of 3. -/
theorem witness_HeldValuesFollowR48 :
    holdValue 3 (some (.secs 99 true)) (.secs 99 false) = .secs 99 false
      ∧ holdValue 3 (some (.secs 5 false)) (.secs 7 false) = .secs 5 false
      ∧ holdValue 3 (some (.secs 5 false)) (.secs 8 false) = .secs 8 false
      ∧ holdValue 3 (some (.secs 5 false)) (.secs 4 false) = .secs 4 false := by decide

/-- R8: deck 0 of car 0 serves floor 1, not floor 2. -/
theorem test_serves : tower.serves 0 0 1 = true ∧ tower.serves 0 0 2 = false ∧ tower.serves 0 1 2 = true := by decide

/-- R80: the trip list of car 0 at floor 0 is floor 1, once. -/
theorem test_tripMembers : booked.tripMembers 0 0 0 = [1] := by decide

/-! ### Witnesses of the clauses beyond the plain path -/

/-- Host accesses that find a result write due, and one held for the report class, which has waited through 32. -/
theorem witness_HostWriteReachesMemory_held :
    (taking (endedTake .params (0, 0)) .takeResult).path.waits .takeResult = true
      ∧ exec .takeResultWrite (stateOf (taking (endedTake .params (0, 0)) .takeResult))
        = .next (after .takeResultWrite (stateOf (taking (endedTake .params (0, 0)) .takeResult)))
      ∧ (tower.onPath fun x => { x with own := [⟨.report, 32⟩] }).path.waits .takeResult = false
      ∧ (tower.onPath fun x => { x with own := [⟨.report, 32⟩] }).path.heldFor = some .report
      ∧ exec ((tower.onPath fun x => { x with own := [⟨.report, 32⟩] }).ownCommand .report)
          (stateOf (tower.onPath fun x => { x with own := [⟨.report, 32⟩] }))
        = .next (after .statusRecordWrite (stateOf (tower.onPath fun x => { x with own := [⟨.report, 32⟩] })))
      ∧ ∀ x ∈ (after .statusRecordWrite
          (stateOf (tower.onPath fun x => { x with own := [⟨.report, 32⟩] }))).part.path.own,
        x.passed < Config.passOverLimit :=
  ⟨by decide, rfl, by decide, by decide, rfl, by decide⟩

/-- A passed write and a passed read, the last one. -/
theorem witness_ResetCompletes :
    passing = [passing.getD 0 (.read 0 0)] ++ .read 0x10#24 0xF#4 :: [.write 0x10#24 0xCD#32 0x1#4]
      ∧ (∀ a be, HostAccess.read a be ∉ ([.write 0x10#24 0xCD#32 0x1#4] : List HostAccess))
      ∧ (∀ a data be, .write a data be ∈ passing → 0x44 / 4 ≠ a.toNat)
      ∧ ∀ a be, HostAccess.read a be ∉ ([] : List HostAccess) :=
  ⟨rfl, by simp, by intro a data be h; simp [passing] at h; rcases h with ⟨rfl, _⟩ | ⟨rfl, _⟩ <;> decide, by simp⟩

/-- No value of the take word is known. -/
theorem witness_TakeRequestBegins_unknown :
    (stateOf (tower.onPath fun x => { x with takeWord := none })).portFree = true
      ∧ (tower.onPath fun x => { x with takeWord := none }).atRest
      ∧ (tower.onPath fun x => { x with takeWord := none }).path.take = none
      ∧ (tower.onPath fun x => { x with takeWord := none }).path.takeWord = none :=
  ⟨by decide, ⟨by decide, rfl, by decide⟩, by decide, by decide⟩

/-- The words of an anchor block that passes: three floors, a double-deck car, a terminal and a hall lantern on ring 0, a
trigger, channel 0 with an override text. -/
def blockWords : List (Nat × Word) :=
  (List.range 31).map (fun i => (0x014 + i, paramWords.getD (4 + i) 0))
    ++ [(0x000, 0x484E0416#32), (0x001, 1), (0x004, 0x80002000#32), (0x005, 512), (0x006, 0x80002400#32), (0x007, 1024),
      (0x008, 0x80002800#32), (0x009, 512), (0x00A, 0x80002A00#32), (0x00B, 8), (0x00C, 0x80003000#32), (0x00D, 2048),
      (0x00E, 0x80004000#32), (0x00F, 64), (0x033, 1)]
    ++ [(0x040, 0xE0000000#32), (0x041, 0x30), (0x042, 0xC0000FA0#32), (0x043, 0x31), (0x044, 0xC0001F40#32), (0x045, 0x32)]
    ++ [(0x180, 0x80000002#32), (0x181, 0x00C809C4#32), (0x182, 4000), (0x183, 0x41), (0x185, 3), (0x18A, 6)]
    ++ [(0x380, 0x00010003#32), (0x388, 0x00020002#32), (0x389, 0x00010000#32), (0x980, 0x80210000#32), (0x982, 1)]
    ++ [(0xA00, 0x5FFFF#32), (0xA01, 0x80000000#32), (0xA02, 0x80000500#32)]

/-- The block with one word changed. -/
def block (o : Nat) (v : Word) (x : Nat) : Word :=
  if x = o then v else ((blockWords.find? (·.1 = x)).map (·.2)).getD 0

/-- A block that passes, and one that fails at each stage, the last check of the parameters among them. -/
theorem witness_TakeReadFillsCopy_passes : validate 0x500000 .full (block 0 0x484E0416#32) = none := by decide

theorem witness_TakeReadFillsCopy_header :
    block 0 7 0 ≠ 0x484E0416#32 ∧ (block 1 2 0 = 0x484E0416#32 ∧ block 1 2 1 ≠ 1#32)
      ∧ (block 5 511 0 = 0x484E0416#32 ∧ block 5 511 1 = 1#32) := by decide

theorem witness_TakeReadFillsCopy_stages :
    windowsStage 0x500000 (block 5 511) = some (refWindowSize, 0)
      ∧ windowsStage 0x500000 (block 4 0x80500000#32) = some (refWindowOverlap, 0)
      ∧ floorsStage (block 0x042 0) = some (refFloorCount, 1) ∧ floorCount (block 0x042 0) < 2
      ∧ floorsStage (block 0x042 0xC00007CF#32) = some (refFloorGap, 1)
      ∧ carsStage (block 0x181 0x00C801F3#32) = some (refCarConfig, 0)
      ∧ carsStage (block 0x185 8) = some (refServedSet, 0) := by decide

theorem witness_TakeReadFillsCopy_later :
    nodesStage (block 0x388 0x00010002#32) = some (refNodeDuplicate, 1)
      ∧ nodesStage (block 0x033 5) = some (refNodeConfig, 192)
      ∧ triggersStage (block 0x982 0) = some (refTriggerConfig, 0)
      ∧ overridesStage (block 0xA01 0x300#32) = some (refOverrideConfig, 0)
      ∧ paramsStage (block 0x014 199) = some (refParamRange, 0) ∧ paramsStage (block 0x032 4) = some (refParamRange, 30)
      ∧ (∀ k < 30, (paramRange k).1 ≤ readParam (block 0x032 4) k ∧ readParam (block 0x032 4) k ≤ (paramRange k).2) := by
  decide

/-- The earlier stages pass where the later ones fail. -/
theorem witness_TakeReadFillsCopy_order :
    windowsStage 0x500000 (block 0xA01 0x300#32) = none ∧ floorsStage (block 0xA01 0x300#32) = none
      ∧ carsStage (block 0xA01 0x300#32) = none ∧ nodesStage (block 0xA01 0x300#32) = none
      ∧ triggersStage (block 0xA01 0x300#32) = none ∧ overridesStage (block 0x032 4) = none := by decide

/-- A host write on the last word of the new mirror read so far, and on the word after it. -/
theorem witness_TakeReadFillsMirror_merge :
    (stateOf (taking (mirrorTake 7) .takeRead)).portFree = true
      ∧ (taking (mirrorTake 7) .takeRead).path.inAnchor 0x2A06 = false
      ∧ (readWindow (mirrorTake 7).word 3).present = true ∧ (readWindow (mirrorTake 7).word 3).base = 0x2A00
      ∧ ((mirrorTake 7).mirrorOf 3).length = 7 ∧ ¬0x2A07 < 0x2A00 + 7
      ∧ (taking (mirrorTake 7) .takeRead).path.inAnchor 0x2A07 = false := by decide

/-- A TAKE_FULL of the block that passes, its result due. -/
def fullTake : Take := { Take.fresh .full with copy := (List.range 0xB00).map (block 1 1), result := some (0, 0) }

/-- Channel 0 has a LINE text and no BANNER text; node 0 has regions. -/
theorem witness_FullAcceptanceCompletes_text :
    (taking fullTake .takeResult).path.waits .takeResult = true ∧ (taking fullTake .takeResult).channelHeld = none
      ∧ readChannelText fullTake.word 0 2 = some ⟨0, 0, 5⟩ ∧ readChannelText fullTake.word 0 4 = none
      ∧ (readNode fullTake.word 0).map (·.regions) = some [.prompt, .line] := by decide

/-- A repainted region of a node that has joined; it is the only node at its place. -/
theorem witness_RepaintCompletes_joined :
    ((lit.disp.ring 0).node 1).map (·.state.joined) = some true
      ∧ (∀ j < 192, (lit.node j).any (fun n => n.ring = 0 && n.position = 1) = true → j = 0) := by decide

/-- A LINE region with a message shown and in its list, one shown and not in it, none shown, and an empty list. -/
theorem witness_RepaintCompletes_rotation :
    (dwelling.node 0).map (fun n => (rotationList dwelling n .line, topLevel dwelling (rotationList dwelling n .line)))
        = some ([3, 127], 4)
      ∧ (dwelling.disp.cmp.region 0 .line).map (fun x => (x.shown, x.level)) = some (some 3, some 4)
      ∧ ((messaged.setMessage 3 Message.fresh).node 0).map (rotationList (messaged.setMessage 3 Message.fresh) · .line)
        = some [127]
      ∧ (messaged.disp.cmp.region 0 .line).map (·.shown) = some none
      ∧ (tower.node 0).map (rotationList tower · .line) = some []
      ∧ isMessageRegion .prompt = false ∧ RecomposeMode.reissue.force = true := by decide

/-- A node under channel 3 and under none; a deck that is UNKNOWN and one that is not; the blank settings of a channel. -/
theorem witness_RepaintCompletes_composed :
    (latched.node 0).map latched.governing = some (some 3) ∧ (tower.node 0).map tower.governing = some none
      ∧ ((latched.channel 3).config).map (fun c => (c.floorBlank, c.arrowBlank)) = some (true, true)
      ∧ (tower.deck 0 0).state = .unknown ∧ ((sampledAt 0 1).deck 0 0).state ≠ .unknown := by decide

/-- Car 0 at floor 0 with its doors OPEN on an opened visit, an assignment boarding there, and triggers of car 0. -/
def boarding : Part :=
  let p : Part := { booked with
    prm := { booked.prm with
      table := [{ booking 7 0 .showing (some 10005) (some .none) with isBoarding := true },
        booking 8 1 .queued none (some .none)] }
    trg := some ⟨0, 0, 1, true, .rise, .report, false, none⟩ :: List.replicate 31 none }
  p.setCar 0 { tower.car 0 with
    history := [(0, 9605)], door := .opened
    decks := [{ Deck.fresh with state := .atFloor, accepted := some 0, visit := some 0, opened := true }, Deck.fresh] }

/-- The car leaves: the visit ends, and the assignment that was BOARDING leaves; the other stays. -/
theorem witness_CarRecordCompletes_departure :
    (written boarding 0 0 [2000]).Takes (closing 0 0) 1 0xF#4 0 0 (record 0 [2000])
      ∧ boarding.shaped = true ∧ boarding.carConfig 0 = some doubleDeck
      ∧ (boarding.deck 0 0).visit = some 0 ∧ (boarding.deck 0 0).opened = true
      ∧ ((after (close .carRecord 0 0) (written boarding 0 0 [2000])).part.deck 0 0).visit = none
      ∧ (after (close .carRecord 0 0) (written boarding 0 0 [2000])).part.prm.table.map (·.number) = [8] :=
  ⟨takes (by decide) (by decide) (by decide) (by decide) (by decide), by decide, by decide, by decide, by decide, by decide,
    by decide⟩

/-- The doors open at floor 0: the waiting assignments become BOARDING; the trigger takes its first condition. -/
theorem witness_CarRecordCompletes_arrival :
    (written booked 0 0 [0, 0, 2]).Takes (closing 0 0) 1 0xF#4 0 0 (record 0 [0, 0, 2])
      ∧ ((after (close .carRecord 0 0) (written booked 0 0 [0, 0, 2])).part.deck 0 0).visit = some 0
      ∧ ((after (close .carRecord 0 0) (written booked 0 0 [0, 0, 2])).part.deck 0 0).opened = true
      ∧ (after (close .carRecord 0 0) (written booked 0 0 [0, 0, 2])).part.prm.table.map (·.isBoarding) = [true, true]
      ∧ (boarding.trg[0]?).join.map (fun x => (x.source, x.last)) = some (0, none) :=
  ⟨takes (by decide) (by decide) (by decide) (by decide) (by decide), by decide, by decide, by decide, by decide⟩

/-- Car 0 becomes INDEPENDENT: its assignments leave under one report; then it returns; then it resumes from STALE. -/
theorem witness_CarRecordCompletes_modes :
    (written booked 0 0 [0, 0, 0x100]).Takes (closing 0 0) 1 0xF#4 0 0 (record 0 [0, 0, 0x100])
      ∧ (booked.car 0).mode = .normal
      ∧ ((after (close .carRecord 0 0) (written booked 0 0 [0, 0, 0x100])).part.car 0).mode = .independent
      ∧ (after (close .carRecord 0 0) (written booked 0 0 [0, 0, 0x100])).part.prm.table = []
      ∧ lastReport (after (close .carRecord 0 0) (written booked 0 0 [0, 0, 0x100])) = some (repRetiredWithdrawn 0 2)
      ∧ ((after (close .carRecord 0 0) (written (withCar 0 { tower.car 0 with mode := .independent }) 0 0 [0])).part.car
          0).mode = .normal
      ∧ ((withCar 0 longStale).deck 0 0).state = .stale
      ∧ lastReport (after (close .carRecord 0 0) (written (withCar 0 longStale) 0 0 [0])) = some (repCarResumed 0) :=
  ⟨takes (by decide) (by decide) (by decide) (by decide) (by decide), by decide, by decide, by decide, by decide, by decide,
    by decide, by decide⟩

/-- A record with a position clamped at each end, with every code unrecognised, and with stop list faults. -/
theorem witness_CarRecordCompletes_counts :
    carPosition (record 0 [0xFFFFFFFF#32]) < 0 ∧ 1048575 < carPosition (record 0 [0x100000#32])
      ∧ carDrive (record 0 [0, 0x303#32, 0x704#32]) = none ∧ carDeparture (record 0 [0, 0x303#32, 0x704#32]) = none
      ∧ carDoor (record 0 [0, 0x303#32, 0x704#32]) = none ∧ carMode (record 0 [0, 0x303#32, 0x704#32]) = none
      ∧ 8 < carStopCount (record 0 [0, 0, 0x90000#32])
      ∧ (carStopEntries (record 0 [0, 0, 0x10000#32, 3])).take 1 = [3] ∧ tower.floorCount = 3 := by decide

/-- A trigger of car 0 for message 127 with its entry in a state, and the words that make its condition TRUE or FALSE. -/
def triggered (edge : EdgeMode) (action : TriggerAction) (held : Bool) (last : Option Bool) (e : Message) : Part :=
  { tower with
    msg := tower.msg.set 127 e
    trg := some ⟨0, 0, 1, true, edge, action, held, last⟩ :: List.replicate 31 none }

/-- The hypotheses of the rows of R105 to R107 on such a trigger. -/
def Triggered (edge : EdgeMode) (action : TriggerAction) (held : Bool) (last : Option Bool) (e : Message) : Prop :=
  (triggered edge action held last e).shaped = true ∧ 127 < Config.maxMessages
    ∧ ((triggered edge action held last e).trg[0]?).join
      = some (⟨0, 0, 1, true, edge, action, held, last⟩ : Trigger)
    ∧ (triggered edge action held last e).message 127 = e
    ∧ (⟨0, 0, 1, true, edge, action, held, last⟩ : Trigger).condition [1] = true
    ∧ (⟨0, 0, 1, true, edge, action, held, last⟩ : Trigger).condition [2] = false

theorem witness_trigger_first : Triggered .both .report false none Message.fresh := by unfold Triggered; decide
theorem witness_trigger_level :
    Triggered .level (.activate 127) false (some true) Message.fresh
      ∧ Triggered .level (.activate 127) false (some false) { showing 4 [] with state := .defined }
      ∧ Triggered .level (.activate 127) false (some true) { showing 4 [] with cars := [0] }
      ∧ Triggered .level (.cancel 127) false (some true) (showing 4 []) := by unfold Triggered; decide
theorem witness_trigger_edge :
    Triggered .rise (.activate 127) true (some false) (showing 4 [])
      ∧ Triggered .rise (.activate 127) false (some false) Message.fresh
      ∧ Triggered .both (.activate 127) false (some false) (showing 4 [])
      ∧ Triggered .fall (.cancel 127) false (some true) (showing 4 [])
      ∧ Triggered .fall .report false (some true) Message.fresh := by unfold Triggered; decide

/-- A candidate at rest in a zone, between zones with and without an accepted floor; and one for each direction of motion. -/
theorem witness_CarRecordEvaluatesDecks_motions :
    ((after (close .carRecord 0 0) (written tower 0 0 [200])).part.car 0).motion = .still
      ∧ ((after (close .carRecord 0 0) (written tower 0 0 [200])).part.deck 0 0).state = .atFloor
      ∧ ((after (close .carRecord 0 0) (written tower 0 0 [201])).part.deck 0 0).state = .between
      ∧ (tower.deck 0 0).accepted = none ∧ ((sampledAt 0 1).deck 0 0).accepted = some 1
      ∧ ((after (close .carRecord 0 0) (written (sampledAt 0 1) 0 0 [2000])).part.car 0).motion = .movingUp
      ∧ ((after (close .carRecord 0 0) (written (sampledAt 0 1) 0 0 [2000])).part.deck 0 0).state = .express
      ∧ ((after (close .carRecord 0 0) (written (sampledAt 8000 1) 0 0 [6000])).part.car 0).motion = .movingDown
      ∧ ((after (close .carRecord 0 0) (written (sampledAt 8000 1) 0 0 [6000])).part.deck 0 0).state = .moving := by decide

/-- Four references at the terminal at floor 0, the first SHOWING. -/
def crowded : Part :=
  { tower with prm := { tower.prm with
      table := [booking 1 0 .showing (some 11000) none, booking 2 1 .queued none none, booking 3 2 .queued none none,
        booking 4 3 .queued none none]
      nextOrder := 4
      queues := [⟨0, [1, 2, 3, 4]⟩, ⟨191, []⟩] } }

/-- A NEW for a queue that is full. -/
theorem witness_AssignNewCompletes_full :
    (written crowded 2 0 newWords).Takes (closing 2 0) 1 0xF#4 2 0 (record 2 newWords) ∧ crowded.atRest ∧ crowded.queueLaw
      ∧ crowded.assignment 9 = none ∧ crowded.queueOf 0 = 1 :: [2, 3, 4] ∧ [2, 3, 4].length + 1 = Config.queueLimit
      ∧ (after (close .assignNew 2 0) (written crowded 2 0 newWords)).part.queueOf 0 = [2, 3, 4, 9] :=
  ⟨takes (by decide) (by decide) (by decide) (by decide) (by decide), ⟨by decide, rfl, by decide⟩,
    by unfold Part.queueLaw Part.queueOrdered; decide, by decide, by decide, by decide, by decide⟩

/-- 256 assignments, numbered from 100, that have been shown. -/
def fullTable : Part :=
  { tower with prm := { tower.prm with
      table := (List.range 256).map fun i => booking (i + 100) i .none none none
      nextOrder := 256 } }

theorem fullTable_queueLaw : fullTable.queueLaw := by
  have h : fullTable.prm.table.map (·.number) = (List.range 256).map (· + 100) := by
    simp [fullTable, Function.comp_def, booking]
  have shown : ∀ a ∈ fullTable.prm.table, a.prompt = .none ∧ a.terminal = 0 := by
    intro a ha
    obtain ⟨i, -, rfl⟩ := List.mem_map.mp ha
    exact ⟨rfl, rfl⟩
  refine ⟨?_, by decide, by decide, fun a ha => ?_, fun q hq => ?_⟩
  · rw [h]; exact List.nodup_range.map fun a b h => by simpa using h
  · rw [(shown a ha).2]; decide
  · have empty : q.refs = [] := by
      have hq' : q ∈ [(⟨0, []⟩ : PromptQueue), ⟨191, []⟩] := hq
      simp at hq'
      rcases hq' with rfl | rfl <;> rfl
    exact ⟨by simp [empty], by simp [empty], fun a ha _ => by simp [empty, (shown a ha).1], by simp [empty],
      fun a ha _ => by simp [empty, (shown a ha).1]⟩

/-- A NEW for a full table: the first of the assignments makes room. -/
theorem witness_AssignNewCompletes_displaces :
    (written fullTable 2 0 newWords).Takes (closing 2 0) 1 0xF#4 2 0 (record 2 newWords) ∧ fullTable.atRest
      ∧ fullTable.shaped = true ∧ fullTable.queueLaw ∧ fullTable.assignment 9 = none
      ∧ Config.maxAssignments ≤ fullTable.prm.table.length ∧ booking 100 0 .none none none ∈ fullTable.prm.table
      ∧ ∀ x ∈ fullTable.prm.table, x ≠ booking 100 0 .none none none → 0 < x.order := by
  refine ⟨takes (by decide) (by decide) (by decide) (by decide) (by decide), ⟨by decide, rfl, by decide⟩, by decide,
    fullTable_queueLaw, by decide, by decide, List.mem_map.mpr ⟨0, by decide, rfl⟩, ?_⟩
  intro x hx hne
  obtain ⟨i, -, rfl⟩ := List.mem_map.mp hx
  rcases Nat.eq_zero_or_pos i with rfl | hi
  · exact absurd rfl hne
  · exact hi

/-- 256 assignments that are all BOARDING. -/
def boardingTable : Part :=
  { tower with prm := { tower.prm with table := List.replicate 256 { booking 7 0 .none none none with isBoarding := true } } }

theorem witness_AssignRefusalCompletes_tableFull :
    Assigning boardingTable newWords 1 ∧ boardingTable.assignment 9 = none
      ∧ Config.maxAssignments ≤ boardingTable.prm.table.length
      ∧ ∀ x ∈ boardingTable.prm.table, x.isBoarding = true ∨ x.prompt ≠ .none :=
  ⟨⟨by decide, takes (by decide) (by decide) (by decide) (by decide) (by decide), ⟨by decide, rfl, by decide⟩, by decide,
    by decide⟩, by decide, by decide, fun x hx => by rw [List.eq_of_mem_replicate hx]; exact .inl rfl⟩

/-- A NEW under channel 3, not reported yet and reported already. -/
theorem witness_AssignRefusalCompletes_dropped :
    Assigning latched newWords 1 ∧ (latched.terminalNode 0).map latched.governing = some (some 3)
      ∧ latched.prm.dropReported.getD 3 false = false
      ∧ ({ latched.prm with dropReported := [false, false, false, true] } : Prm).dropReported.getD 3 false = true :=
  ⟨⟨by decide, takes (by decide) (by decide) (by decide) (by decide) (by decide), ⟨by decide, rfl, by decide⟩, by decide,
    by decide⟩, by decide, by decide, by decide⟩

/-- A DEFINE of message 9 with the reference its READY text has, and with another while message 127's job reads. -/
theorem witness_MessageStoreCompletes_texts :
    (written (fetching 1 false) 1 9 [0x00400401#32, 0xF#32, 0x80000000#32, 0x500#32]).Takes (closing 1 9) 1 0xF#4 1 9
        (record 1 [0x00400401#32, 0xF#32, 0x80000000#32, 0x500#32])
      ∧ (messageFields (record 1 [0x00400401#32, 0xF#32, 0x80000000#32, 0x500#32])).ref = ⟨0, 0, 5⟩
      ∧ ((fetching 1 false).message 9).fields.map (·.ref) = some ⟨0, 0, 5⟩
      ∧ ((fetching 1 false).message 9).text.status = some .ready
      ∧ (messageFields (record 1 [0x00400401#32, 0xF#32, 0x80000000#32, 0x600#32])).ref = ⟨0, 0, 6⟩
      ∧ (∃ x, (fetching 1 false).txf.jobs.filter (fun j => j.owner ≠ .message 9) = [x] ∧ x.phase ≠ .waiting)
      ∧ (fetching 1 false).txf.headIs (.message 127) = true
      ∧ (fetching 1 false).txf.jobs.filter (fun j => j.owner ≠ .message 127) = [] :=
  ⟨takes (by decide) (by decide) (by decide) (by decide) (by decide), by decide, by decide, by decide, by decide,
    ⟨_, rfl, by decide⟩, by decide, by decide⟩

/-- The fault of a job's checks, none when it passes. -/
def faultOf (p : Part) (j : Job) : Option TextCause :=
  match p.checkJob j with
  | .ok _ => none
  | .error c => some c

/-- A job alone is checked at once: it passes, or its area does not exist. -/
theorem witness_MessageStoreCompletes_checks :
    faultOf tower (Job.fresh (.message 0) ⟨0, 0, 5⟩) = none
      ∧ faultOf tower (Job.fresh (.message 0) ⟨3, 0, 5⟩) = some .area := by decide

/-- The head job's range is written while a job of message 9 waits behind it. -/
def waitingBehind : Part :=
  { fetching 1 false with
    txf := { (fetching 1 false).txf with
      jobs := (fetching 1 false).txf.jobs ++ [Job.fresh (.message 9) ⟨0, 0, 5⟩], ready := [] } }

theorem witness_TextAreaWriteCompletes_behind :
    (stateOf waitingBehind).portFree = true ∧ waitingBehind.atRest ∧ waitingBehind.path.inTextArea 0x4001 = true
      ∧ (∃ j x, waitingBehind.txf.jobs = [j, x] ∧ j.owner ∈ textOwners ∧ j.covers 0x4001 = true ∧ x.phase = .waiting
          ∧ faultOf waitingBehind x = none)
      ∧ (∀ o ∈ textOwners, waitingBehind.txf.readyCovers o 0x4001 = false)
      ∧ (after (.textAreaWrite 0x4001#24 0 0xF#4) (stateOf waitingBehind)).part.txf.jobs.map (·.owner)
        = [.message 9, .message 127] :=
  ⟨by decide, ⟨rfl, rfl, rfl⟩, by decide, ⟨_, _, rfl, by decide, by decide, rfl, by decide⟩, by decide, by decide⟩

/-- The head job alone: the check made again passes; and fails when its reference names no area. -/
theorem witness_TextAreaWriteCompletes_alone :
    (fetching 1 false).txf.jobs.length = 1 ∧ (fetching 1 false).shaped = true
      ∧ faultOf (fetching 1 false) (Job.fresh (.message 127) ⟨0, 0, 5⟩) = none
      ∧ faultOf (fetching 1 false) (Job.fresh (.message 127) ⟨3, 0, 5⟩) = some .area := by decide

/-- TXF's head job in LENGTH at the first word, or at the last of the text area. -/
def measuring (start : Nat) : Part :=
  { tower with
    msg := tower.msg.set 127 (showing 4 [])
    txf := ⟨[⟨.message 127, ⟨0, BitVec.ofNat 32 (start - 0x4000), 0⟩, .length, start, 1, start, 0, []⟩], [],
      some ⟨start, false⟩⟩
    path := { runningPath with own := [⟨.text, 32⟩, ⟨.report, 0⟩] } }

/-- Length bytes 0 and 97 (LENGTH), 96 past the window's end (BOUNDS), 4 and 96 within it, and 3 and 1. -/
theorem witness_TextReadCompletes_length :
    (measuring 0x4000).path.ownNext = some .text ∧ (measuring 0x4000).atRest ∧ (measuring 0x4000).shaped = true
      ∧ (∃ j, (measuring 0x4000).txf.jobs = [j] ∧ j.owner ∈ textOwners ∧ j.phase = .length
          ∧ (measuring 0x4000).jobEnd j = 0x4040 ∧ j.start + (96 + 4) / 4 ≤ 0x4040)
      ∧ (∃ j, (measuring 0x403F).txf.jobs = [j] ∧ j.phase = .length ∧ (measuring 0x403F).jobEnd j < j.start + (4 + 4) / 4
          ∧ j.start + (3 + 4) / 4 ≤ (measuring 0x403F).jobEnd j)
      ∧ readWord [(0x10000, 97#8)] (wordAddr 0x4000) = 97 ∧ (byteAt (97 : Word) 0).toNat = 97
      ∧ readWord [] (wordAddr 0x4000) = 0 ∧ (byteAt (0x61 : Word) 0).toNat = 0x61 :=
  ⟨by decide, ⟨rfl, rfl, rfl⟩, by decide, ⟨_, rfl, by decide, rfl, by decide, by decide⟩,
    ⟨_, rfl, rfl, by decide, by decide⟩, by decide, by decide, by decide, by decide⟩

/-- A waiting head job that faults, and the references at the edges of the checks. -/
theorem witness_TextReadCompletes_checks :
    faultOf tower { Job.fresh (.message 127) ⟨3, 0, 5⟩ with phase := .waiting } = some .area
      ∧ (tower.path.watch[5]?).map (fun w => (w.present, w.base, w.length)) = some (true, 0x4000, 64)
      ∧ (tower.path.watch[6]?).map (·.present) = some false
      ∧ ((0x4000 : Int) + (0xFFFFFFFF#32).toInt < 0x4000) ∧ (0x4000 + 64 : Int) ≤ 0x4000 + (64#32).toInt
      ∧ 0x4000 + 64 < 0x4000 + 63 + (min 5 96 + 3) / 4 ∧ 0x4000 + 63 + (min 4 96 + 3) / 4 ≤ 0x4000 + 64
      ∧ 0x4000 + (min 255 96 + 3) / 4 ≤ 0x4000 + 64 := by decide

/-- A POLL at offset zero, and a TRACE on a CLOSED ring ahead of the round robin. -/
theorem witness_SendFrameCompletes_others :
    ((withRing fun r => { r with nodes := [{ joined 0 with queue := [pollEntry] }, joined 1] }).disp.ring 0).choose
        = some (.served 1 pollEntry)
      ∧ ((queued .closed true 255).disp.ring 0).choose = some .trace
      ∧ ((queued .down true 255).disp.ring 0).choose = some .trace
      ∧ ((withRing fun r => { r with nodes := [joined 0, { joined 1 with state := .lost, joinDue := true }] }).disp.ring
          0).choose = some (.join 2) := by decide

/-- The order of the arbiter: an ALERT of position 2 before a due TRACE and before a PAINT of position 1, and a round robin that
wraps after position 2. -/
theorem test_arbiter_order :
    ((withRing fun r =>
        { r with
          nodes := [{ joined 0 with queue := [paintEntry] },
            { joined 1 with queue := [⟨.alert, some .line, 2, Content.blank, 0⟩] }]
          traceDue := true }).disp.ring 0).choose = some (.alert 2 ⟨.alert, some .line, 2, Content.blank, 0⟩)
      ∧ ((withRing fun r =>
          { r with
            nodes := [{ joined 0 with queue := [paintEntry] }, { joined 1 with queue := [paintEntry] }]
            lastServed := 1 }).disp.ring 0).choose = some (.served 2 paintEntry) := by decide

/-- Ring 0 with a use of tag 0, the node of position 1 in a state with that PAINT outstanding. -/
def returning (st : NodeState) (retry : Nat) (u : TagUse) : Part :=
  withRing fun r =>
    { r with
      nodes := [{ joined 0 with state := st, retry := retry, flights := [⟨paintEntry, none⟩] }, joined 1]
      tags := [(0, u)], lastTag := 0 }

/-- A send record of the PAINT on both ports, with the copies that have come back. -/
def dualRecord (copies : List Copy) : SendRecord := ⟨1, paintEntry, true, true, 10000, 0, 10, copies⟩

/-- What every clause of `FrameReturnCompletes` asks of a state. -/
def Returning (p : Part) (u : TagUse) : Prop :=
  p.atRest ∧ p.shaped = true ∧ (p.disp.ring 0).nodes ≠ [] ∧ (p.disp.ring 0).tag 0 = some u

/-- A TRAILING tag, a TRACE with no copy and with one of its two recorded. -/
theorem witness_FrameReturnCompletes_trailing : Returning (returning .active 0 (.trailing 10000 10)) (.trailing 10000 10) :=
  ⟨⟨by decide, rfl, by decide⟩, by decide, by decide, by decide⟩

theorem witness_FrameReturnCompletes_trace :
    Returning (returning .active 0 (.outstanding ⟨0, traceEntry, true, true, 10000, 0, 10, [⟨.a, true, 1⟩]⟩))
        (.outstanding ⟨0, traceEntry, true, true, 10000, 0, 10, [⟨.a, true, 1⟩]⟩)
      ∧ [(⟨.a, true, 1⟩ : Copy)].length < true.toNat + true.toNat :=
  ⟨⟨⟨by decide, rfl, by decide⟩, by decide, by decide, by decide⟩, by decide⟩

/-- A third return on the tag of a TRACE sent as two copies is late. -/
theorem witness_FrameReturnCompletes_beyond :
    Returning (returning .active 0 (.outstanding ⟨0, traceEntry, true, true, 10000, 0, 10, [⟨.a, true, 1⟩, ⟨.b, true, 1⟩]⟩))
        (.outstanding ⟨0, traceEntry, true, true, 10000, 0, 10, [⟨.a, true, 1⟩, ⟨.b, true, 1⟩]⟩)
      ∧ true.toNat + true.toNat ≤ [(⟨.a, true, 1⟩ : Copy), ⟨.b, true, 1⟩].length
      ∧ (((after (.frameReturn 0 .a (answered 0)) (stateOf (returning .active 0
          (.outstanding ⟨0, traceEntry, true, true, 10000, 0, 10, [⟨.a, true, 1⟩, ⟨.b, true, 1⟩]⟩)))).part.disp.ring
            0).stats.late) = 1 :=
  ⟨⟨⟨by decide, rfl, by decide⟩, by decide, by decide, by decide⟩, by decide, by decide⟩

/-- The first copy of a frame sent on both ports, EMPTY or not, and the second. -/
theorem witness_FrameReturnCompletes_dual :
    Returning (returning .active 0 (.outstanding (dualRecord []))) (.outstanding (dualRecord []))
      ∧ Returning (returning .active 0 (.outstanding (dualRecord [⟨.a, true, 0⟩]))) (.outstanding (dualRecord [⟨.a, true, 0⟩]))
      ∧ (readFrame (answered 0)).map (fun a => (a.tag, a.status, a.answer)) = some (0, 0, .empty)
      ∧ (readFrame (answered 4)).map (fun a => (a.tag, a.status)) = some (0, 4)
      ∧ ((returning .active 0 (.outstanding (dualRecord []))).disp.ring 0).node 1
        = some { joined 0 with flights := [⟨paintEntry, none⟩] } :=
  ⟨⟨⟨by decide, rfl, by decide⟩, by decide, by decide, by decide⟩,
    ⟨⟨by decide, rfl, by decide⟩, by decide, by decide, by decide⟩, by decide, by decide, by decide⟩

/-- A failure at the limit of `retries` (3), one beyond it, and answers to nodes that are ABSENT and LOST. -/
theorem witness_FrameReturnCompletes_states :
    Returning (returning .suspect 2 (.outstanding (sentRecord paintEntry 10000))) (.outstanding (sentRecord paintEntry 10000))
      ∧ Returning (returning .suspect 3 (.outstanding (sentRecord paintEntry 10000)))
        (.outstanding (sentRecord paintEntry 10000))
      ∧ Returning (returning .absent 0 (.outstanding (sentRecord pollEntry 10000))) (.outstanding (sentRecord pollEntry 10000))
      ∧ Returning (returning .lost 0 (.outstanding (sentRecord pollEntry 10000))) (.outstanding (sentRecord pollEntry 10000))
      ∧ tower.params.retries.getD 0 0 = 3 ∧ NodeState.absent.joined = false ∧ NodeState.lost.joined = false
      ∧ (tower.node 0).map (·.regions) = some [.prompt, .line]
      ∧ tower.disp.cmp.region 0 .prompt = some (RegionRecord.fresh .prompt) ∧ lit.disp.cmp.reachable 0 = true
      ∧ ((returning .active 0 (.outstanding (sentRecord paintEntry 10000))).disp.ring 0).tracing = false
      ∧ ((returning .active 0 (.outstanding (sentRecord paintEntry 10000))).disp.ring 0).state = .closed :=
  ⟨⟨⟨by decide, rfl, by decide⟩, by decide, by decide, by decide⟩,
    ⟨⟨by decide, rfl, by decide⟩, by decide, by decide, by decide⟩,
    ⟨⟨by decide, rfl, by decide⟩, by decide, by decide, by decide⟩,
    ⟨⟨by decide, rfl, by decide⟩, by decide, by decide, by decide⟩, by decide, by decide, by decide, by decide, by decide,
    by decide, by decide, by decide⟩

/-- R156, R124: a LOST node that answers its join POLL is ACTIVE and reported as 0EH, and its regions are re-issued. -/
theorem test_frameReturn_join :
    (((after (.frameReturn 0 .b (withTrailer (frameBytes 1 0 pollEntry) 1 0 0))
        (stateOf (returning .lost 0 (.outstanding (sentRecord pollEntry 10000))))).part.disp.ring 0).node 1).map
          (fun n => (n.state, n.queue.map (·.region))) = some (.active, [some .prompt, some .line])
      ∧ lastReport (after (.frameReturn 0 .b (withTrailer (frameBytes 1 0 pollEntry) 1 0 0))
        (stateOf (returning .lost 0 (.outstanding (sentRecord pollEntry 10000))))) = some (0x0100000E#32, 0) := by decide

theorem witness_TraceEndCompletes_closed : TraceReturned .closed [⟨.b, false, 2⟩, ⟨.a, false, 2⟩] .through :=
  ⟨by decide, ⟨by decide, rfl, by decide⟩, by decide, by decide, by decide, by decide, by decide, by decide⟩

theorem witness_TraceEndCompletes_opened : TraceReturned .closed [⟨.a, true, 1⟩, ⟨.b, true, 1⟩] (.wrapped 1 1) :=
  ⟨by decide, ⟨by decide, rfl, by decide⟩, by decide, by decide, by decide, by decide, by decide, by decide⟩

theorem witness_TraceEndCompletes_again : TraceReturned .broken [⟨.b, false, 2⟩, ⟨.a, false, 2⟩] .through :=
  ⟨by decide, ⟨by decide, rfl, by decide⟩, by decide, by decide, by decide, by decide, by decide, by decide⟩

/-- A TRACE sent 10 ms ago of which nothing has returned, on a ring in a state with a location and a through count. -/
def unreturned (st : RingState) (location : Option (Nat × Nat)) (through : Nat) : Part :=
  withRing fun r =>
    { r with
      state := st, location := location, through := through
      tags := [(4, .outstanding ⟨0, traceEntry, true, true, 9995, 0, 10, []⟩)], lastTag := 4 }

/-- The hypotheses of `TraceEndCompletes` there. -/
def Unreturned (st : RingState) (location : Option (Nat × Nat)) (through : Nat) : Prop :=
  (unreturned st location through).atRest ∧ (unreturned st location through).shaped = true
    ∧ ((unreturned st location through).disp.ring 0).outstandingTrace
      = some (4, ⟨0, traceEntry, true, true, 9995, 0, 10, []⟩)
    ∧ 10 ≤ (unreturned st location through).since 9995
    ∧ traceResult ⟨0, traceEntry, true, true, 9995, 0, 10, []⟩ = .none
    ∧ ((unreturned st location through).disp.ring 0).state = st

theorem witness_TraceEndCompletes_none :
    Unreturned .untested none 0 ∧ Unreturned .broken (some (1, 2)) 1 ∧ Unreturned .closed none 0 ∧ Unreturned .down none 0 :=
  ⟨⟨⟨by decide, rfl, by decide⟩, by decide, by decide, by decide, by decide, by decide⟩,
    ⟨⟨by decide, rfl, by decide⟩, by decide, by decide, by decide, by decide, by decide⟩,
    ⟨⟨by decide, rfl, by decide⟩, by decide, by decide, by decide, by decide, by decide⟩,
    ⟨⟨by decide, rfl, by decide⟩, by decide, by decide, by decide, by decide, by decide⟩⟩

/-- R161: a BROKEN ring that loses its TRACE is DOWN, its nodes LOST, under LINK_DOWN alone (report 11H). -/
theorem test_traceEnd_down :
    ((after (.traceEnd 0) (stateOf (unreturned .broken (some (1, 2)) 1))).part.disp.ring 0).nodes.map (·.state) = [.lost, .lost]
      ∧ (after (.traceEnd 0) (stateOf (unreturned .broken (some (1, 2)) 1))).part.disp.rpt.waiting.map (·.word0)
        = [(repLinkDown 0).1] := by decide

/-- R159: the second through in a row closes a BROKEN ring. -/
theorem test_traceEnd_closes :
    ((after (.traceEnd 0) (stateOf (withRing fun r =>
        { r with
          state := .broken, location := some (1, 2), through := 1
          tags := [(4, .outstanding ⟨0, traceEntry, true, true, 10000, 0, 10, [⟨.b, false, 2⟩, ⟨.a, false, 2⟩]⟩)]
          lastTag := 4 }))).part.disp.ring 0).state = .closed := by decide

/-- Car 31 at 4,000 mm, STILL with its doors CLOSED, to stop at floor 2. -/
def calling (d : Deck) : Part :=
  { withCar 31 { tower.car 31 with stops := [2], departure := .up, decks := [d, Deck.fresh] } with
    arr := { tower.arr with lanterns := [⟨31, 0, 2, .dark, .none, false, .none⟩, ⟨31, 0, 1, .announce, .up, true, .secs 3 false⟩] } }

/-- A deck at 4,000 mm, AT_FLOOR 1 or MOVING. -/
def deckAt (st : Indication) : Deck := { Deck.fresh with position := 4000, state := st, accepted := some 1 }

/-- An estimate of each case of R44 to R47: 4,000 mm at 2,500 mm/s (1,600 ms) and one start and stop (3,000 ms) take 5 s. -/
theorem test_estimate :
    (calling (deckAt .moving)).estimate 31 0 2 = (.secs 5 false, false)
      ∧ (calling (deckAt .atFloor)).estimate 31 0 1 = (.secs 0 false, false)
      ∧ (calling (deckAt .stale)).estimate 31 0 2 = (.none, false) ∧ tower.estimate 1 0 2 = (.none, false) := by decide

theorem witness_HeldValuesFollowR48_estimate :
    (calling (deckAt .moving)).carConfig 31 = some singleDeck ∧ tower.carConfig 1 = none
      ∧ (calling (deckAt .moving)).arrWithdrawn 31 = false
      ∧ ((calling (deckAt .moving)).car 31).stops.takeWhile
          (fun x => (calling (deckAt .moving)).deckStopFloor singleDeck 0 x ≠ some 2) = []
      ∧ ((calling (deckAt .moving)).car 31).stops.takeWhile
          (fun x => (calling (deckAt .moving)).deckStopFloor singleDeck 0 x ≠ some 0) = [2] := by decide

/-- An evaluation notice: the lantern of the next stop and one of another floor; an assignment's held value. -/
theorem witness_HeldValuesFollowR48_evaluation :
    0 ∈ (calling (deckAt .moving)).decksOf 31 ∧ (calling (deckAt .moving)).nextStop 31 0 = some 2
      ∧ (calling (deckAt .moving)).arr.lanterns[0]? = some ⟨31, 0, 2, .dark, .none, false, .none⟩
      ∧ (calling (deckAt .moving)).arr.lanterns[1]? = some ⟨31, 0, 1, .announce, .up, true, .secs 3 false⟩
      ∧ withinLead 5 (.secs 5 false) = true ∧ withinLead 5 (.secs 6 false) = false ∧ withinLead 99 (.secs 99 true) = false
      ∧ (booked.prm.table.map (·.number)).Nodup ∧ booked.assignment 7 = some (booking 7 0 .showing (some 10005) (some .none))
      ∧ ((calling (deckAt .moving)).arrEvaluation 31).arr.lanterns.map (·.state) = [.dark, .dark]
      ∧ ((calling (deckAt .moving)).arrArrival 31 0 2).arr.lanterns.map (·.state) = [.lit, .announce]
      ∧ ((calling (deckAt .moving)).arrDeparture 31 0 1).arr.lanterns.map (·.state) = [.dark, .dark] := by decide

/-! ### Hand-ons of an activation, of a parameter take and of a lantern -/

/-- Two live assignments at the terminal at floor 0, under a record that calls channel 0. -/
def flushing : State := written booked 3 0 [0x02000001#32]

/-- R79, R133, R138: channel 0 leaves OFF, both assignments leave with it, two reports follow, and its status record is handed. -/
theorem witness_OverrideRecordCompletes_activation :
    flushing.Takes (closing 3 0) 1 0xF#4 3 0 (record 3 [0x02000001#32]) ∧ flushing.part.atRest ∧ flushing.part.shaped = true
      ∧ (flushing.part.channel 0).latch = false ∧ flushing.part.prm.table.countP (flushing.part.inFlush 0) = 2
      ∧ ((after (close .overrideActivate 3 0) flushing).part.channel 0).latch = true
      ∧ (after (close .overrideActivate 3 0) flushing).part.prm.table = []
      ∧ (after (close .overrideActivate 3 0) flushing).part.disp.rpt.waiting.map (·.word0)
        = [(repRetiredOverride 0 2).1, (repOverrideOn 0 false true).1] :=
  ⟨takes (by decide) (by decide) (by decide) (by decide) (by decide), ⟨rfl, rfl, rfl⟩, by decide, by decide, by decide,
    by decide, by decide, by decide⟩

/-- The line of channel 1 turns beside two live assignments. -/
def turning : Part := { booked with ovr := sampled.ovr }

theorem witness_LineEventsComplete_activation :
    turning.atRest ∧ turning.shaped = true ∧ (turning.channel 1).test = some .twoOfThree ∧ (turning.channel 1).latch = false
      ∧ ((after (.lineAccepted 1) (stateOf turning)).part.channel 1).latch = true
      ∧ ((after (.lineAccepted 1) (stateOf turning)).part.disp.rpt.waiting).getLast?.map (·.word0)
        = some (repOverrideOn 1 true false).1 :=
  ⟨⟨by decide, rfl, by decide⟩, by decide, by decide, by decide, by decide, by decide⟩

/-- A TAKE_PARAMS about to end, with two assignments of age 1,005 ms and car 0 silent since 9,005 ms. -/
def renewing : Part :=
  { taking (endedTake .params (0, 0)) .takeResult with prm := booked.prm, trk := (silent 0).trk }

/-- R30, R78: car 0 alone is due under the new stale_ms, and both assignments have the age of the new assign_life_s. -/
theorem witness_ParamsAcceptanceCompletes_due :
    renewing.path.waits .takeResult = true ∧ renewing.path.take = some (endedTake .params (0, 0)) ∧ renewing.atRest
      ∧ renewing.shaped = true ∧ renewing.disp.rpt.counters.length = 16
      ∧ (List.range Config.maxCars).filter
          ({ renewing with params := readParams (endedTake .params (0, 0)).word } : Part).staleDue = [0]
      ∧ renewing.prm.table.countP
          (fun a => (readParams (endedTake .params (0, 0)).word).assignLifeS * 1000 ≤ renewing.since a.created) = 2 :=
  ⟨by decide, rfl, ⟨by decide, rfl, by decide⟩, by decide, by decide, by decide, by decide⟩

/-- Car 0 leaves downward from floor 1, where its lantern node 1 is reachable. -/
def chiming : Part :=
  { withCar 0 { tower.car 0 with stops := [1], departure := .down } with disp := setReachable tower.disp 1 true }

/-- R53, R54: at an arrival with open doors the DARK lantern is LIT DOWN with two chimes. -/
theorem witness_HeldValuesFollowR48_chime :
    (chiming.node 1).map (·.isLanternOf 0 0 1) = some true ∧ chiming.nextStop 0 0 = some 1 ∧ chiming.arrWithdrawn 0 = false
      ∧ chiming.disp.cmp.region 1 .arrow = some (RegionRecord.fresh .arrow) ∧ chiming.disp.cmp.reachable 1 = true
      ∧ ((chiming.disp.ring 0).node 2).map (·.state.joined) = some true
      ∧ chiming.arr.lanterns.countP (fun l => l.car = 0 && l.deck = 0 && l.floor = 1) = 1
      ∧ (((chiming.arrArrival 0 0 1).disp.ring 0).node 2).map
          (·.queue.map fun e => (e.region, e.chime, e.version, e.content.direction)) = some [(some .arrow, 2, 1, .down)] := by
  decide

/-- R82: the prompt of assignment 7: label and deck mark of the double-deck car 0, its bearing, the destination, no estimate. -/
theorem test_promptContent :
    (booked.node 0).map (fun n => (normalContent booked 0 n .prompt none).1.codes)
      = some [0x41#8, 0x83#8, 0x20#8, 0x86#8, 0x20#8, 0x31#8, 0x20#8, 0x2D#8, 0x2D#8] := by decide

/-! ### Composition, hand-ons and lookups -/

/-- `Part.compositionLaw` as a test on a concrete part. -/
def standsComposed (p : Part) : Bool :=
  (List.range p.nodes.length).all fun j =>
    (p.node j).all fun n => n.regions.all fun r =>
      (p.disp.cmp.region j r).any fun x =>
        x.content = (composed p j n r x.shown).1.1 && x.source = (composed p j n r x.shown).2
          && (!isMessageRegion r ||
            (decide (x.shown = none ↔ rotationList p n r = []) && x.shown.all (rotationList p n r).contains
              && x.level = x.shown.map (fun _ => topLevel p (rotationList p n r)) && x.dwell.isSome = x.shown.isSome))

theorem compositionLaw_of_standsComposed {p : Part} (h : standsComposed p = true) : p.compositionLaw := by
  intro j n hn _ r hr
  have hj : j < p.nodes.length := by
    refine Nat.lt_of_not_le fun hle => ?_
    simp [Part.node, List.getElem?_eq_none hle] at hn
  simp only [standsComposed, List.all_eq_true, List.mem_range] at h
  have hx := h j hj
  rw [hn, Option.all_some, List.all_eq_true] at hx
  obtain ⟨x, hreg, hc⟩ := (Option.any_eq_true _ _).1 (hx r hr)
  simp only [Bool.and_eq_true, Bool.or_eq_true, decide_eq_true_eq, Bool.not_eq_true'] at hc
  refine ⟨x, hreg, hc.1.1, hc.1.2, fun hm => ?_⟩
  obtain hf | hc := hc.2
  · simp [hm] at hf
  · refine ⟨hc.1.1.1, fun m hs => ?_, hc.1.2, hc.2⟩
    have := hc.1.1.2
    rw [hs, Option.all_some] at this
    exact List.contains_iff_mem.1 this

/-- Every region composed, message 3 shown on both terminals, its dwell deadline still to come. -/
def shown : Part := messaged.cmpChannelChange

theorem witness_StepKeepsComposition :
    shown.queueLaw ∧ shown.compositionLaw ∧ ((shown.disp.cmp.region 0 .line).bind (·.shown)) = some 3
      ∧ ∃ t, step { stateOf shown with pending := [.messageExpired 3] } = .next t :=
  ⟨by unfold Part.queueLaw Part.queueOrdered; decide, compositionLaw_of_standsComposed (by decide), by decide, _, rfl⟩

/-- Message 3 leaves the region that shows it, and message 127 of the same priority follows it (R94, R116). -/
theorem test_composition :
    ((after (.messageExpired 3) (stateOf shown)).part.disp.cmp.region 0 .line).map (fun x => (x.shown, x.content.codes))
      = some (some 127, [0x43#8]) := by decide

/-- A latched channel over a node that has regions. -/
theorem witness_LatchClearCompletes_regions :
    (latched.node 0).map (·.regions) = some [.prompt, .line]
      ∧ latched.disp.cmp.region 0 .line = some (RegionRecord.fresh .line) := by decide

/-- Car 0 stops at floor 1 with its doors open, to leave downward: its lantern there and the indicator beside it (R37, R54). -/
def stopping : State := written tower 0 0 [4000, 0x200#32, 0x10002#32, 1]

theorem witness_CarRecordCompletes_handOn :
    stopping.Takes (closing 0 0) 1 0xF#4 0 0 (record 0 [4000, 0x200#32, 0x10002#32, 1]) ∧ stopping.part.shaped = true
      ∧ (stopping.part.prm.table.map (·.number)).Nodup ∧ stopping.part.decksOf 0 = [0, 1]
      ∧ ((after (close .carRecord 0 0) stopping).part.deck 0 0).state ≠ (stopping.part.deck 0 0).state
      ∧ (stopping.part.node 1).map (fun n => (n.car, n.deck, n.regions)) = some (0, 0, [.floor, .arrow, .trip])
      ∧ (stopping.part.disp.cmp.region 1 .floor).isSome = true
      ∧ (after (close .carRecord 0 0) stopping).part.arr.lanterns.map (fun l => (l.floor, l.state, l.shown))
        = [(1, .lit, .down)]
      ∧ ((after (close .carRecord 0 0) stopping).part.disp.cmp.region 1 .floor).map (·.content.codes)
        = some [0x83#8, 0x31#8] :=
  ⟨takes (by decide) (by decide) (by decide) (by decide) (by decide), by decide, by decide, by decide, by decide, by decide,
    by decide, by decide, by decide⟩

/-- A departure darkens the lit lantern and holds it; one that has just been withdrawn goes dark too (R50, R55). -/
theorem test_lanternMet :
    ((withCar 0 { tower.car 0 with decks := [{ Deck.fresh with visit := some 1, opened := true }, Deck.fresh] }).lanternMet
        tower 0 ⟨0, 0, 1, .lit, .down, false, .secs 0 false⟩) = ⟨0, 0, 1, .dark, .none, true, .secs 0 false⟩
      ∧ tower.lanternMet (withCar 0 { tower.car 0 with mode := .fireRecall }) 0 ⟨0, 1, 2, .announce, .up, false, .secs 3 false⟩
        = ⟨0, 1, 2, .dark, .none, false, .none⟩
      ∧ tower.lanternMet (withCar 0 { tower.car 0 with mode := .fireRecall }) 0 ⟨31, 0, 2, .lit, .up, false, .none⟩
        = ⟨31, 0, 2, .lit, .up, false, .none⟩ := by decide

/-- R17, R21: a list cut at a bad entry; samples 300 ms and 500 ms old under a window of 400 ms, and at its limit. -/
theorem test_interpretation :
    stopsOf 3 [0, 0, 0x90000#32, 0x02030100#32, 0] = [0, 1]
      ∧ speedOf 400 [(0, 500), (1000, 700), (1500, 1000)] = 1666 ∧ speedOf 500 [(0, 500), (1000, 700), (1500, 1000)] = 3000
      ∧ speedOf 400 [(1500, 1000)] = 0 := by decide

theorem witness_CarStaleCompletes_handOn :
    (silent 0).node 1 = tower.node 1 ∧ ((silent 0).disp.cmp.region 1 .floor).isSome = true
      ∧ ((silent 0).prm.table.map (·.number)).Nodup := by decide

/-- R12: the lower-deck mark, the express text, and the fire mark at floor 0, which has FIRE_ACCESS. -/
theorem test_floorText :
    (withCar 0 { tower.car 0 with mode := .fireRecall, decks := [{ Deck.fresh with state := .stale, accepted := some 0 }, Deck.fresh] }).floorText 0 0
        = [0x83#8, 0x30#8, 0x85#8]
      ∧ (withCar 31 { tower.car 31 with mode := .fireRecall, decks := [{ Deck.fresh with state := .express, accepted := some 0 }, Deck.fresh] }).floorText 31 0
        = [0x45#8]
      ∧ (withCar 0 { tower.car 0 with decks := [{ Deck.fresh with state := .express, accepted := some 1 }, Deck.fresh] }).floorText 0 0
        = [0x83#8, 0x31#8] := by decide

/-- R134: the lowest channel that is on governs; one whose range ends below the node's floor does not. -/
theorem test_governing :
    ((tower.node 191).map latched.governing) = some (some 3) ∧ ((tower.node 191).map tower.governing) = some none
      ∧ inRange (some (0, 1)) (some 1) = true ∧ inRange (some (0, 0)) (some 1) = false ∧ inRange (some (0, 2)) none = false := by
  decide

/-- R62, checks 3 to 5 in their order. -/
theorem test_checkCar :
    tower.checkCar 4 0 0 1 = some .badCar ∧ tower.checkCar 31 1 0 1 = some .badCar ∧ tower.checkCar 0 0 1 1 = some .notServed
      ∧ tower.checkCar 0 1 0 1 = some .notServed ∧ tower.checkCar 0 0 0 1 = none
      ∧ (tower.prmWithdraw 0).checkCar 0 0 0 1 = some .carWithdrawn
      ∧ (tower.prmWithdraw 0).checkCar 0 0 0 2 = some .notServed := by decide

/-- R115: a priority at the threshold is not above it; a SOURCE filter fits no terminal. -/
theorem test_eligible :
    (tower.node 0).map (fun n =>
        (rotationList shown n .line, eligible tower { n with threshold := 4 } .line (showing 4 [0x41#8]),
          eligible tower n .line { showing 4 [0x41#8] with fields := some { lineFields 4 with filter := .source }, cars := [0] },
          eligible tower { n with type := .carPanel } .line
            { showing 4 [0x41#8] with fields := some { lineFields 4 with filter := .source }, cars := [0] }))
      = some ([3, 127], false, false, true) := by decide

/-- Table 11-12: a PAINT of a moving ARROW, DOWN, with two chimes. -/
theorem test_frameBytes :
    (frameBytes 2 255 ⟨.paint, some .arrow, 7, { Content.blank with direction := .down, moving := true }, 2⟩).take 8
        = [2, 2, 255, 2, 7, 2, 2, 6]
      ∧ (frameBytes 2 255 ⟨.paint, some .arrow, 7, { Content.blank with direction := .down, moving := true }, 2⟩).drop 10
        = [0, 0, 0, 0xFF#8] := by decide

/-- An ARROW entry of a kind, version, direction and chime count. -/
def arrowEntry (k : FrameKind) (v : Byte) (d : Direction) (chime : Nat) : QueueEntry :=
  ⟨k, some .arrow, v, { Content.blank with direction := d }, chime⟩

/-- R145: an ALERT replaces a PAINT and carries its chime; a returning frame gives way to the entry, which carries its chime. -/
theorem witness_ReturnTimeoutCompletes_queue :
    enqueue [paintEntry, arrowEntry .paint 1 .up 1] (arrowEntry .alert 2 .up 0) = [arrowEntry .alert 2 .up 1, paintEntry]
      ∧ enqueue [paintEntry, arrowEntry .paint 1 .up 1] (arrowEntry .paint 2 .down 0)
        = [paintEntry, arrowEntry .paint 2 .down 0]
      ∧ requeue [paintEntry, arrowEntry .paint 2 .down 0] (arrowEntry .paint 1 .down 2)
        = [paintEntry, arrowEntry .paint 2 .down 2]
      ∧ requeue [arrowEntry .alert 2 .down 0, pollEntry] paintEntry = [arrowEntry .alert 2 .down 0, paintEntry, pollEntry] := by
  decide

end Sys2Proof.Tests
end

section
/-! SUPPORT and PROOFS. The served-set question (R8) and the state after RESET_N (R164, R166). -/

namespace Sys2Proof.Machine

/-! ### Served sets (R8) -/

/-- A served set read from the configuration holds the floor indices whose mark is set (Table 11-4). -/
theorem mem_readServed (w : Nat → Word) (c first k : Nat) :
    k ∈ readServed w c first ↔ k < Config.maxFloors ∧ (carWord w c (first + k / 32)).getLsbD (k % 32) = true := by
  simp [readServed, bitAt]

theorem Part.serves_iff (p : Part) (c d k : Nat) :
    p.serves c d k = true ↔
      ∃ cfg, p.carConfig c = some cfg ∧ d < cfg.decks ∧ k < p.floorCount ∧ k ∈ cfg.served d := by
  unfold Part.serves
  cases p.carConfig c with
  | none => simp
  | some cfg => simp [and_assoc]

/-- Settles O58: the question unfolds to its four conditions, and each set is the marks of its five words. -/
theorem servesAnswersR8 : Obligations.ServesAnswersR8 :=
  ⟨Part.serves_iff, fun w c k => ⟨mem_readServed w c 5 k, mem_readServed w c 10 k⟩⟩

/-! ### RESET_N (R164, R166) -/

/-- Writing a byte leaves every other byte, whatever the form of the memory. -/
theorem readByte_writeByte_of_ne (m : List Host.Cell) {k j : Nat} (v : Byte) (h : j ≠ k) :
    readByte (writeByte m k v) j = readByte m j := by
  induction m with
  | nil =>
    unfold writeByte
    split <;> simp [readByte, h]
  | cons c rest ih =>
    obtain ⟨k', v'⟩ := c
    unfold writeByte
    split
    · split <;> simp [readByte, h]
    · split
      · next hk =>
        subst hk
        split <;> simp [readByte, h]
      · simp only [readByte, ih]

/-- A byte lane of a write lies in the addressed word. -/
theorem readByte_writeLane_of_ne (m : List Host.Cell) (data : Word) (be : BitVec 4) {a : Addr} {i j : Nat} (hi : i < 4)
    (h : j / 4 ≠ a.toNat) : readByte (writeLane data be a m i) j = readByte m j := by
  unfold writeLane
  split
  · exact readByte_writeByte_of_ne m _ (by omega)
  · rfl

/-- A write leaves every byte outside the addressed word. -/
theorem readByte_writeWord_of_ne (m : List Host.Cell) (data : Word) (be : BitVec 4) {a : Addr} {j : Nat}
    (h : j / 4 ≠ a.toNat) : readByte (writeWord m a data be) j = readByte m j := by
  have lane := fun (m : List Host.Cell) (i : Nat) (hi : i < 4) => readByte_writeLane_of_ne m data be hi h
  simp only [writeWord, List.foldl_cons, List.foldl_nil]
  rw [lane _ 3 (by omega), lane _ 2 (by omega), lane _ 1 (by omega), lane _ 0 (by omega)]

/-- The accesses that pass while RESET_N is asserted leave every byte of a word none of them writes. -/
theorem readByte_memoryAfter_of_ne (passed : List HostAccess) (m : List Host.Cell) {k : Nat}
    (h : ∀ a data be, .write a data be ∈ passed → k / 4 ≠ a.toNat) :
    readByte (memoryAfter m passed) k = readByte m k := by
  induction passed generalizing m with
  | nil => rfl
  | cons x rest ih =>
    have later := fun m => ih m fun a data be ha => h a data be (List.mem_cons_of_mem x ha)
    cases x with
    | write a data be =>
      exact (later _).trans (readByte_writeWord_of_ne m data be (h a data be List.mem_cons_self))
    | read a be => exact later m

/-- Memory takes the writes that pass, in their order. -/
theorem passAccesses_mem (passed : List HostAccess) (x : List Host.Cell × Word) :
    (passed.foldl passAccess x).1 = memoryAfter x.1 passed := by
  induction passed generalizing x with
  | nil => rfl
  | cons y rest ih => cases y <;> exact ih _

/-- The data lines keep their word through accesses none of which is a read. -/
theorem passAccesses_data_of_no_read (passed : List HostAccess) (x : List Host.Cell × Word)
    (h : ∀ a be, .read a be ∉ passed) : (passed.foldl passAccess x).2 = x.2 := by
  induction passed generalizing x with
  | nil => rfl
  | cons y rest ih =>
    have later := fun z => ih z fun a be ha => h a be (List.mem_cons_of_mem y ha)
    cases y with
    | write a data be => exact later _
    | read a be => exact absurd List.mem_cons_self (h a be)

/-- The last read that passes leaves the word it found on the data lines. -/
theorem passAccesses_data_of_last_read (before rest : List HostAccess) (a : Addr) (be : BitVec 4)
    (x : List Host.Cell × Word) (h : ∀ a' be', .read a' be' ∉ rest) :
    ((before ++ .read a be :: rest).foldl passAccess x).2 = readWord (memoryAfter x.1 before) a := by
  rw [List.foldl_append, List.foldl_cons, passAccesses_data_of_no_read rest _ h, ← passAccesses_mem]
  rfl

/-- Every unit of a table formed from one record answers with it. -/
theorem getD_replicate_self {α : Type} (n i : Nat) (x : α) : (List.replicate n x).getD i x = x := by
  rw [List.getD_eq_getElem?_getD, List.getElem?_getD_replicate_default_eq]

/-- Every unit of a table formed with no entry has none. -/
theorem join_getElem?_replicate_none {α : Type} (n i : Nat) :
    ((List.replicate n (none : Option α))[i]?).join = none := by
  rw [List.getElem?_replicate]
  split <;> rfl

@[simp] theorem Part.reset_car (anchor lines : BitVec 4) (c : Nat) : (Part.reset anchor lines).car c = Car.fresh :=
  getD_replicate_self ..

@[simp] theorem Part.reset_deck (anchor lines : BitVec 4) (c d : Nat) :
    (Part.reset anchor lines).deck c d = Deck.fresh := by
  rw [Part.deck, Part.reset_car]
  exact getD_replicate_self 2 d Deck.fresh

@[simp] theorem Part.reset_message (anchor lines : BitVec 4) (m : Nat) :
    (Part.reset anchor lines).message m = Message.fresh := getD_replicate_self ..

@[simp] theorem Part.reset_channel (anchor lines : BitVec 4) (k : Nat) :
    (Part.reset anchor lines).channel k = Channel.reset := getD_replicate_self ..

@[simp] theorem Part.reset_carConfig (anchor lines : BitVec 4) (c : Nat) :
    (Part.reset anchor lines).carConfig c = none := join_getElem?_replicate_none ..

@[simp] theorem Part.reset_node (anchor lines : BitVec 4) (j : Nat) :
    (Part.reset anchor lines).node j = none := join_getElem?_replicate_none ..

@[simp] theorem Part.reset_ring (anchor lines : BitVec 4) (r : Nat) :
    (Part.reset anchor lines).disp.ring r = Ring.reset := getD_replicate_self ..

@[simp] theorem Cmp.reset_region (j : Nat) (r : Region) : Cmp.reset.region j r = none := by
  simp only [Cmp.region, Cmp.reset, List.getElem?_replicate]
  split
  · rfl
  · next h =>
    split at h
    · cases h
      rfl
    · cases h

@[simp] theorem Cmp.reset_reachable (j : Nat) : Cmp.reset.reachable j = false := by
  simp only [Cmp.reachable, Cmp.reset, List.getElem?_replicate]
  split <;> rfl

/-- Four empty windows answer with an empty one at every number. -/
theorem Path.reset_windows {α : Type} (k : Nat) : ([[], [], [], []] : List (List α)).getD k [] = [] :=
  getD_replicate_self 4 k []

theorem Rpt.reset_counter (c : CounterId) : Rpt.reset.counter c = 0 := getD_replicate_self 16 c.index 0

theorem State.resetLine_part (s : State) (anchor : BitVec 4) (passed : List HostAccess) :
    (s.resetLine anchor passed).part =
      { Part.reset anchor s.part.lines with hostData := (passed.foldl passAccess (s.mem, s.part.hostData)).2 } := rfl

theorem State.resetLine_mem (s : State) (anchor : BitVec 4) (passed : List HostAccess) :
    (s.resetLine anchor passed).mem = memoryAfter s.mem passed := passAccesses_mem ..

/-- Settles O2: what passes is followed access by access, and every block's state is its reset record. -/
theorem resetCompletes : Obligations.ResetCompletes := by
  intro anchor passed s
  refine ⟨s.resetLine anchor passed, rfl, rfl, s.resetLine_mem anchor passed, fun k hk => ?_, ?_,
    passAccesses_data_of_no_read passed _, rfl, rfl, rfl, rfl, rfl, Path.reset_windows, Path.reset_windows, rfl, rfl, rfl,
    rfl, rfl, Part.reset_carConfig anchor s.part.lines, Part.reset_node anchor s.part.lines, rfl,
    fun c => getD_replicate_self Config.maxCars c false, rfl, rfl, fun c => getD_replicate_self Config.maxCars c false,
    fun k => getD_replicate_self Config.channels k false,
    fun m => congrArg Message.state (Part.reset_message anchor s.part.lines m),
    fun k => congrArg Channel.state (Part.reset_channel anchor s.part.lines k), rfl, rfl, rfl,
    join_getElem?_replicate_none Config.maxTriggers, Cmp.reset_region, Cmp.reset_reachable,
    fun c d => congrArg Deck.state (Part.reset_deck anchor s.part.lines c d), rfl, rfl, rfl, rfl, rfl, fun i hi => ?_, rfl,
    Rpt.reset_counter, fun r => ?_⟩
  · rw [State.resetLine_mem]
    exact readByte_memoryAfter_of_ne passed s.mem hk
  · rintro before rest a be rfl hrest
    exact passAccesses_data_of_last_read before rest a be _ hrest
  · exact (List.getElem?_replicate).trans (if_pos hi)
  · have hr : (s.resetLine anchor passed).part.disp.ring r = Ring.reset := Part.reset_ring anchor s.part.lines r
    rw [hr]
    exact ⟨rfl, rfl⟩
end Sys2Proof.Machine
end

section
/-! SUPPORT and PROOFS. What a command can do, said once, and the configuration outside a take (R1, R170, R172). -/

namespace Sys2Proof.Machine

/-! ### What a command and a step can do -/

/-- The events of the part's timers, lines and rings, as what they do to the blocks. -/
inductive PartEvent : (Part → Part) → Prop
  | carStale (c : Nat) : PartEvent (·.staleExpiry c)
  | historyEmptied (c : Nat) : PartEvent (·.emptyHistory c)
  | showDeadline (j : Nat) : PartEvent (·.showDeadline j)
  | lifetime : PartEvent (·.lifetime)
  | messageExpired (m : Nat) : PartEvent (·.msgExpire m)
  | dwellDeadline (j : Nat) (r : Region) : PartEvent fun p => { p with disp := dwellDeadline p p.disp j r }
  | lineAccepted (k : Nat) : PartEvent (·.testLine k)
  | lineSampling (levels : BitVec 4) : PartEvent fun p => ({ p with lines := levels }).sampleLines
  | sendFrame (r : Nat) : PartEvent (·.sendFrame r)
  | frameReturn (r : Nat) (port : Port) (bytes : List Byte) : PartEvent (·.frameReturn r port bytes)
  | returnTimeout (r tag : Nat) : PartEvent (·.returnTimeout r tag)
  | trailingTimeout (r tag : Nat) : PartEvent (·.trailingTimeout r tag)
  | busyBackoff (r position : Nat) (region : Option Region) : PartEvent (·.busyBackoff r position region)
  | pollTimer (r position : Nat) : PartEvent (·.pollTimer r position)
  | joinTimer (r position : Nat) : PartEvent (·.joinTimer r position)
  | ringCheck (r : Nat) : PartEvent (·.ringCheck r)
  | traceEnd (r : Nat) : PartEvent (·.traceEnd r)

/-- What a command that is neither RESET_N nor a fault does: a host access, an own access in its turn, an event, or
nothing. -/
inductive CommandStep (s : State) : State → Prop
  | write (a : Addr) (data : Word) (be : BitVec 4) : CommandStep s (s.hostWrite a data be)
  | read (a : Addr) : CommandStep s (s.hostRead a)
  | own (k : OwnKind) : CommandStep s (s.ownTurn k)
  | event {f : Part → Part} (h : PartEvent f) : CommandStep s (s.event f)
  | idle : CommandStep s s

theorem unitStep_eq_next {ok : Bool} {s t : State} : unitStep ok s = .next t ↔ ok = true ∧ s = t := by
  cases ok <;> simp [unitStep]

/-- A command that names a unit does to the state what it does when the unit exists. -/
theorem CommandStep.of_unitStep {ok : Bool} {s s' t : State} (h : unitStep ok s' = .next t) (hs : CommandStep s s') :
    CommandStep s t := (unitStep_eq_next.mp h).2 ▸ hs

/-- A command that always completes. -/
theorem CommandStep.of_next {s s' t : State} (h : (Host.Outcome.next s' : Host.Outcome State Fault Refusal) = .next t)
    (hs : CommandStep s s') : CommandStep s t := by
  cases h
  exact hs

/-- An own access of the report class is performed when the writer's sequence is the one named. -/
theorem CommandStep.own_if (s : State) (c : Prop) [Decidable c] (k : OwnKind) :
    CommandStep s (if c then s.ownTurn k else s) := by
  split
  · exact .own k
  · exact .idle

/-- Every command that completes is RESET_N or one of the five steps. -/
theorem exec_cases {c : Instr} {s t : State} (h : exec c s = .next t) :
    (∃ anchor passed, c = .resetN anchor passed ∧ t = s.resetLine anchor passed) ∨ CommandStep s t := by
  cases c with
  | resetN anchor passed =>
    cases h
    exact .inl ⟨anchor, passed, rfl, rfl⟩
  | takeFull | takeParams | countersClear | statisticsClear | repaint | hostWrite | mirrorMerge | carRecord | assignNew
  | assignCancel | assignReassign | messageDefine | messageActivate | messageCancel | messageClear | overrideActivate
  | overrideRelease | textAreaWrite =>
    cases h
    exact .inr (.write _ _ _)
  | modified | latchClear => exact .inr (.of_unitStep h (.write _ _ _))
  | takeWordRead => exact .inr (.of_next h (.own .takeWord))
  | takeRead => exact .inr (.of_next h (.own .takeRead))
  | takeResultWrite => exact .inr (.of_next h (.own .takeResult))
  | textRead => exact .inr (.of_next h (.own .text))
  | consume addr _ => exact .inr (.of_next h (.read addr))
  | reportEntryWrite => exact .inr (.of_next h (.own_if s _ .report))
  | statusRecordWrite => exact .inr (.of_next h (.own_if s _ .report))
  | serviceWordWriteBack => exact .inr (.of_next h (.own_if s _ .report))
  | carStale c => exact .inr (.of_unitStep h (.event (.carStale c)))
  | positionHistoryEmptied c => exact .inr (.of_unitStep h (.event (.historyEmptied c)))
  | showDeadline j => exact .inr (.of_unitStep h (.event (.showDeadline j)))
  | lifetime => exact .inr (.of_next h (.event .lifetime))
  | messageExpired m => exact .inr (.of_unitStep h (.event (.messageExpired m)))
  | dwellDeadline j r => exact .inr (.of_unitStep h (.event (.dwellDeadline j r)))
  | lineAccepted k => exact .inr (.of_unitStep h (.event (.lineAccepted k)))
  | lineSampling levels => exact .inr (.of_next h (.event (.lineSampling levels)))
  | sendFrame r => exact .inr (.of_unitStep h (.event (.sendFrame r)))
  | frameReturn r port bytes => exact .inr (.of_unitStep h (.event (.frameReturn r port bytes)))
  | returnTimeout r tag => exact .inr (.of_unitStep h (.event (.returnTimeout r tag)))
  | trailingTimeout r tag => exact .inr (.of_unitStep h (.event (.trailingTimeout r tag)))
  | busyBackoff r position region => exact .inr (.of_unitStep h (.event (.busyBackoff r position region)))
  | pollTimer r position => exact .inr (.of_unitStep h (.event (.pollTimer r position)))
  | joinTimer r position => exact .inr (.of_unitStep h (.event (.joinTimer r position)))
  | ringCheck r => exact .inr (.of_unitStep h (.event (.ringCheck r)))
  | traceEnd r => exact .inr (.of_unitStep h (.event (.traceEnd r)))

/-- A step executes a command, or lets a tenth of a millisecond pass. -/
theorem step_cases {s t : State} (h : step s = .next t) :
    (∃ c s', s'.part = s.part ∧ exec c s' = .next t) ∨ t.part = s.part.tick := by
  unfold step at h
  split at h
  · next c rest _ => exact .inl ⟨c, { s with pending := rest }, rfl, h⟩
  · split at h
    · exact .inl ⟨_, s, rfl, h⟩
    · cases h
      exact .inr rfl

/-! ### Operations that leave the configuration -/

theorem Part.sameConfig.refl (p : Part) : p.sameConfig p := ⟨rfl, rfl, rfl, rfl, rfl⟩

theorem Part.sameConfig_of_base {p q : Part} (h : p.base = q.base) : p.sameConfig q := (Part.same_of_base h).1

/-- A change of PATH that keeps the watch map and the straps keeps the configuration. -/
theorem Part.onPath_sameConfig (p : Part) {f : Path → Path} (hw : (f p.path).watch = p.path.watch)
    (ha : (f p.path).anchor = p.path.anchor) : (p.onPath f).sameConfig p := ⟨rfl, rfl, rfl, hw, ha⟩

theorem Part.startTake_sameConfig (p : Part) (k : TakeKind) : (p.startTake k).sameConfig p := by
  unfold Part.startTake
  split
  · exact .refl p
  · exact p.onPath_sameConfig rfl rfl
  · exact p.onPath_sameConfig rfl rfl

theorem Part.judge_sameConfig (p : Part) (v : Word) : (p.judge v).sameConfig p := by
  unfold Part.judge
  split
  · exact p.startTake_sameConfig .full
  · split
    · exact p.startTake_sameConfig .params
    · exact .refl p

theorem Part.learn_sameConfig (p : Part) (v : Option Word) : (p.learn v).sameConfig p := p.onPath_sameConfig rfl rfl

theorem Part.writeTakeWord_sameConfig (p : Part) (data : Word) (be : BitVec 4) :
    (p.writeTakeWord data be).sameConfig p := by
  unfold Part.writeTakeWord
  split
  · exact p.learn_sameConfig _
  · simp only [Part.takeWordWrite]
    split
    · exact (Part.judge_sameConfig _ _).trans (p.learn_sameConfig _)
    · exact (Part.onPath_sameConfig _ rfl rfl).trans (p.learn_sameConfig _)

theorem Path.modified_watch (x : Path) : x.modified.watch = x.watch := by
  unfold Path.modified
  split
  · rfl
  · split <;> rfl

theorem Path.modified_anchor (x : Path) : x.modified.anchor = x.anchor := by
  unfold Path.modified
  split
  · rfl
  · split <;> rfl

theorem Path.mergeTake_watch (x : Path) (a : Nat) (data : Word) (be : BitVec 4) :
    (x.mergeTake a data be).watch = x.watch := by
  unfold Path.mergeTake
  split <;> rfl

theorem Path.mergeTake_anchor (x : Path) (a : Nat) (data : Word) (be : BitVec 4) :
    (x.mergeTake a data be).anchor = x.anchor := by
  unfold Path.mergeTake
  split <;> rfl

theorem Part.anchorWrite_sameConfig (p : Part) (a : Nat) (data : Word) (be : BitVec 4) :
    (p.anchorWrite a data be).sameConfig p := by
  have asked : (if a = p.path.takeAddress then p.writeTakeWord data be
      else if a = p.path.serviceAddress then p.serviceWrite (enabledBits data be) else p).sameConfig p := by
    split
    · exact p.writeTakeWord_sameConfig data be
    · split
      · exact Part.sameConfig_of_base (p.serviceWrite_base _)
      · exact .refl p
  simp only [Part.anchorWrite]
  split
  · exact (Part.onPath_sameConfig _ (Path.modified_watch _) (Path.modified_anchor _)).trans asked
  · exact asked

theorem Part.handRecord_base (p : Part) (k slot : Nat) (words : List Word) :
    (p.handRecord k slot words).base = p.base := by
  unfold Part.handRecord
  split
  · exact p.trkRecord_base slot words
  · exact p.msgRecord_base slot words
  · exact p.prmRecord_base slot words
  · exact p.ovrRecord_base words

theorem Part.capture_sameConfig (p : Part) (k i : Nat) (data : Word) (be : BitVec 4) :
    (p.capture k i data be).sameConfig p := by
  have merged : (p.onPath (·.mergeMirror k i data be)).sameConfig p := p.onPath_sameConfig rfl rfl
  simp only [Part.capture]
  split
  · refine Part.sameConfig.trans ?_ merged
    simp only [Part.closeRecord]
    split
    · exact Part.sameConfig_of_base (Part.count_base _ _ _)
    · exact (Part.sameConfig_of_base (Part.handRecord_base _ _ _ _)).trans (Part.onPath_sameConfig _ rfl rfl)
  · exact merged

/-- What PATH does on watching a host write leaves the configuration (R165, R169, R176). -/
theorem Part.watchWrite_sameConfig (p : Part) (a : Nat) (data : Word) (be : BitVec 4) :
    (p.watchWrite a data be).sameConfig p := by
  have merged : (p.onPath (·.mergeTake a data be)).sameConfig p :=
    p.onPath_sameConfig (Path.mergeTake_watch ..) (Path.mergeTake_anchor ..)
  simp only [Part.watchWrite]
  refine Part.sameConfig.trans ?_ merged
  split
  · exact Part.anchorWrite_sameConfig _ _ _ _
  · split
    · exact Part.capture_sameConfig _ _ _ _ _
    · split
      · exact Part.sameConfig_of_base (Part.textWrite_base _ _)
      · exact .refl _

theorem Part.watchRead_sameConfig (p : Part) (a : Nat) (v : Word) : (p.watchRead a v).sameConfig p := by
  have learned : (if a = p.path.takeAddress then p.learn (some v) else p).sameConfig p := by
    split
    · exact p.learn_sameConfig _
    · exact .refl p
  simp only [Part.watchRead]
  split
  · exact learned
  · exact (Part.sameConfig_of_base (Part.onRpt_base _ _)).trans learned

theorem Part.sampleLines_sameConfig (p : Part) : p.sampleLines.sameConfig p := by
  unfold Part.sampleLines
  split <;> exact ⟨rfl, rfl, rfl, rfl, rfl⟩

/-- No event of a timer, line or ring touches the configuration. -/
theorem PartEvent.sameConfig {f : Part → Part} (h : PartEvent f) (p : Part) : (f p).sameConfig p := by
  cases h with
  | carStale c => exact Part.sameConfig_of_base (p.staleExpiry_base c)
  | historyEmptied c => exact Part.sameConfig_of_base (p.emptyHistory_base c)
  | showDeadline j => exact Part.sameConfig_of_base (p.showDeadline_base j)
  | lifetime => exact Part.sameConfig_of_base p.lifetime_base
  | messageExpired m => exact Part.sameConfig_of_base (p.msgExpire_base m)
  | dwellDeadline j r => exact .refl p
  | lineAccepted k => exact Part.sameConfig_of_base (p.testLine_base k)
  | lineSampling levels => exact Part.sampleLines_sameConfig { p with lines := levels }
  | sendFrame r => exact Part.sameConfig_of_base (p.sendFrame_base r)
  | frameReturn r port bytes => exact Part.sameConfig_of_base (p.frameReturn_base r port bytes)
  | returnTimeout r tag => exact Part.sameConfig_of_base (p.returnTimeout_base r tag)
  | trailingTimeout r tag => exact Part.sameConfig_of_base (p.trailingTimeout_base r tag)
  | busyBackoff r position region => exact Part.sameConfig_of_base (p.busyBackoff_base r position region)
  | pollTimer r position => exact Part.sameConfig_of_base (p.pollTimer_base r position)
  | joinTimer r position => exact Part.sameConfig_of_base (p.joinTimer_base r position)
  | ringCheck r => exact Part.sameConfig_of_base (p.ringCheck_base r)
  | traceEnd r => exact Part.sameConfig_of_base (p.traceEnd_base r)

/-! ### Own accesses outside a take -/

theorem Part.settle_take (p : Part) : p.settle.path.take = p.path.take :=
  (Part.joinOwn_take _).trans (congrArg Path.take (path_of_base (Part.txfPump_base p)))

/-- A part with no take has no result due. -/
theorem Path.resultDue_of_no_take {x : Path} (h : x.take = none) : x.resultDue = false := by
  unfold Path.resultDue
  rw [h]

theorem Path.resultDue_congr {x y : Path} (h : x.take = y.take) : x.resultDue = y.resultDue := by
  unfold Path.resultDue
  rw [h]

/-- With no result due, the turn of the result write changes nothing. -/
theorem State.writeTakeResult_of_not_due {s : State} (h : s.part.path.resultDue = false) : s.writeTakeResult = s := by
  unfold Path.resultDue at h
  unfold State.writeTakeResult
  split
  · rfl
  · next t ht =>
    rw [ht] at h
    split
    · rfl
    · next hr => simp [hr] at h

theorem State.readTakeWord_sameConfig (s : State) : s.readTakeWord.part.sameConfig s.part :=
  (Part.judge_sameConfig _ _).trans ((Part.onPath_sameConfig _ rfl rfl).trans (s.part.learn_sameConfig _))

theorem State.readTake_sameConfig (s : State) : s.readTake.part.sameConfig s.part := by
  unfold State.readTake
  split
  · exact .refl _
  · split
    · exact .refl _
    · refine Part.sameConfig.trans (Part.onPath_sameConfig _ rfl rfl) ?_
      split
      · exact s.part.learn_sameConfig _
      · exact .refl _

theorem State.ownWrite_part (s : State) (w : Option OwnWrite) : (s.ownWrite w).part = s.part := by
  unfold State.ownWrite
  split <;> rfl

theorem State.writeReport_part (s : State) :
    s.writeReport.part = s.part.onRpt fun r => (r.write s.part.path.serviceAddress).1 := by
  unfold State.writeReport
  rw [State.onPart_part, State.ownWrite_part]
  rfl

theorem State.readText_base (s : State) : s.readText.part.base = s.part.base := by
  unfold State.readText
  split
  · rfl
  · exact Part.textData_base _ _

/-- Without a result due, no own access changes the configuration. -/
theorem State.performOwn_sameConfig {s : State} (h : s.part.path.resultDue = false) (k : OwnKind) :
    (s.performOwn k).part.sameConfig s.part := by
  refine (Part.settle_same _).1.trans
    (Part.sameConfig.trans (q := (s.onPart fun p => p.onPath (·.leave k)).part) ?_ (Part.onPath_sameConfig _ rfl rfl))
  cases k with
  | takeWord => exact State.readTakeWord_sameConfig _
  | takeRead => exact State.readTake_sameConfig _
  | takeResult =>
    rw [State.writeTakeResult_of_not_due (s := s.onPart fun p => p.onPath (·.leave .takeResult)) h]
    exact .refl _
  | report =>
    rw [State.writeReport_part]
    exact Part.sameConfig_of_base (Part.onRpt_base _ _)
  | text => exact Part.sameConfig_of_base (State.readText_base _)

/-- Judging the take word leaves no result due where no take was in progress: a take that begins has read nothing. -/
theorem Part.judge_not_due {p : Part} (h : p.path.take = none) (v : Word) : (p.judge v).path.resultDue = false := by
  have begun : ∀ k, (p.startTake k).path.resultDue = false := by
    intro k
    unfold Part.startTake
    split
    · exact Path.resultDue_of_no_take h
    · rfl
    · rfl
  unfold Part.judge
  split
  · exact begun .full
  · split
    · exact begun .params
    · exact Path.resultDue_of_no_take h

/-- Outside a take no own access makes a result due. -/
theorem State.performOwn_not_due {s : State} (h : s.part.path.take = none) (k : OwnKind) :
    (s.performOwn k).part.path.resultDue = false := by
  refine (Path.resultDue_congr (Part.settle_take _)).trans ?_
  cases k with
  | takeWord =>
    refine Part.judge_not_due ?_ _
    exact h
  | takeRead =>
    refine Path.resultDue_of_no_take ?_
    simp [State.readTake, h]
  | takeResult =>
    refine Path.resultDue_of_no_take ?_
    simp [State.writeTakeResult, h]
  | report =>
    simp only [State.writeReport_part]
    exact Path.resultDue_of_no_take h
  | text =>
    refine Path.resultDue_of_no_take ?_
    exact (congrArg Path.take (path_of_base (State.readText_base _))).trans h

/-- Outside a take, clearing a due result leaves no take. -/
theorem State.clearResult_take {s : State} (h : s.part.path.take = none) : s.clearResult.part.path.take = none := by
  unfold State.clearResult
  split
  · refine (Part.settle_take _).trans ?_
    simp [State.writeTakeResult, h]
  · exact h

theorem State.clearResult_sameConfig {s : State} (h : s.part.path.resultDue = false) :
    s.clearResult.part.sameConfig s.part := by
  unfold State.clearResult
  split
  · exact State.performOwn_sameConfig h .takeResult
  · exact .refl _

/-- Outside a take, what a host access waits for leaves the configuration (R173, R179). -/
theorem State.release_sameConfig {s : State} (h : s.part.path.take = none) : s.release.part.sameConfig s.part := by
  have cleared := State.clearResult_sameConfig (Path.resultDue_of_no_take h)
  have still := State.clearResult_take h
  simp only [State.release]
  split
  · exact cleared
  · next k _ =>
    exact (State.clearResult_sameConfig (State.performOwn_not_due still k)).trans
      ((State.performOwn_sameConfig (Path.resultDue_of_no_take still) k).trans cleared)

/-- Settles O15: a command outside a take watches, answers or performs an own access with no result due, and each of these
keeps the configuration. -/
theorem configurationNeedsATake : Obligations.ConfigurationNeedsATake := by
  intro c s t htake hreset h
  obtain ⟨anchor, passed, rfl, -⟩ | hstep := exec_cases h
  · exact absurd rfl (hreset anchor passed)
  cases hstep with
  | write a data be =>
    exact (Part.settle_same _).1.trans ((Part.watchWrite_sameConfig _ _ _ _).trans
      ((Part.onPath_sameConfig _ rfl rfl).trans (State.release_sameConfig htake)))
  | read a =>
    exact (Part.settle_same _).1.trans ((Part.watchRead_sameConfig _ _ _).trans
      (Part.sameConfig.trans (q := s.release.part) ⟨rfl, rfl, rfl, rfl, rfl⟩ (State.release_sameConfig htake)))
  | own k =>
    unfold State.ownTurn
    split
    · exact State.performOwn_sameConfig (Path.resultDue_of_no_take htake) k
    · exact .refl _
  | event hf => exact (Part.settle_same _).1.trans (hf.sameConfig s.part)
  | idle => exact .refl _

end Sys2Proof.Machine
end

section
/-! SUPPORT and PROOFS. The validation of a take copy, stage by stage (R170), and the reads that fill it (R168). -/

namespace Sys2Proof.Machine

/-! ### Lists of checks -/

theorem failIf_eq_none {bad : Bool} {code entry : Nat} : failIf bad code entry = none ↔ bad = false := by
  unfold failIf
  cases bad <;> simp

theorem firstFailure_range_eq_none {n : Nat} {check : Nat → Option Failure} :
    firstFailure (List.range n) check = none ↔ ∀ i < n, check i = none := by
  simp [firstFailure, List.findSome?_eq_none_iff]

/-- The first failing check of a range gives the failure. -/
theorem firstFailure_range_eq_some {n i : Nat} {check : Nat → Option Failure} {f : Failure} (hi : i < n)
    (before : ∀ k < i, check k = none) (h : check i = some f) : firstFailure (List.range n) check = some f := by
  induction n with
  | zero => omega
  | succ n ih =>
    have split : firstFailure (List.range (n + 1)) check
        = (firstFailure (List.range n) check).or (firstFailure [n] check) := by
      simp [firstFailure, List.range_succ, List.findSome?_append]
    rw [split]
    obtain hlt | rfl : i < n ∨ i = n := by omega
    · rw [ih hlt]
      rfl
    · rw [firstFailure_range_eq_none.mpr before]
      simp [firstFailure, h]

/-! ### The stages (R170) -/

theorem headerStage_eq_none {w : Nat → Word} : headerStage w = none ↔ headerPasses w := by
  simp [headerStage, headerPasses, Option.or_eq_none_iff, failIf_eq_none]

/-- Two runs share no word exactly when one ends before the other begins. -/
theorem shareWord_eq_false {b1 l1 b2 l2 : Nat} : shareWord b1 l1 b2 l2 = false ↔ apart b1 l1 b2 l2 := by
  simp only [shareWord, apart, Bool.and_eq_false_iff, decide_eq_false_iff_not, not_lt]
  omega

theorem windowMinimum_eq : ∀ i < 8, windowMinimum i = [512, 1024, 512, 8, 2048, 1, 1, 1].getD i 0 := by decide

theorem windowFailure_eq_none {anchor : Nat} {w : Nat → Word} {i : Nat} (hi : i < 8) :
    windowFailure anchor w i = none ↔
      (i = 4 → (readWindow w 4).present = true) ∧
        ((readWindow w i).present = true →
          [512, 1024, 512, 8, 2048, 1, 1, 1].getD i 0 ≤ (readWindow w i).length
            ∧ (readWindow w i).base + (readWindow w i).length ≤ 16777216
            ∧ apart (readWindow w i).base (readWindow w i).length anchor 4096
            ∧ ∀ k < i, (readWindow w k).present = true →
              apart (readWindow w i).base (readWindow w i).length (readWindow w k).base (readWindow w k).length) := by
  rw [← windowMinimum_eq i hi]
  simp only [windowFailure, Option.or_eq_none_iff, failIf_eq_none, Bool.or_eq_false_iff, Bool.and_eq_false_iff,
    decide_eq_false_iff_not, not_lt, shareWord_eq_false, List.any_eq_false, List.mem_range, Bool.and_eq_true,
    Config.anchorWords, not_and, Bool.not_eq_true, Bool.not_eq_false', and_assoc]
  constructor
  · rintro ⟨h4, hsize, hover⟩
    refine ⟨fun h => h ▸ h4.resolve_left (not_not_intro h), fun hp => ?_⟩
    obtain hp' | ⟨hmin, hend⟩ := hsize
    · simp [hp] at hp'
    obtain hp' | ⟨hanchor, hbelow⟩ := hover
    · simp [hp] at hp'
    exact ⟨hmin, hend, hanchor, hbelow⟩
  · rintro ⟨h4, h⟩
    cases hp : (readWindow w i).present with
    | false =>
      refine ⟨.inl fun h => ?_, .inl rfl, .inl rfl⟩
      subst h
      simp [h4 rfl] at hp
    | true =>
      obtain ⟨hmin, hend, hanchor, hbelow⟩ := h hp
      exact ⟨.inr rfl, .inr ⟨hmin, hend⟩, .inr ⟨hanchor, hbelow⟩⟩

theorem windowsStage_eq_none {anchor : Nat} {w : Nat → Word} :
    windowsStage anchor w = none ↔ windowsPass anchor w := by
  unfold windowsStage windowsPass
  rw [firstFailure_range_eq_none]
  constructor
  · intro h
    exact ⟨((windowFailure_eq_none (by omega)).mp (h 4 (by omega))).1 rfl,
      fun i hi => ((windowFailure_eq_none hi).mp (h i hi)).2⟩
  · rintro ⟨h4, h⟩ i hi
    exact (windowFailure_eq_none hi).mpr ⟨fun _ => h4, h i hi⟩

theorem badCodes_eq_false {label : List Byte} : badCodes label = false ↔ permitted label := by
  simp [badCodes, permitted]

theorem floorFailure_eq_none {w : Nat → Word} {k : Nat} :
    floorFailure w k = none ↔
      (readFloor w k).label ≠ [] ∧ permitted (readFloor w k).label
        ∧ (if k = 0 then (readFloor w k).level = 0 else (readFloor w (k - 1)).level + 2000 ≤ (readFloor w k).level) := by
  simp only [floorFailure, Option.or_eq_none_iff, failIf_eq_none, Bool.or_eq_false_iff, badCodes_eq_false,
    List.isEmpty_eq_false_iff, Bool.and_eq_false_iff, decide_eq_false_iff_not, not_lt, and_assoc]
  by_cases hk : k = 0
  · simp [hk]
  · simp only [hk, if_false, not_false_eq_true, not_true_eq_false, false_or, not_le, decide_eq_false_iff_not, ne_eq]
    constructor
    · rintro ⟨hl, hp, -, hgap⟩
      exact ⟨hl, hp, hgap⟩
    · rintro ⟨hl, hp, hgap⟩
      exact ⟨hl, hp, by omega, hgap⟩

theorem floorsStage_eq_none {w : Nat → Word} : floorsStage w = none ↔ floorsPass w := by
  simp only [floorsStage, floorsPass, Option.or_eq_none_iff, failIf_eq_none, firstFailure_range_eq_none,
    floorFailure_eq_none, decide_eq_false_iff_not, not_lt]

/-- A served set passes R9 exactly when `badServed` finds nothing; the level check is an upper deck's. -/
theorem badServed_eq_false {w : Nat → Word} {served : List Nat} {upper : Bool} {spacing : Nat} :
    badServed w served upper spacing = false ↔ servedPass w served (if upper then spacing else 0) := by
  simp only [badServed, servedPass, Bool.or_eq_false_iff, Bool.and_eq_false_iff, Bool.not_eq_false', List.any_eq_true,
    List.any_eq_false, decide_eq_true_eq, not_le, not_lt, Bool.not_eq_true', Bool.not_eq_false]
  constructor
  · rintro ⟨⟨⟨⟨k, hk, -⟩, hcount⟩, hland⟩, hlevel⟩
    refine ⟨List.ne_nil_of_mem hk, fun j hj => ⟨hcount j hj, hland j hj, ?_⟩⟩
    cases upper with
    | false => exact Nat.zero_le _
    | true => exact (hlevel.resolve_left (by simp)) j hj
  · rintro ⟨hne, h⟩
    obtain ⟨k, hk⟩ := List.exists_mem_of_ne_nil served hne
    refine ⟨⟨⟨⟨k, hk, (h k hk).1⟩, fun j hj => (h j hj).1⟩, fun j hj => (h j hj).2.1⟩, ?_⟩
    cases upper with
    | false => exact .inl rfl
    | true => exact .inr fun j hj => (h j hj).2.2

theorem readDeglitch_isNone {code : Nat} : (readDeglitch code).isNone = false ↔ code < 4 := by
  match code with
  | 0 | 1 | 2 | 3 => simp [readDeglitch]
  | _ + 4 => simp [readDeglitch]

theorem badCarValues_eq_false {w : Nat → Word} {c : Nat} :
    badCarValues w c = false ↔
      (500 ≤ (readCar w c).vRated ∧ (readCar w c).vRated ≤ 16000) ∧ (30 ≤ (readCar w c).zone ∧ (readCar w c).zone ≤ 900)
        ∧ field (carWord w c 0) 16 3 < 4 ∧ ((readCar w c).decks = 1 ∨ (readCar w c).decks = 2) := by
  simp only [badCarValues, Bool.or_eq_false_iff, Bool.and_eq_false_iff, decide_eq_false_iff_not, not_lt,
    readDeglitch_isNone, not_not, ne_eq, and_assoc]

theorem carFailure_eq_none {w : Nat → Word} {c : Nat} :
    carFailure w c = none ↔ (carConfigured w c = true → carPasses w c) := by
  cases hc : carConfigured w c with
  | false => simp [carFailure, hc]
  | true =>
    simp only [carFailure, hc, if_true, Option.or_eq_none_iff, failIf_eq_none, badCarValues_eq_false,
      Bool.or_eq_false_iff, Bool.and_eq_false_iff, badCodes_eq_false, badServed_eq_false, List.isEmpty_eq_false_iff,
      decide_eq_false_iff_not, not_lt, carPasses, not_true_eq_false, false_or, Bool.false_eq_true, if_false, imp_iff_not_or,
      and_assoc]

theorem carsStage_eq_none {w : Nat → Word} :
    carsStage w = none ↔ carConfigured w 0 = true ∧ ∀ c < 32, carConfigured w c = true → carPasses w c := by
  simp only [carsStage, Option.or_eq_none_iff, failIf_eq_none, firstFailure_range_eq_none, carFailure_eq_none,
    Bool.not_eq_false', Config.maxCars]

theorem badCarBinding_eq_false {w : Nat → Word} {car deck : Nat} :
    badCarBinding w car deck = false ↔ car < 32 ∧ carConfigured w car = true ∧ deck < (readCar w car).decks := by
  simp only [badCarBinding, Bool.or_eq_false_iff, Bool.not_eq_false', Bool.and_eq_true, decide_eq_true_eq,
    decide_eq_false_iff_not, not_le, and_assoc]
  rfl

theorem badBinding_eq_false {w : Nat → Word} {n : NodeConfig} :
    badBinding w n = false ↔
      (n.type = .carPanel ∨ n.type = .hallLantern →
          n.car < 32 ∧ carConfigured w n.car = true ∧ n.deck < (readCar w n.car).decks)
        ∧ (n.type ≠ .carPanel → n.floor < floorCount w) := by
  unfold badBinding
  cases n.type <;> simp [badCarBinding_eq_false]

theorem badBearing_eq_false {b : Nat} : badBearing b = false ↔ b = 0 ∨ (6 ≤ b ∧ b ≤ 9) := by
  simp [badBearing]
  omega

theorem readNode_ring {w : Nat → Word} {j : Nat} {n : NodeConfig} (h : readNode w j = some n) :
    nodeRing w j = n.ring ∧ nodePosition w j = n.position := by
  obtain ⟨type, -, rfl⟩ := Option.map_eq_some_iff.mp h
  exact ⟨rfl, rfl⟩

theorem badNode_eq_false {w : Nat → Word} {j : Nat} :
    badNode w j = false ↔
      ∃ n, readNode w j = some n ∧ n.ring < 6 ∧ 1 ≤ n.position ∧ n.position ≤ 32 ∧ badBinding w n = false
        ∧ (n.type = .terminal → ∀ b ∈ n.bearings, b = 0 ∨ (6 ≤ b ∧ b ≤ 9)) := by
  unfold badNode
  cases readNode w j with
  | none => simp
  | some n =>
    simp only [Option.some.injEq, exists_eq_left', Bool.or_eq_false_iff, Bool.and_eq_false_iff, decide_eq_false_iff_not,
      not_le, not_lt, List.any_eq_false, Bool.not_eq_true, badBearing_eq_false, imp_iff_not_or,
      Nat.one_le_iff_ne_zero, and_assoc]
    rfl

theorem duplicateNode_eq_false {w : Nat → Word} {j : Nat} {n : NodeConfig} (h : readNode w j = some n) :
    duplicateNode w j = false ↔
      ∀ k < j, nodeTypeCode w k ≠ 0 → ¬(nodeRing w k = n.ring ∧ nodePosition w k = n.position) := by
  obtain ⟨hring, hposition⟩ := readNode_ring h
  simp only [duplicateNode, hring, hposition, List.any_eq_false, List.mem_range, Bool.and_eq_true, nodeInUse,
    decide_eq_true_eq, not_and, and_imp]

theorem nodeFailure_eq_none {w : Nat → Word} {j : Nat} :
    nodeFailure w j = none ↔ (nodeTypeCode w j ≠ 0 → nodePasses w j) := by
  by_cases hj : nodeTypeCode w j = 0
  · simp [nodeFailure, nodeInUse, hj]
  · simp only [nodeFailure, nodeInUse, hj, decide_true, ne_eq, not_false_eq_true, if_true, Option.or_eq_none_iff,
      failIf_eq_none, true_imp_iff, badNode_eq_false, nodePasses]
    constructor
    · rintro ⟨⟨n, hn, hr, hp, hp', hb, ht⟩, hd⟩
      obtain ⟨hcar, hfloor⟩ := badBinding_eq_false.mp hb
      exact ⟨n, hn, hr, hp, hp', hcar, hfloor, ht, (duplicateNode_eq_false hn).mp hd⟩
    · rintro ⟨n, hn, hr, hp, hp', hcar, hfloor, ht, hd⟩
      exact ⟨⟨n, hn, hr, hp, hp', badBinding_eq_false.mpr ⟨hcar, hfloor⟩, ht⟩, (duplicateNode_eq_false hn).mpr hd⟩

theorem ringFailure_eq_none {w : Nat → Word} {r : Nat} :
    ringFailure w r = none ↔
      (ringPositions w r ≠ [] → 1 ≤ readRingWindow w r ∧ readRingWindow w r ≤ 4
        ∧ ∀ q ∈ ringPositions w r, q ≤ (ringPositions w r).length) := by
  simp only [ringFailure, failIf_eq_none, Bool.and_eq_false_iff, Bool.or_eq_false_iff, Bool.not_eq_false',
    List.isEmpty_iff, decide_eq_false_iff_not, not_lt, List.any_eq_false, decide_eq_true_eq, imp_iff_not_or, not_not,
    ne_eq, Nat.one_le_iff_ne_zero, and_assoc]

theorem nodesStage_eq_none {w : Nat → Word} :
    nodesStage w = none ↔
      (∀ j < 192, nodeTypeCode w j ≠ 0 → nodePasses w j)
        ∧ ∀ r < 6, ringPositions w r ≠ [] → 1 ≤ readRingWindow w r ∧ readRingWindow w r ≤ 4
          ∧ ∀ q ∈ ringPositions w r, q ≤ (ringPositions w r).length := by
  simp only [nodesStage, Option.or_eq_none_iff, firstFailure_range_eq_none, nodeFailure_eq_none, ringFailure_eq_none,
    Config.maxNodes, Config.rings]

theorem badTrigger_eq_false {w : Nat → Word} {t : Nat} : badTrigger w t = false ↔ triggerPasses w t := by
  simp only [badTrigger, triggerPasses, Bool.or_eq_false_iff, Bool.and_eq_false_iff, Bool.not_eq_false', Bool.and_eq_true,
    decide_eq_true_eq, decide_eq_false_iff_not, not_lt, not_le, ne_eq, and_assoc]
  constructor
  · rintro ⟨hs, hc, hw, hm, hk, he, ha, hid, hrep⟩
    exact ⟨hs, hc, hw, hm, hk, he, ha, fun h => hid.resolve_left (by omega), not_and_or.mpr hrep⟩
  · rintro ⟨hs, hc, hw, hm, hk, he, ha, hid, hrep⟩
    exact ⟨hs, hc, hw, hm, hk, he, ha, or_iff_not_imp_left.mpr fun h => hid (by omega), not_and_or.mp hrep⟩

theorem triggersStage_eq_none {w : Nat → Word} :
    triggersStage w = none ↔ ∀ t < 32, triggerInUse w t = true → triggerPasses w t := by
  simp only [triggersStage, firstFailure_range_eq_none, failIf_eq_none, Bool.and_eq_false_iff, badTrigger_eq_false,
    Config.maxTriggers, imp_iff_not_or, Bool.not_eq_true]

theorem badChannel_eq_false {w : Nat → Word} {n : Nat} : badChannel w n = false ↔ channelPasses w n := by
  simp only [badChannel, channelPasses, Bool.or_eq_false_iff, decide_eq_false_iff_not, not_lt, and_assoc]
  cases readRange (channelWord w n 1) with
  | none => simp
  | some x =>
    obtain ⟨lo, hi⟩ := x
    simp

theorem overridesStage_eq_none {w : Nat → Word} : overridesStage w = none ↔ ∀ n < 4, channelPasses w n := by
  simp only [overridesStage, firstFailure_range_eq_none, failIf_eq_none, badChannel_eq_false, Config.channels]

/-- Table 9-2 row by row. -/
theorem paramRange_eq :
    ∀ i < 31, paramRange i =
      ([200, 200, 0, 0, 20, 2000, 0, 0, 0, 0, 2000, 1000, 30, 2000, 1000, 1000, 100, 2, 2, 2, 2, 2, 2, 0, 0, 0, 0, 0, 0,
        1, 0].getD i 0,
       [5000, 2000, 3000, 10000, 500, 30000, 10000, 10000, 9, 10, 15000, 15000, 600, 20000, 8000, 60000, 5000, 50, 50,
        50, 50, 50, 50, 7, 7, 7, 7, 7, 7, 100, 3].getD i 0) := by decide

theorem paramsStage_eq_none {w : Nat → Word} : paramsStage w = none ↔ paramsPass w := by
  simp only [paramsStage, firstFailure_range_eq_none, failIf_eq_none, Bool.or_eq_false_iff, decide_eq_false_iff_not,
    not_lt, paramsPass]
  exact forall₂_congr fun i hi => by rw [paramRange_eq i hi]

/-! ### The whole validation (R170) -/

theorem validate_full_eq_none {anchor : Nat} {w : Nat → Word} :
    validate anchor .full w = none ↔ Acceptable anchor w := by
  simp only [validate, Option.or_eq_none_iff, headerStage_eq_none, windowsStage_eq_none, floorsStage_eq_none,
    carsStage_eq_none, nodesStage_eq_none, triggersStage_eq_none, overridesStage_eq_none, paramsStage_eq_none]
  constructor
  · rintro ⟨⟨⟨hh, hw⟩, hf, hc0, hc⟩, ⟨⟨hn, hr⟩, ht⟩, ho, hp⟩
    exact ⟨hh, hw, hf, hc0, hc, hn, hr, ht, ho, hp⟩
  · rintro ⟨hh, hw, hf, hc0, hc, hn, hr, ht, ho, hp⟩
    exact ⟨⟨⟨hh, hw⟩, hf, hc0, hc⟩, ⟨⟨hn, hr⟩, ht⟩, ho, hp⟩

theorem validate_params_eq_none {anchor : Nat} {w : Nat → Word} :
    validate anchor .params w = none ↔ headerPasses w ∧ paramsPass w := by
  simp only [validate, Option.or_eq_none_iff, headerStage_eq_none, paramsStage_eq_none]

/-- A header that fails decides the validation of either kind. -/
theorem validate_of_header {w : Nat → Word} {f : Failure} (h : headerStage w = some f) (anchor : Nat) (kind : TakeKind) :
    validate anchor kind w = some f := by
  cases kind <;> simp [validate, h]

/-- Under a good header the first failing stage gives the refusal. -/
theorem validate_full_of_header {w : Nat → Word} (h : headerPasses w) (anchor : Nat) :
    validate anchor .full w =
      (windowsStage anchor w).or ((floorsStage w).or ((carsStage w).or ((nodesStage w).or ((triggersStage w).or
        ((overridesStage w).or (paramsStage w)))))) := by
  simp only [validate, headerStage_eq_none.mpr h, Option.none_or, Option.or_assoc]

theorem headerStage_of_signature {w : Nat → Word} (h : w 0x000 ≠ 0x484E0416#32) :
    headerStage w = some (refSignature, 0) := by
  simp [headerStage, failIf, h]

theorem headerStage_of_version {w : Nat → Word} (h : w 0x000 = 0x484E0416#32) (h' : w 0x001 ≠ 1#32) :
    headerStage w = some (refVersion, 0) := by
  simp [headerStage, failIf, h, h']

theorem floorsStage_of_floorCount {w : Nat → Word} (h : floorCount w < 2) :
    floorsStage w = some (refFloorCount, floorCount w) := by
  simp [floorsStage, failIf, h]

/-- The first parameter outside its range is named. -/
theorem paramsStage_of_first {w : Nat → Word} {i : Nat} (hi : i < 31)
    (before : ∀ k < i, (paramRange k).1 ≤ readParam w k ∧ readParam w k ≤ (paramRange k).2)
    (h : readParam w i < (paramRange i).1 ∨ (paramRange i).2 < readParam w i) :
    paramsStage w = some (refParamRange, i) := by
  refine firstFailure_range_eq_some hi (fun k hk => ?_) ?_
  · obtain ⟨hlo, hhi⟩ := before k hk
    simp [failIf_eq_none, hlo, hhi]
  · simp [failIf, h]

/-! ### The read that fills the copy (R168) -/

/-- An own access in its turn is performed. -/
theorem State.ownTurn_of_ownNext {s : State} {k : OwnKind} (h : s.part.path.ownNext = some k) :
    s.ownTurn k = s.performOwn k := if_pos h

/-- PATH's own read of a take that fills its copy: the word is stored, and learned when it is the take word. -/
theorem State.readTake_of_offset {s : State} {tk : Take} {o : Nat} (ht : s.part.path.take = some tk)
    (ho : takeOffset tk.kind tk.copy.length = some o) :
    ∃ known : Option Word, s.readTake = s.onPart fun p => p.onPath fun x =>
      { x with
        takeWord := known
        take := some ((tk.store none (readWord s.mem (wordAddr (s.part.path.anchorAt + o)))).conclude
          s.part.path.anchorAt none) } := by
  have hr : tk.nextRead s.part.path.anchorAt = some (s.part.path.anchorAt + o, none) := by
    simp [Take.nextRead, ho]
  simp only [State.readTake, ht, hr]
  by_cases ha : s.part.path.anchorAt + o = s.part.path.takeAddress
  · refine ⟨some (readWord s.mem (wordAddr (s.part.path.anchorAt + o))), ?_⟩
    rw [State.onPart, if_pos ha]
    rfl
  · refine ⟨s.part.path.takeWord, ?_⟩
    rw [State.onPart, if_neg ha]
    rfl

/-- A take whose copy is not complete goes on after a read; a complete copy is validated (R170). -/
theorem Take.conclude_of_incomplete {t : Take} {o : Nat} (h : takeOffset t.kind t.copy.length = some o) (anchor : Nat)
    (window : Option Nat) : t.conclude anchor window = t := by
  simp [Take.conclude, h]

theorem Take.conclude_of_failed {t : Take} {anchor : Nat} {f : Failure} (h : takeOffset t.kind t.copy.length = none)
    (hf : validate anchor t.kind t.word = some f) : t.conclude anchor none = { t with result := some f } := by
  simp [Take.conclude, h, hf]

theorem Take.conclude_of_params {t : Take} {anchor : Nat} (h : takeOffset t.kind t.copy.length = none)
    (hk : t.kind = .params) (hv : validate anchor t.kind t.word = none) :
    t.conclude anchor none = { t with result := some (0, 0) } := by
  have hn : t.nextRead anchor = none := by
    simp only [Take.nextRead, h]
    rw [hk]
  simp [Take.conclude, h, hv, hn]

/-- Whatever a read brings, the copy and the mirror stand as the word was stored. -/
theorem Take.conclude_eq (t : Take) (anchor : Nat) (window : Option Nat) :
    t.conclude anchor window = { t with result := (t.conclude anchor window).result } := by
  simp only [Take.conclude]
  split
  · rfl
  · split
    · rfl
    · split <;> rfl

/-- A read of a take in its turn that fills the copy. -/
theorem exec_takeRead_of_offset {s : State} {tk : Take} {o : Nat} (hturn : s.part.path.ownNext = some .takeRead)
    (ht : s.part.path.take = some tk) (ho : takeOffset tk.kind tk.copy.length = some o) :
    ∃ x : Path, x.watch = s.part.path.watch ∧ x.anchor = s.part.path.anchor
      ∧ x.take = some ((tk.store none (readWord s.mem (wordAddr (s.part.path.anchorAt + o)))).conclude
          s.part.path.anchorAt none)
      ∧ exec .takeRead s = .next (s.event fun p => { p with path := x }) := by
  obtain ⟨known, hs⟩ := State.readTake_of_offset (s := s.onPart fun p => p.onPath (·.leave .takeRead)) ht ho
  refine ⟨{ s.part.path.leave .takeRead with takeWord := known, take := _ }, rfl, rfl, rfl, ?_⟩
  show Host.Outcome.next (s.ownTurn .takeRead) = _
  rw [State.ownTurn_of_ownNext hturn]
  show Host.Outcome.next (State.onPart (State.readTake _) Part.settle) = _
  rw [hs]
  rfl

/-- Settles O25: the read stores the word and concludes the copy, and each stage of the validation is the check the
spec asks for. -/
theorem takeReadFillsCopy : Obligations.TakeReadFillsCopy := by
  refine ⟨fun s tk o hturn hrest ht ho => ?_, fun anchor w => ?_⟩
  · obtain ⟨x, hwatch, hanchor, htake, hs⟩ := exec_takeRead_of_offset hturn ht ho
    obtain ⟨htexts, hdisp⟩ := Part.settle_sameTexts (p := { s.part with path := x }) hrest.1
    obtain ⟨hconfig, hclock⟩ := Part.settle_same { s.part with path := x }
    have hlen : (tk.copy ++ [readWord s.mem (wordAddr (s.part.path.anchorAt + o))]).length = tk.copy.length + 1 := by simp
    have hword : ∀ (t : Take) a b, (t.conclude a b).word = t.word := fun t a b => by
      rw [Take.conclude_eq t a b]
      rfl
    refine ⟨_, _, hs, rfl, (Part.settle_take _).trans htake, ?_, ?_, ?_, fun hmore => ?_, fun f hdone hf => ?_,
      fun hdone hkind hv => ?_, Part.settle_sameTraffic _, htexts, hdisp.trans ?_,
      hconfig.trans ⟨rfl, rfl, rfl, hwatch, hanchor⟩, hclock⟩
    · rw [Take.conclude_eq]
      rfl
    · rw [Take.conclude_eq]
      rfl
    · rw [Take.conclude_eq]
      rfl
    · obtain ⟨o', ho'⟩ := Option.isSome_iff_exists.mp hmore
      rw [← hlen] at ho'
      rw [Take.conclude_of_incomplete (t := tk.store none _) ho']
      rfl
    · rw [← hlen] at hdone
      rw [hword] at hf
      exact congrArg Take.result (Take.conclude_of_failed (t := tk.store none _) hdone hf)
    · rw [← hlen] at hdone
      rw [hword] at hv
      exact congrArg Take.result (Take.conclude_of_params (t := tk.store none _) hdone hkind hv)
    · show { s.part.disp with rpt := s.part.disp.rpt.choose } = s.part.disp
      rw [hrest.2.1]
  · refine ⟨validate_full_eq_none, validate_params_eq_none,
      fun kind h => validate_of_header (headerStage_of_signature h) anchor kind,
      fun kind h h' => validate_of_header (headerStage_of_version h h') anchor kind, fun hheader f => ?_,
      fun i hi before h => paramsStage_of_first hi before h, floorsStage_of_floorCount⟩
    rw [validate_full_of_header hheader]
    refine ⟨fun hf => ?_, fun hw hf => ?_, fun hw hfl => ⟨fun hf => ?_, fun hc => ⟨fun hf => ?_, fun hn =>
      ⟨fun hf => ?_, fun ht => ⟨fun hf => ?_, fun ho hf => ?_⟩⟩⟩⟩⟩ <;> simp only [*, Option.none_or, Option.some_or]

end Sys2Proof.Machine
end

section
/-! SUPPORT and PROOFS. What a region shows (R112, R122), how it is recomposed (R120, R123), how a request joins a node's
queue (R145), and the repaint (R125). -/

namespace Sys2Proof.Machine

/-! ### Normal content (R112, R113) -/

/-- Texts separated by a space. -/
theorem spaced_eq_intercalate (ts : List (List Byte)) : spaced ts = [0x20#8].intercalate ts := by
  fun_induction spaced ts with
  | case1 => rfl
  | case2 t => simp
  | case3 t ts hts ih =>
    cases ts with
    | nil => exact absurd rfl hts
    | cons t' ts => simp [ih, List.intercalate_cons_cons]

theorem carArrow_eq (p : Part) (c d : Nat) :
    carArrow p c d =
      if (p.deck c d).state = .unknown ∨ (p.deck c d).state = .stale then Content.blank
      else { codes := [], stale := false, direction := (p.car c).drive, moving := (p.car c).motion ≠ .still } := by
  simp only [carArrow, Bool.or_eq_true, decide_eq_true_eq]
  rfl

/-- A region with no lantern behind it shows nothing. -/
theorem lanternLit_of_none {p : Part} {c d f : Nat} (h : p.lantern c d f = none) : p.lanternLit c d f = false := by
  unfold Part.lanternLit
  rw [h]

theorem lanternLit_of_some {p : Part} {c d f : Nat} {l : Lantern} (h : p.lantern c d f = some l) :
    p.lanternLit c d f = decide (l.state ≠ .dark) := by
  unfold Part.lanternLit
  rw [h]

theorem tripText_eq (p : Part) (c d f : Nat) :
    p.tripText c d f =
      [0x20#8].intercalate (((p.tripMembers c d f).take 8).map p.floorLabel)
        ++ (if 8 < (p.tripMembers c d f).length then [0x20#8, 0x2B#8] else []) := by
  simp only [Part.tripText, Part.tripShown, spaced_eq_intercalate, decide_eq_true_eq]

/-- The TRIP content of a lantern that exists (R80). -/
theorem normalContent_trip_of_some {p : Part} {j : Nat} {n : NodeConfig} {shown : Option Nat} {l : Lantern}
    (h : p.lantern n.car n.deck n.floor = some l) :
    (normalContent p j n .trip shown).1 =
      if l.state = .dark then Content.blank
      else
        { codes :=
            [0x20#8].intercalate (((p.tripMembers n.car n.deck n.floor).take 8).map p.floorLabel)
              ++ (if 8 < (p.tripMembers n.car n.deck n.floor).length then [0x20#8, 0x2B#8] else [])
          stale := false, direction := .none, moving := false } := by
  simp only [normalContent, lanternLit_of_some h, tripText_eq]
  by_cases hl : l.state = .dark
  · simp [hl]
  · simp only [hl, ne_eq, not_false_eq_true, decide_true, if_true, if_false]
    rfl

theorem lanternArrow_of_some {p : Part} {c d f : Nat} {l : Lantern} (h : p.lantern c d f = some l) :
    lanternArrow p c d f =
      if l.state = .dark then Content.blank
      else { codes := [], stale := false, direction := l.shown, moving := false } := by
  unfold lanternArrow
  rw [h]
  rfl

/-- The estimate piece of a prompt is the one form R82 gives its value. -/
theorem estimateText_unique {e : Option Estimate} {est : List Byte}
    (hnone : e = none ∨ e = some .none → est = [0x2D#8, 0x2D#8])
    (hover : ∀ v, e = some (.secs v true) → est = [0x3E#8, 0x39#8, 0x39#8])
    (hnow : e = some (.secs 0 false) → est = [0x4E#8, 0x4F#8, 0x57#8])
    (hone : ∀ v, 1 ≤ v → v ≤ 9 → e = some (.secs v false) → est = [BitVec.ofNat 8 (0x30 + v)])
    (htwo : ∀ v, 10 ≤ v → e = some (.secs v false) →
      est = [BitVec.ofNat 8 (0x30 + v / 10), BitVec.ofNat 8 (0x30 + v % 10)]) :
    estimateText e = est := by
  match e with
  | none => exact (hnone (.inl rfl)).symm
  | some .none => exact (hnone (.inr rfl)).symm
  | some (.secs v true) => exact (hover v rfl).symm
  | some (.secs 0 false) => exact (hnow rfl).symm
  | some (.secs (v + 1) false) =>
    show decimal (v + 1) = est
    unfold decimal
    by_cases hv : v + 1 < 10
    · rw [hone (v + 1) (by omega) (by omega) rfl, if_pos hv, Nat.mod_eq_of_lt hv]
      rfl
    · rw [htwo (v + 1) (by omega) rfl, if_neg hv]
      rfl

theorem promptText_of_config {p : Part} {n : NodeConfig} {a : Assignment} {cfg : CarConfig}
    (h : p.carConfig a.car = some cfg) :
    p.promptText n a =
      [0x20#8].intercalate
        ([cfg.label ++ (if cfg.decks ≤ 1 then [] else if a.deck = 0 then [0x83#8] else [0x82#8])]
          ++ (if n.bearings.getD a.car 0 = 0 then [] else [[BitVec.ofNat 8 (0x80 + n.bearings.getD a.car 0)]])
          ++ [p.floorLabel a.destination, estimateText a.estimate] ++ (if a.stepFree then [[0x84#8]] else [])) := by
  simp only [Part.promptText, h, spaced_eq_intercalate, CarConfig.deckMark]

/-! ### The floor indicator text (R11, R12) -/

theorem floorText_eq_nil {p : Part} {c d : Nat}
    (h : p.carConfig c = none ∨ (p.deck c d).state = .unknown ∨ (p.deck c d).accepted = none) : p.floorText c d = [] := by
  unfold Part.floorText
  split
  · next cfg a hcfg ha =>
    obtain h | h | h := h
    · simp [h] at hcfg
    · rw [h]
    · simp [h] at ha
  · rfl

theorem fire_eq_true (m : ServiceMode) : m.fire = true ↔ m = .fireRecall ∨ m = .fireService := by
  cases m <;> simp [ServiceMode.fire]

theorem floorBody_eq (p : Part) (m : ServiceMode) (k : Nat) :
    p.floorBody m k =
      p.floorLabel k ++
        (if (m = .fireRecall ∨ m = .fireService) ∧ (p.geo.floors[k]?).any (·.fireAccess) = true then [0x85#8] else []) := by
  have hany : ((p.geo.floors[k]?).map (·.fireAccess)).getD false = (p.geo.floors[k]?).any (·.fireAccess) := by
    cases p.geo.floors[k]? <;> rfl
  simp only [Part.floorBody, hany, Bool.and_eq_true, fire_eq_true]

/-- The text of a deck that is known: the deck mark, then the express text or the floor's label with its fire mark. -/
theorem floorText_of_known {p : Part} {c d : Nat} {cfg : CarConfig} {a : Nat} (hcfg : p.carConfig c = some cfg)
    (hstate : (p.deck c d).state ≠ .unknown) (ha : (p.deck c d).accepted = some a) :
    p.floorText c d =
      cfg.deckMark d ++
        (if (p.deck c d).state = .express ∧ cfg.express ≠ [] then cfg.express else p.floorBody (p.car c).mode a) := by
  unfold Part.floorText
  rw [hcfg, ha]
  cases hs : (p.deck c d).state with
  | unknown => exact absurd hs hstate
  | express =>
    by_cases he : cfg.express = [] <;> simp [he]
  | atFloor | moving | between | stale => simp

/-! ### The governing channel (R114, R134) -/

theorem inRange_eq_true {range : Option (Nat × Nat)} {floor : Option Nat} :
    inRange range floor = true ↔
      range = none ∨ ∃ lo hi f, range = some (lo, hi) ∧ floor = some f ∧ lo ≤ f ∧ f ≤ hi := by
  rcases range with _ | ⟨lo, hi⟩
  · simp [inRange]
  · cases floor <;> simp [inRange]

/-- A channel holds a node when it is not OFF and its scope marks the node's group and floor. -/
theorem channel_holds_iff (p : Part) (n : NodeConfig) (k : Nat) :
    (p.channelOn k && p.inScope k n) = true ↔
      (p.channel k).state ≠ .off ∧ ∃ cfg, (p.channel k).config = some cfg ∧ cfg.groups.getLsbD n.group = true
        ∧ (cfg.range = none ∨ ∃ lo hi f, cfg.range = some (lo, hi) ∧ p.nodeFloor n = some f ∧ lo ≤ f ∧ f ≤ hi) := by
  simp only [Part.channelOn, Part.inScope, Bool.and_eq_true, decide_eq_true_eq]
  cases (p.channel k).config with
  | none => simp
  | some cfg => simp [inRange_eq_true]

theorem governing_spec {p : Part} {n : NodeConfig} {holds : Nat → Prop}
    (h : ∀ k, holds k ↔ (p.channelOn k && p.inScope k n) = true) :
    (p.governing n = none ↔ ∀ k < Config.channels, ¬holds k)
      ∧ ∀ k, p.governing n = some k ↔ k < Config.channels ∧ holds k ∧ ∀ k' < k, ¬holds k' := by
  refine ⟨?_, fun k => ?_⟩
  · simp only [Part.governing, List.find?_range_eq_none, h, Bool.not_eq_true, Bool.not_eq_true']
  · simp only [Part.governing, List.find?_range_eq_some, List.mem_range, h, Bool.not_eq_true, Bool.not_eq_true']
    exact and_left_comm

theorem nodeFloor_carPanel {p : Part} {n : NodeConfig} (h : n.type = .carPanel) :
    p.nodeFloor n = if (p.deck n.car n.deck).state = .unknown then none else (p.deck n.car n.deck).accepted := by
  unfold Part.nodeFloor
  rw [h]
  cases (p.deck n.car n.deck).state <;> rfl

theorem nodeFloor_bound {p : Part} {n : NodeConfig} (h : n.type ≠ .carPanel) : p.nodeFloor n = some n.floor := by
  unfold Part.nodeFloor
  cases hn : n.type with
  | carPanel => exact absurd hn h
  | hallLantern | terminal | lobbyBoard => rfl

/-- Under a channel each region has its row of Table 6-5. -/
theorem composed_of_governing {p : Part} {n : NodeConfig} {k : Nat} (h : p.governing n = some k) (j : Nat)
    (shown : Option Nat) :
    composed p j n .trip shown = ((Content.blank, 0), .channel k)
      ∧ composed p j n .prompt shown = ((Content.blank, 0), .channel k)
      ∧ composed p j n .line shown = (overrideContent (p.channel k).lineText, .channel k)
      ∧ composed p j n .banner shown = (overrideContent (p.channel k).bannerText, .channel k)
      ∧ ∀ cfg, (p.channel k).config = some cfg →
        composed p j n .floor shown =
            (if cfg.floorBlank then ((Content.blank, 0), .channel k) else (normalContent p j n .floor shown, .normal))
          ∧ composed p j n .arrow shown =
            (if cfg.arrowBlank then ((Content.blank, 0), .channel k) else (normalContent p j n .arrow shown, .normal)) := by
  refine ⟨?_, ?_, ?_, ?_, fun cfg hcfg => ⟨?_, ?_⟩⟩ <;> simp [composed, *]

/-! ### Region records -/

theorem Cmp.region_eq_some {c : Cmp} {j : Nat} {r : Region} {x : RegionRecord} (h : c.region j r = some x) :
    x.region = r := by
  unfold Cmp.region at h
  split at h
  · cases h
  · simpa using List.find?_some h

/-- What a replaced record reads as. -/
theorem Cmp.setRegion_region_same {c : Cmp} {j : Nat} {x y : RegionRecord} (h : c.region j x.region = some y) :
    (c.setRegion j x).region j x.region = some x := by
  have hy := Cmp.region_eq_some h
  unfold Cmp.region at h ⊢
  simp only [Cmp.setRegion, List.getElem?_modify, if_true]
  split at h
  · cases h
  · next n hn =>
    rw [hn]
    simp only [Option.map_eq_map, Option.map_some, List.find?_map]
    have hsame : ((fun z : RegionRecord => decide (z.region = x.region)) ∘
        fun z => if z.region = x.region then x else z) = fun z => decide (z.region = x.region) := by
      funext z
      by_cases hz : z.region = x.region <;> simp [hz]
    rw [hsame, h]
    simp [hy]

/-- A replaced record leaves every other. -/
theorem Cmp.setRegion_region_other {c : Cmp} {j j' : Nat} {x : RegionRecord} {r : Region} (h : j' = j → r ≠ x.region) :
    (c.setRegion j x).region j' r = c.region j' r := by
  unfold Cmp.region
  simp only [Cmp.setRegion, List.getElem?_modify]
  cases c.nodes[j']? with
  | none => simp
  | some n =>
    by_cases hj : j = j'
    · have hr := h hj.symm
      have hsame : ((fun z : RegionRecord => decide (z.region = r)) ∘
          fun z => if z.region = x.region then x else z) = fun z => decide (z.region = r) := by
        funext z
        by_cases hz : z.region = x.region
        · simp [hz, Ne.symm hr]
        · simp [hz]
      simp only [hj, if_true, Option.map_eq_map, Option.map_some, List.find?_map, hsame]
      cases hf : n.regions.find? fun z => decide (z.region = r) with
      | none => rfl
      | some z =>
        have hz : z.region = r := by simpa using List.find?_some hf
        simp [hz, hr]
    · simp [hj]

@[simp] theorem Cmp.setRegion_reachable (c : Cmp) (j : Nat) (x : RegionRecord) (i : Nat) :
    (c.setRegion j x).reachable i = c.reachable i := by
  unfold Cmp.reachable
  simp only [Cmp.setRegion, List.getElem?_modify]
  cases c.nodes[i]? with
  | none => simp
  | some n => by_cases hj : j = i <;> simp [hj]

/-! ### The node queue (R145) -/

theorem mem_placeAlert {q : List QueueEntry} {e x : QueueEntry} : x ∈ placeAlert q e ↔ x = e ∨ x ∈ q := by
  simp only [placeAlert, List.mem_append, List.mem_cons, List.mem_filter]
  cases x.isAlert <;> simp [or_comm]

theorem mem_placed {q : List QueueEntry} {e x : QueueEntry} :
    (x ∈ if e.isAlert then placeAlert q e else q ++ [e]) ↔ x = e ∨ x ∈ q := by
  split
  · exact mem_placeAlert
  · simp [or_comm]

/-- A carried chime is all that the older entry gives the new one (R145). -/
theorem carryChime_cases (old new : QueueEntry) :
    carryChime old new = new ∨ (new.chime = 0 ∧ carryChime old new = { new with chime := old.chime }) := by
  unfold carryChime
  split
  · next h =>
    simp only [Bool.and_eq_true, decide_eq_true_eq] at h
    exact .inr ⟨h.1.2, rfl⟩
  · exact .inl rfl

@[simp] theorem carryChime_region (old new : QueueEntry) : (carryChime old new).region = new.region := by
  obtain h | ⟨-, h⟩ := carryChime_cases old new <;> rw [h]

/-- A queue entry is the request `new`, its chime its own or one carried from an entry of `q` for the same region. -/
def QueueEntry.carries (e new : QueueEntry) (q : Set QueueEntry) : Prop :=
  e.region = new.region ∧ e.version = new.version ∧ e.content = new.content ∧ e.kind = new.kind
    ∧ (e.chime = new.chime ∨ (new.chime = 0 ∧ ∃ old ∈ q, old.region = new.region ∧ e.chime = old.chime))

theorem carryChime_carries {old new : QueueEntry} {q : Set QueueEntry} (hq : old ∈ q) (hr : old.region = new.region) :
    (carryChime old new).carries new q := by
  obtain h | ⟨h0, h⟩ := carryChime_cases old new
  · rw [h]
    exact ⟨rfl, rfl, rfl, rfl, .inl rfl⟩
  · rw [h]
    exact ⟨rfl, rfl, rfl, rfl, .inr ⟨h0, old, hq, hr, rfl⟩⟩

/-- The queue after a paint request holds it. -/
theorem exists_mem_enqueue (q : List QueueEntry) (new : QueueEntry) :
    ∃ e ∈ enqueue q new, e.carries new {x | x ∈ q ∧ x.region = new.region} := by
  unfold enqueue
  split
  · exact ⟨new, mem_placed.mpr (.inl rfl), rfl, rfl, rfl, rfl, .inl rfl⟩
  · next old hold =>
    have hr : old.region = new.region := by simpa using List.find?_some hold
    have hq := List.mem_of_find?_eq_some hold
    refine ⟨carryChime old new, ?_, carryChime_carries ⟨hq, hr⟩ hr⟩
    simp only
    split
    · exact List.mem_map.mpr ⟨old, hq, if_pos hr⟩
    · split
      · exact mem_placeAlert.mpr (.inl rfl)
      · simp

/-- A paint request leaves the entries of every other region. -/
theorem mem_enqueue_of_region_ne {q : List QueueEntry} {new x : QueueEntry} (h : x.region ≠ new.region) :
    x ∈ enqueue q new ↔ x ∈ q := by
  have hnew : ∀ e : QueueEntry, e.region = new.region → x ≠ e := fun e he hx => h (hx ▸ he)
  unfold enqueue
  split
  · rw [mem_placed, or_iff_right (hnew new rfl)]
  · next old hold =>
    have hcarried := hnew (carryChime old new) (carryChime_region old new)
    simp only
    split
    · simp only [List.mem_map]
      constructor
      · rintro ⟨y, hy, hxy⟩
        split at hxy
        · exact absurd hxy.symm hcarried
        · exact hxy ▸ hy
      · exact fun hx => ⟨x, hx, if_neg h⟩
    · split
      · rw [mem_placeAlert, or_iff_right hcarried]
        simp [h]
      · simp [h, hcarried]

/-! ### Requests to the link engines (R146) -/

/-- Whether the node at a position takes requests, and the entries of a region in its queue. -/
def Disp.waitingFor (d : Disp) (ring position : Nat) (r : Region) : Option (Bool × Set QueueEntry) :=
  ((d.ring ring).node position).map fun n => (n.state.joined, {e | e ∈ n.queue ∧ e.region = some r})

theorem Ring.node_setNode_same {x : Ring} {position : Nat} {n m : LinkNode} (h : x.node position = some m) :
    (x.setNode position n).node position = some n := by
  unfold Ring.node at h ⊢
  split at h
  · cases h
  · next hp =>
    obtain ⟨hlt, -⟩ := List.getElem?_eq_some_iff.mp h
    simp [Ring.setNode, hp, hlt]

theorem Ring.node_setNode_other {x : Ring} {position i : Nat} {n : LinkNode} (h : i ≠ position) :
    (x.setNode position n).node i = x.node i := by
  unfold Ring.node Ring.setNode
  by_cases hi : i = 0
  · simp [hi]
  · by_cases hp : position = 0
    · simp [hp]
    · simp only [hi, hp, if_false]
      exact List.getElem?_set_ne (by omega)

/-- A ring that holds a node is a ring of the part. -/
theorem Disp.ring_lt {d : Disp} {ring position : Nat} {n : LinkNode} (h : (d.ring ring).node position = some n) :
    ring < d.lnk.length := by
  by_contra hlt
  have hr : d.ring ring = Ring.reset := by
    unfold Disp.ring
    rw [List.getD_eq_getElem?_getD, List.getElem?_eq_none (by omega)]
    rfl
  rw [hr] at h
  unfold Ring.node at h
  split at h
  · cases h
  · cases h

theorem Disp.ring_setRing_same {d : Disp} {ring : Nat} {x : Ring} (h : ring < d.lnk.length) :
    (d.setRing ring x).ring ring = x := by
  simp [Disp.ring, Disp.setRing, h]

theorem Disp.ring_setRing_other {d : Disp} {ring i : Nat} {x : Ring} (h : i ≠ ring) :
    (d.setRing ring x).ring i = d.ring i := by
  simp [Disp.ring, Disp.setRing, List.getElem?_set_ne (Ne.symm h)]

@[simp] theorem Disp.request_cmp (d : Disp) (ring position : Nat) (e : QueueEntry) :
    (d.request ring position e).cmp = d.cmp := by
  unfold Disp.request
  split
  · rfl
  · split <;> rfl

/-- A request joins the queue of a node that takes it. -/
theorem Disp.request_node_same {d : Disp} {ring position : Nat} {e : QueueEntry} {q : LinkNode}
    (h : (d.ring ring).node position = some q) (hq : q.state.joined = true) :
    ((d.request ring position e).ring ring).node position = some { q with queue := enqueue q.queue e } := by
  unfold Disp.request
  rw [h]
  simp only [hq, if_true]
  rw [Disp.ring_setRing_same (Disp.ring_lt h)]
  exact Ring.node_setNode_same h

/-- A request to another position leaves a node. -/
theorem Disp.request_node_other {d : Disp} {ring position ring' position' : Nat} {e : QueueEntry}
    (h : ¬(ring' = ring ∧ position' = position)) :
    ((d.request ring position e).ring ring').node position' = (d.ring ring').node position' := by
  unfold Disp.request
  split
  · rfl
  · next m hm =>
    split
    · by_cases hr : ring' = ring
      · subst hr
        rw [Disp.ring_setRing_same (Disp.ring_lt hm)]
        exact Ring.node_setNode_other fun hp => h ⟨rfl, hp⟩
      · rw [Disp.ring_setRing_other hr]
    · rfl

/-- A request for another region leaves what waits for a region. -/
theorem Disp.request_waitingFor_of_region_ne {d : Disp} {ring position ring' position' : Nat} {e : QueueEntry}
    {r : Region} (h : e.region ≠ some r) :
    (d.request ring position e).waitingFor ring' position' r = d.waitingFor ring' position' r := by
  by_cases hn : ring' = ring ∧ position' = position
  · obtain ⟨rfl, rfl⟩ := hn
    unfold Disp.waitingFor
    cases hq : (d.ring ring').node position' with
    | none => simp [Disp.request, hq]
    | some q =>
      by_cases hj : q.state.joined = true
      · rw [Disp.request_node_same hq hj]
        simp only [Option.map_some, Option.some.injEq, Prod.mk.injEq, true_and]
        ext x
        exact and_congr_left fun hx => mem_enqueue_of_region_ne (hx ▸ Ne.symm h)
      · simp [Disp.request, hq, hj]
  · unfold Disp.waitingFor
    rw [Disp.request_node_other hn]

/-- A request to a node that takes it waits for its region, with at most the chime of what waited before. -/
theorem Disp.request_waitingFor_same {d : Disp} {ring position : Nat} {e : QueueEntry} {r : Region}
    {old : Set QueueEntry} (he : e.region = some r) (h : d.waitingFor ring position r = some (true, old)) :
    ∃ new, (d.request ring position e).waitingFor ring position r = some (true, new) ∧ ∃ x ∈ new, x.carries e old := by
  obtain ⟨q, hq, hold⟩ := Option.map_eq_some_iff.mp h
  obtain ⟨hj, rfl⟩ := Prod.mk.inj hold
  refine ⟨_, by rw [Disp.waitingFor, Disp.request_node_same hq hj]; simp [hj]; rfl, ?_⟩
  obtain ⟨x, hx, hc⟩ := exists_mem_enqueue q.queue e
  rw [he] at hc
  exact ⟨x, ⟨hx, hc.1.trans he⟩, hc⟩

/-! ### Recomposition (R116, R120, R123, R124) -/

/-- The record after the choice of the shown message (Table 6-3). -/
def RegionRecord.chosen (x : RegionRecord) (p : Part) (n : NodeConfig) (r : Region) : RegionRecord :=
  if isMessageRegion r then rotate p n x else x

/-- The record with the content and source its sources give. -/
def RegionRecord.recomposed (x : RegionRecord) (p : Part) (j : Nat) (n : NodeConfig) (r : Region) : RegionRecord :=
  { x.chosen p n r with
    content := (composed p j n r (x.chosen p n r).shown).1.1
    source := (composed p j n r (x.chosen p n r).shown).2 }

/-- Whether a recomposition hands a request: the node is reachable, and the content differs, the region leaves a channel, or
it is re-issued (R120, R123, R124). -/
def RegionRecord.handed (x : RegionRecord) (p : Part) (d : Disp) (j : Nat) (n : NodeConfig) (r : Region)
    (mode : RecomposeMode) : Bool :=
  d.cmp.reachable j
    && (decide ((x.recomposed p j n r).content ≠ x.content) || leavesChannel x.source (x.recomposed p j n r).source
      || mode.force)

/-- The request a recomposition hands. -/
def RegionRecord.request (x : RegionRecord) (p : Part) (j : Nat) (n : NodeConfig) (r : Region) (chime : Nat) :
    QueueEntry where
  kind := if (p.governing n).isSome then .alert else .paint
  region := some r
  version := x.version + 1
  content := (x.recomposed p j n r).content
  chime := chime

/-- The record a recomposition leaves. -/
def RegionRecord.after (x : RegionRecord) (p : Part) (d : Disp) (j : Nat) (n : NodeConfig) (r : Region)
    (mode : RecomposeMode) : RegionRecord :=
  { x.recomposed p j n r with version := if x.handed p d j n r mode then x.version + 1 else x.version }

/-- The choice of the shown message touches nothing else of a record. -/
theorem rotate_eq (p : Part) (n : NodeConfig) (x : RegionRecord) :
    rotate p n x =
      { x with shown := (rotate p n x).shown, level := (rotate p n x).level, dwell := (rotate p n x).dwell } := by
  simp only [rotate]
  split
  · rfl
  · split
    · rfl
    · split
      · rfl
      · split <;> rfl

theorem RegionRecord.chosen_region (x : RegionRecord) (p : Part) (n : NodeConfig) (r : Region) :
    (x.chosen p n r).region = x.region := by
  unfold RegionRecord.chosen
  split
  · rw [rotate_eq]
  · rfl

theorem RegionRecord.chosen_version (x : RegionRecord) (p : Part) (n : NodeConfig) (r : Region) :
    (x.chosen p n r).version = x.version := by
  unfold RegionRecord.chosen
  split
  · rw [rotate_eq]
  · rfl

/-- What recomposing a region does, in one equation: the record, and the request when one is handed. -/
theorem recompose_eq {p : Part} {d : Disp} {j : Nat} {n : NodeConfig} {r : Region} {x : RegionRecord}
    (hn : p.node j = some n) (hx : d.cmp.region j r = some x) (mode : RecomposeMode) :
    ∃ d', recompose p d j r mode =
        (if x.handed p d j n r mode then d'.request n.ring n.position (x.request p j n r mode.chime) else d')
      ∧ d'.cmp = d.cmp.setRegion j (x.after p d j n r mode) ∧ d'.lnk = d.lnk := by
  have quiet : { x.recomposed p j n r with version := x.version } = x.recomposed p j n r := by
    rw [← x.chosen_version p n r]
    rfl
  unfold RegionRecord.after RegionRecord.handed
  cases hr : d.cmp.reachable j with
  | false =>
    refine ⟨{ d with cmp := d.cmp.setRegion j (x.recomposed p j n r) }, ?_, ?_, rfl⟩
    · simp only [recompose, hn, hx, hr, Bool.false_and, Bool.false_eq_true, if_false, ite_self]
      rfl
    · simp only [Bool.false_and, Bool.false_eq_true, if_false, quiet]
  | true =>
    cases hc : decide ((x.recomposed p j n r).content ≠ x.content) || leavesChannel x.source (x.recomposed p j n r).source
        || mode.force with
    | false =>
      refine ⟨{ d with cmp := d.cmp.setRegion j (x.recomposed p j n r) }, ?_, ?_, rfl⟩
      · simp only [recompose, hn, hx, Bool.true_and, Bool.false_eq_true, if_false]
        exact if_neg (Bool.eq_false_iff.mp hc)
      · simp only [Bool.true_and, Bool.false_eq_true, if_false, quiet]
    | true =>
      refine ⟨{ d with
        cmp := d.cmp.setRegion j { x.recomposed p j n r with version := x.version + 1 }
        rpt := d.rpt.count .substitution (composed p j n r (x.chosen p n r).shown).1.2 }, ?_, by simp, rfl⟩
      simp only [recompose, hn, hx, hr, Bool.true_and, if_true]
      exact if_pos hc

theorem leavesChannel_eq_true {old new : Source} : leavesChannel old new = true ↔ old ≠ .normal ∧ new ≠ old := by
  cases old with
  | normal => simp [leavesChannel]
  | channel k =>
    simp only [leavesChannel, decide_eq_true_eq]
    exact ⟨fun h => ⟨nofun, Ne.symm h⟩, fun h => Ne.symm h.2⟩

theorem RegionRecord.handed_eq_true {x : RegionRecord} {p : Part} {d : Disp} {j : Nat} {n : NodeConfig} {r : Region}
    {mode : RecomposeMode} :
    x.handed p d j n r mode = true ↔
      d.cmp.reachable j = true
        ∧ ((x.recomposed p j n r).content ≠ x.content
            ∨ (x.source ≠ .normal ∧ (x.recomposed p j n r).source ≠ x.source) ∨ mode.force = true) := by
  simp only [RegionRecord.handed, Bool.and_eq_true, Bool.or_eq_true, decide_eq_true_eq, leavesChannel_eq_true, or_assoc]

section
variable {p : Part} {d : Disp} {j : Nat} {n : NodeConfig} {r : Region} {x : RegionRecord}

theorem recompose_region_same (hn : p.node j = some n) (hx : d.cmp.region j r = some x) (mode : RecomposeMode) :
    (recompose p d j r mode).cmp.region j r = some (x.after p d j n r mode) := by
  obtain ⟨d', hd, hcmp, -⟩ := recompose_eq hn hx mode
  have hr : (x.after p d j n r mode).region = r := (x.chosen_region p n r).trans (Cmp.region_eq_some hx)
  have hset : (d.cmp.setRegion j (x.after p d j n r mode)).region j r = some (x.after p d j n r mode) := by
    have h := Cmp.setRegion_region_same (x := x.after p d j n r mode) (hr.symm ▸ hx)
    rwa [hr] at h
  rw [hd]
  split
  · rw [Disp.request_cmp, hcmp, hset]
  · rw [hcmp, hset]

/-- A recomposition leaves every other record. -/
theorem recompose_region_other (mode : RecomposeMode) {j' : Nat} {r' : Region} (h : j' = j → r' ≠ r) :
    (recompose p d j r mode).cmp.region j' r' = d.cmp.region j' r' := by
  cases hn : p.node j with
  | none => simp [recompose, hn]
  | some n =>
    cases hx : d.cmp.region j r with
    | none => simp [recompose, hn, hx]
    | some x =>
      obtain ⟨d', hd, hcmp, -⟩ := recompose_eq hn hx mode
      have hr : (x.after p d j n r mode).region = r := (x.chosen_region p n r).trans (Cmp.region_eq_some hx)
      have hset := Cmp.setRegion_region_other (c := d.cmp) (x := x.after p d j n r mode) (r := r') (j' := j') (j := j)
        fun hj => hr.symm ▸ h hj
      rw [hd]
      split
      · rw [Disp.request_cmp, hcmp, hset]
      · rw [hcmp, hset]

@[simp] theorem recompose_reachable (mode : RecomposeMode) (i : Nat) :
    (recompose p d j r mode).cmp.reachable i = d.cmp.reachable i := by
  cases hn : p.node j with
  | none => simp [recompose, hn]
  | some n =>
    cases hx : d.cmp.region j r with
    | none => simp [recompose, hn, hx]
    | some x =>
      obtain ⟨d', hd, hcmp, -⟩ := recompose_eq hn hx mode
      rw [hd]
      split
      · rw [Disp.request_cmp, hcmp, Cmp.setRegion_reachable]
      · rw [hcmp, Cmp.setRegion_reachable]

/-- Without a request a recomposition leaves the link engines. -/
theorem recompose_lnk_of_not_handed (hn : p.node j = some n) (hx : d.cmp.region j r = some x) {mode : RecomposeMode}
    (h : x.handed p d j n r mode = false) : (recompose p d j r mode).lnk = d.lnk := by
  obtain ⟨d', hd, -, hlnk⟩ := recompose_eq hn hx mode
  rw [hd, if_neg (by simp [h]), hlnk]

theorem Disp.waitingFor_congr {d d' : Disp} (h : d.lnk = d'.lnk) (ring position : Nat) (r : Region) :
    d.waitingFor ring position r = d'.waitingFor ring position r := by
  unfold Disp.waitingFor Disp.ring
  rw [h]

/-- What waits for a region is touched only by the recomposition of that region of a node at that position. -/
theorem recompose_waitingFor_other (mode : RecomposeMode) {ring position : Nat} {r' : Region}
    (h : ∀ n, p.node j = some n → n.ring = ring → n.position = position → r ≠ r') :
    (recompose p d j r mode).waitingFor ring position r' = d.waitingFor ring position r' := by
  cases hn : p.node j with
  | none => simp [recompose, hn]
  | some n =>
    cases hx : d.cmp.region j r with
    | none => simp [recompose, hn, hx]
    | some x =>
      obtain ⟨d', hd, -, hlnk⟩ := recompose_eq hn hx mode
      rw [hd, ← Disp.waitingFor_congr hlnk]
      split
      · by_cases hat : ring = n.ring ∧ position = n.position
        · refine Disp.request_waitingFor_of_region_ne fun he => ?_
          exact h n hn hat.1.symm hat.2.symm (Option.some.inj he)
        · unfold Disp.waitingFor
          rw [Disp.request_node_other hat]
      · rfl

/-- The request a recomposition hands waits at a node that takes it. -/
theorem recompose_waitingFor_same (hn : p.node j = some n) (hx : d.cmp.region j r = some x) {mode : RecomposeMode}
    (h : x.handed p d j n r mode = true) {old : Set QueueEntry}
    (hw : d.waitingFor n.ring n.position r = some (true, old)) :
    ∃ new, (recompose p d j r mode).waitingFor n.ring n.position r = some (true, new)
      ∧ ∃ e ∈ new, e.carries (x.request p j n r mode.chime) old := by
  obtain ⟨d', hd, -, hlnk⟩ := recompose_eq hn hx mode
  rw [hd, if_pos h]
  exact Disp.request_waitingFor_same rfl ((Disp.waitingFor_congr hlnk ..).trans hw)

end

/-- What waits for a region at a node that takes requests. -/
theorem Disp.waitingFor_of_node {d : Disp} {ring position : Nat} {q : LinkNode}
    (hq : (d.ring ring).node position = some q) (hj : q.state.joined = true) (r : Region) :
    d.waitingFor ring position r = some (true, {e | e ∈ q.queue ∧ e.region = some r}) := by
  simp [Disp.waitingFor, hq, hj]

theorem Disp.node_of_waitingFor {d : Disp} {ring position : Nat} {r : Region} {b : Bool} {new : Set QueueEntry}
    (h : d.waitingFor ring position r = some (b, new)) :
    ∃ q, (d.ring ring).node position = some q ∧ new = {e | e ∈ q.queue ∧ e.region = some r} := by
  obtain ⟨q, hq, he⟩ := Option.map_eq_some_iff.mp h
  exact ⟨q, hq, (Prod.mk.inj he).2.symm⟩

/-- Table 6-3: what the choice of the shown message makes of a record. -/
theorem rotate_spec (p : Part) (n : NodeConfig) (x : RegionRecord) {list : List Nat}
    (hl : list = rotationList p n x.region) :
    (list = [] → (rotate p n x).shown = none ∧ (rotate p n x).level = none ∧ (rotate p n x).dwell = none)
      ∧ (list ≠ [] → (x.shown = none ∨ x.level ≠ some (topLevel p list)) →
          (rotate p n x).shown = list.head? ∧ (rotate p n x).level = some (topLevel p list)
            ∧ (rotate p n x).dwell = some (p.after p.params.rotateMs))
      ∧ ∀ m, x.shown = some m → x.level = some (topLevel p list) → list ≠ [] →
          (rotate p n x).level = x.level
            ∧ (m ∈ list → (rotate p n x).shown = x.shown ∧ (rotate p n x).dwell = x.dwell)
            ∧ (m ∉ list → (rotate p n x).shown = nextAfter list m
                ∧ (rotate p n x).dwell = some (p.after p.params.rotateMs)) := by
  simp only [rotate, ← hl]
  cases list with
  | nil => simp
  | cons first rest =>
    cases hs : x.shown with
    | none => simp
    | some m =>
      by_cases hlevel : x.level = some (topLevel p (first :: rest))
      · by_cases hm : m ∈ first :: rest
        · simp only [hlevel, List.contains_iff_mem.mpr hm, ne_eq, not_true_eq_false, if_true, if_false]
          refine ⟨by simp, by simp, ?_⟩
          rintro _ ⟨rfl⟩ - -
          exact ⟨trivial, fun _ => ⟨hs, trivial⟩, fun h => absurd hm h⟩
        · have hm' : (first :: rest).contains m = false := by simpa using hm
          simp only [hlevel, hm', ne_eq, not_true_eq_false, Bool.false_eq_true, if_false]
          refine ⟨by simp, by simp, ?_⟩
          rintro _ ⟨rfl⟩ - -
          exact ⟨trivial, fun h => absurd h hm, fun _ => ⟨rfl, trivial⟩⟩
      · simp [hlevel]

end Sys2Proof.Machine
end

section
/-! SUPPORT and PROOFS. The repaint (R124, R125, R187) and what it leaves of every region and queue. -/

namespace Sys2Proof.Machine

/-! ### A fold that touches one thing once -/

/-- What every round of a fold but one keeps is at the end what that round made of it. -/
theorem foldl_visits_once {α β γ : Type} (g : α → γ) {f : α → β → α} {l : List β} {b : β} (hb : b ∈ l) (hl : l.Nodup)
    (h : ∀ x ∈ l, x ≠ b → ∀ a, g (f a x) = g a) (a : α) : ∃ a', g a' = g a ∧ g (l.foldl f a) = g (f a' b) := by
  have keeps : ∀ (l' : List β) (a : α), (∀ x ∈ l', ∀ a, g (f a x) = g a) → g (l'.foldl f a) = g a := by
    intro l' a h'
    induction l' generalizing a with
    | nil => rfl
    | cons x l' ih =>
      rw [List.foldl_cons, ih _ fun y hy => h' y (List.mem_cons_of_mem x hy), h' x List.mem_cons_self]
  obtain ⟨front, back, rfl⟩ := List.append_of_mem hb
  obtain ⟨-, hback, hdisjoint⟩ := List.nodup_append.mp hl
  refine ⟨front.foldl f a, keeps front a fun x hx => h x (List.mem_append_left _ hx) ?_, ?_⟩
  · exact hdisjoint x hx b List.mem_cons_self
  · rw [List.foldl_append, List.foldl_cons]
    refine keeps back _ fun x hx => h x (List.mem_append_right _ (List.mem_cons_of_mem b hx)) ?_
    rintro rfl
    exact (List.nodup_cons.mp hback).1 hx

/-! ### Re-issues (R124, R125) -/

theorem NodeConfig.regions_nodup (n : NodeConfig) : n.regions.Nodup := by
  unfold NodeConfig.regions
  split
  · decide
  · split <;> decide
  · decide
  · decide

theorem reissueIn_eq {p : Part} {j : Nat} {n : NodeConfig} (hn : p.node j = some n) (d : Disp) :
    reissueIn p d j = n.regions.foldl (fun d r => recompose p d j r .reissue) d := by
  unfold reissueIn
  rw [hn]
  exact List.foldl_map

theorem node_lt_of_some {p : Part} {j : Nat} {n : NodeConfig} (hn : p.node j = some n) : j < p.nodes.length := by
  unfold Part.node at hn
  by_contra hlt
  rw [List.getElem?_eq_none (by omega)] at hn
  cases hn

/-- What every recomposition keeps, a re-issue of a node's regions keeps. -/
theorem reissueIn_keeps {p : Part} {γ : Type} (g : Disp → γ) {j : Nat}
    (h : ∀ d r, g (recompose p d j r .reissue) = g d) (d : Disp) : g (reissueIn p d j) = g d := by
  cases hn : p.node j with
  | none => simp [reissueIn, hn]
  | some n =>
    rw [reissueIn_eq hn]
    exact foldl_keeps g h n.regions d

@[simp] theorem reissueIn_reachable (p : Part) (d : Disp) (j i : Nat) :
    (reissueIn p d j).cmp.reachable i = d.cmp.reachable i :=
  reissueIn_keeps (fun d => d.cmp.reachable i) (fun _ _ => recompose_reachable _ i) d

@[simp] theorem repaintIn_reachable (p : Part) (d : Disp) (i : Nat) :
    (repaintIn p d).cmp.reachable i = d.cmp.reachable i := by
  refine foldl_keeps (fun d => d.cmp.reachable i) (fun d j => ?_) _ d
  split
  · exact reissueIn_reachable p d j i
  · rfl

/-- A repaint leaves the records of a node that is not reachable. -/
theorem repaintIn_region_of_not_reachable {p : Part} {d : Disp} {j : Nat} (h : d.cmp.reachable j = false) (r : Region) :
    (repaintIn p d).cmp.region j r = d.cmp.region j r := by
  have kept : ∀ (l : List Nat) (d : Disp), d.cmp.reachable j = false →
      (l.foldl (fun d i => if d.cmp.reachable i then reissueIn p d i else d) d).cmp.region j r = d.cmp.region j r := by
    intro l
    induction l with
    | nil => exact fun _ _ => rfl
    | cons i l ih =>
      intro d hd
      rw [List.foldl_cons]
      split
      · next hi =>
        have hij : j ≠ i := fun hij => by simp [hij ▸ hd] at hi
        rw [ih _ (by simpa using hd)]
        exact reissueIn_keeps (fun d => d.cmp.region j r)
          (fun _ _ => recompose_region_other _ fun hj => absurd hj hij) d
      · exact ih d hd
  exact kept _ d h

/-- A repaint recomposes a region of a reachable node once: what no other re-issue touches is what that one makes of it. -/
theorem repaintIn_visits {p : Part} {d : Disp} {γ : Type} (g : Disp → γ) {j : Nat} {n : NodeConfig} {r : Region}
    (hn : p.node j = some n) (hr : r ∈ n.regions) (hreach : d.cmp.reachable j = true)
    (h : ∀ i r' d, ¬(i = j ∧ r' = r) → g (recompose p d i r' .reissue) = g d) :
    ∃ d', g d' = g d ∧ d'.cmp.reachable j = true ∧ g (repaintIn p d) = g (recompose p d' j r .reissue) := by
  have both : ∀ i r' d, ¬(i = j ∧ r' = r) →
      (g (recompose p d i r' .reissue), (recompose p d i r' .reissue).cmp.reachable j) = (g d, d.cmp.reachable j) :=
    fun i r' d hne => by rw [h i r' d hne, recompose_reachable]
  obtain ⟨d₁, hd₁, hnodes⟩ := foldl_visits_once (fun d => (g d, d.cmp.reachable j))
    (f := fun d i => if d.cmp.reachable i then reissueIn p d i else d) (List.mem_range.mpr (node_lt_of_some hn))
    List.nodup_range (fun i _ hi d => by
      split
      · exact reissueIn_keeps (fun d => (g d, d.cmp.reachable j)) (fun d r' => both i r' d fun hij => hi hij.1) d
      · rfl) d
  obtain ⟨hg₁, hreach₁⟩ := Prod.mk.inj hd₁
  rw [hreach] at hreach₁
  rw [if_pos hreach₁, reissueIn_eq hn] at hnodes
  obtain ⟨d₂, hd₂, hregions⟩ := foldl_visits_once (fun d => (g d, d.cmp.reachable j))
    (f := fun d r' => recompose p d j r' .reissue) hr n.regions_nodup
    (fun r' _ hr' d => both j r' d fun hjr => hr' hjr.2) d₁
  obtain ⟨hg₂, hreach₂⟩ := Prod.mk.inj hd₂
  exact ⟨d₂, hg₂.trans hg₁, hreach₂.trans hreach₁,
    (Prod.mk.inj hnodes).1.trans (Prod.mk.inj hregions).1⟩

theorem RegionRecord.handed_reissue {x : RegionRecord} {p : Part} {d : Disp} {j : Nat} {n : NodeConfig} {r : Region}
    (h : d.cmp.reachable j = true) : x.handed p d j n r .reissue = true :=
  RegionRecord.handed_eq_true.mpr ⟨h, .inr (.inr rfl)⟩

/-- The record a repaint leaves of a region of a reachable node. -/
theorem repaintIn_region {p : Part} {d : Disp} {j : Nat} {n : NodeConfig} {r : Region} {x : RegionRecord}
    (hn : p.node j = some n) (hr : r ∈ n.regions) (hx : d.cmp.region j r = some x)
    (hreach : d.cmp.reachable j = true) :
    (repaintIn p d).cmp.region j r = some { x.recomposed p j n r with version := x.version + 1 } := by
  obtain ⟨d', hd', hreach', hend⟩ := repaintIn_visits (fun d => d.cmp.region j r) hn hr hreach
    fun i r' d hne => recompose_region_other _ fun hj hr' => hne ⟨hj.symm, hr'.symm⟩
  rw [hend, recompose_region_same hn (hd'.trans hx), RegionRecord.after, if_pos (RegionRecord.handed_reissue hreach')]

/-- A repaint's request for a region waits at a joined node that is alone at its position. -/
theorem repaintIn_waitingFor {p : Part} {d : Disp} {j : Nat} {n : NodeConfig} {r : Region} {x : RegionRecord}
    (hn : p.node j = some n) (hr : r ∈ n.regions) (hx : d.cmp.region j r = some x)
    (hreach : d.cmp.reachable j = true)
    (halone : ∀ i m, p.node i = some m → m.ring = n.ring → m.position = n.position → i = j) {old : Set QueueEntry}
    (hw : d.waitingFor n.ring n.position r = some (true, old)) :
    ∃ new, (repaintIn p d).waitingFor n.ring n.position r = some (true, new)
      ∧ ∃ e ∈ new, e.carries (x.request p j n r 0) old := by
  obtain ⟨d', hd', hreach', hend⟩ := repaintIn_visits
    (fun d => (d.cmp.region j r, d.waitingFor n.ring n.position r)) hn hr hreach fun i r' d hne => by
      rw [recompose_region_other _ fun hj hr' => hne ⟨hj.symm, hr'.symm⟩,
        recompose_waitingFor_other _ fun m hm hring hposition hr' => hne ⟨halone i m hm hring hposition, hr'⟩]
  obtain ⟨hx', hw'⟩ := Prod.mk.inj hd'
  rw [(Prod.mk.inj hend).2]
  exact recompose_waitingFor_same hn (hx'.trans hx) (RegionRecord.handed_reissue hreach') (hw'.trans hw)

/-! ### The service word (R187) -/

theorem wordAddr_toNat {a : Nat} (h : a < 2 ^ 24) : (wordAddr a).toNat = a := by
  rw [wordAddr, BitVec.toNat_ofNat, Nat.mod_eq_of_lt h]

theorem Path.serviceAddress_lt (x : Path) : x.serviceAddress < 2 ^ 24 := by
  have := x.anchor.isLt
  unfold Path.serviceAddress Path.anchorAt anchorBase serviceWordOffset
  omega

theorem Path.inAnchor_serviceAddress (x : Path) : x.inAnchor x.serviceAddress = true := by
  unfold Path.inAnchor Path.serviceAddress serviceWordOffset Config.anchorWords
  simp

theorem Path.serviceAddress_ne_takeAddress (x : Path) : x.serviceAddress ≠ x.takeAddress := by
  unfold Path.serviceAddress Path.takeAddress serviceWordOffset takeWordOffset
  omega

/-- A write of the service word: RPT takes the requests, PATH its own part. -/
theorem Part.anchorWrite_service (p : Part) (data : Word) (be : BitVec 4) :
    ∃ f : Path → Path, (∀ x, (f x).watch = x.watch ∧ (f x).anchor = x.anchor)
      ∧ p.anchorWrite p.path.serviceAddress data be = (p.serviceWrite (enabledBits data be)).onPath f := by
  simp only [Part.anchorWrite]
  rw [if_neg p.path.serviceAddress_ne_takeAddress, if_pos trivial]
  split
  · exact ⟨(·.modified), fun x => ⟨x.modified_watch, x.modified_anchor⟩, rfl⟩
  · exact ⟨id, fun _ => ⟨rfl, rfl⟩, rfl⟩

theorem Part.watchWrite_service (p : Part) (data : Word) (be : BitVec 4) :
    ∃ f : Path → Path, (∀ x, (f x).watch = x.watch ∧ (f x).anchor = x.anchor)
      ∧ p.watchWrite p.path.serviceAddress data be =
        ((p.onPath (·.mergeTake p.path.serviceAddress data be)).serviceWrite (enabledBits data be)).onPath f := by
  have hservice : (p.onPath (·.mergeTake p.path.serviceAddress data be)).path.serviceAddress
      = p.path.serviceAddress := by
    show anchorBase (p.path.mergeTake _ _ _).anchor + serviceWordOffset = _
    rw [Path.mergeTake_anchor]
    rfl
  obtain ⟨f, hf, h⟩ := (p.onPath (·.mergeTake p.path.serviceAddress data be)).anchorWrite_service data be
  rw [hservice] at h
  refine ⟨f, hf, ?_⟩
  simp only [Part.watchWrite, p.path.inAnchor_serviceAddress, if_true]
  exact h

/-- A write of one request bit, none pending, is one request, served. -/
theorem Part.serviceWrite_of_bit {p : Part} {value : Word} {bit : Nat}
    (hbits : ((List.range 7).filter fun i => bitAt value i) = [bit]) (h : p.disp.rpt.requests = 0) :
    ∃ before after : Rpt → Rpt, p.serviceWrite value = ((p.onRpt before).request bit).onRpt after := by
  refine ⟨fun r => { r with requests := r.requests ||| (1#7 <<< bit) },
    fun r => { r with requests := r.requests &&& ~~~(1#7 <<< bit), writeBackDue := true }, ?_⟩
  simp [Part.serviceWrite, hbits, Part.serveRequest, h]
  rfl

/-! ### PATH and the display side are no source of what a region shows (R112, R122) -/

theorem insertByDistance_sources (p : Part) (x : Path) (d : Disp) (board f : Nat) (l : List Nat) :
    insertByDistance { p with path := x, disp := d } board f l = insertByDistance p board f l := by
  induction l with
  | nil => rfl
  | cons y l ih =>
    simp only [insertByDistance, ih]
    rfl

theorem tripMembers_sources (p : Part) (x : Path) (d : Disp) (c k f : Nat) :
    Part.tripMembers { p with path := x, disp := d } c k f = p.tripMembers c k f := by
  simp only [Part.tripMembers, insertByDistance_sources]

theorem normalContent_sources (p : Part) (x : Path) (d : Disp) (j : Nat) (n : NodeConfig) (r : Region)
    (shown : Option Nat) :
    normalContent { p with path := x, disp := d } j n r shown = normalContent p j n r shown := by
  cases r with
  | trip =>
    simp only [normalContent, Part.tripText, Part.tripShown, tripMembers_sources]
    rfl
  | floor | arrow | prompt | line | banner => rfl

theorem composed_sources (p : Part) (x : Path) (d : Disp) (j : Nat) (n : NodeConfig) (r : Region) (shown : Option Nat) :
    composed { p with path := x, disp := d } j n r shown = composed p j n r shown := by
  simp only [composed, normalContent_sources]
  rfl

/-! ### REPAINT -/

/-- The repaint request as an equation of parts, between PATH's and RPT's own parts of it. -/
theorem Part.request_repaint (p : Part) (f g : Path → Path) (before after : Rpt → Rpt) :
    ((((p.onPath g).onRpt before).request 6).onRpt after).onPath f =
      { p with
        path := f (g p.path)
        disp := (repaintIn { p with path := g p.path, disp := { p.disp with rpt := before p.disp.rpt } }
          { p.disp with rpt := before p.disp.rpt }).onRpt after } := rfl

/-- REPAINT on a port that is free, no request pending: the repaint, within the display side. -/
theorem exec_repaint {s : State} (hfree : s.portFree = true) (hreq : s.part.disp.rpt.requests = 0) :
    ∃ (x y : Path) (before : Rpt) (after : Rpt → Rpt),
      x.watch = s.part.path.watch ∧ x.anchor = s.part.path.anchor
      ∧ exec .repaint s = .next
        { s with
          mem := writeWord s.mem (wordAddr s.part.path.serviceAddress) (place 6 1) 0xF#4
          part := ({ s.part with
            path := x
            disp := (repaintIn { s.part with path := y, disp := { s.part.disp with rpt := before } }
              { s.part.disp with rpt := before }).onRpt after }).settle } := by
  let g : Path → Path := fun x => x.passOver.mergeTake s.part.path.serviceAddress (place 6 1) 0xF#4
  obtain ⟨f, hf, hwatch⟩ := Part.watchWrite_service (s.part.onPath (·.passOver)) (place 6 1) 0xF#4
  obtain ⟨before, after, hserve⟩ := Part.serviceWrite_of_bit (p := s.part.onPath g)
    (value := enabledBits (place 6 1) 0xF#4) (bit := 6) (by decide) hreq
  have hw : (s.part.onPath (·.passOver)).watchWrite s.part.path.serviceAddress (place 6 1) 0xF#4 = _ :=
    hwatch.trans ((congrArg (Part.onPath · f) hserve).trans (Part.request_repaint s.part f g before after))
  refine ⟨f (g s.part.path), g s.part.path, before s.part.disp.rpt, after,
    (hf _).1.trans (Path.mergeTake_watch ..), (hf _).2.trans (Path.mergeTake_anchor ..), ?_⟩
  show Host.Outcome.next (s.hostWrite (wordAddr s.part.path.serviceAddress) (place 6 1) 0xF#4) = _
  rw [State.hostWrite_of_portFree hfree, wordAddr_toNat s.part.path.serviceAddress_lt, hw]

theorem RegionRecord.request_kind (x : RegionRecord) (p : Part) (j : Nat) (n : NodeConfig) (r : Region) (chime : Nat) :
    (x.request p j n r chime).kind = if p.governing n = none then .paint else .alert := by
  simp only [RegionRecord.request]
  cases p.governing n <;> rfl

/-- A version that rises is another one. -/
theorem version_succ_ne (v : Byte) : v + 1 ≠ v := by
  simp

/-- The first statement of O32: every region of every reachable node is re-issued once. -/
theorem repaint_reissues {s : State} {j : Nat} {n : NodeConfig} {r : Region} {x : RegionRecord}
    (hfree : s.portFree = true) (hrest : s.part.atRest) (hreq : s.part.disp.rpt.requests = 0)
    (hn : s.part.node j = some n) (hr : r ∈ n.regions) (hx : s.part.disp.cmp.region j r = some x) :
    ∃ t, exec .repaint s = .next t
      ∧ t.mem = writeWord s.mem (wordAddr s.part.path.serviceAddress) (place 6 1) 0xF#4
      ∧ (s.part.disp.cmp.reachable j = true →
          (t.part.disp.cmp.region j r).map (·.version) = some (x.version + 1))
      ∧ (s.part.disp.cmp.reachable j = true → ∀ y, t.part.disp.cmp.region j r = some y →
          y.content = (composed s.part j n r y.shown).1.1 ∧ y.source = (composed s.part j n r y.shown).2
            ∧ ∀ q, (s.part.disp.ring n.ring).node n.position = some q → q.state.joined = true →
              (∀ j' n', s.part.node j' = some n' → n'.ring = n.ring → n'.position = n.position → j' = j) →
                ∃ q' e, (t.part.disp.ring n.ring).node n.position = some q' ∧ e ∈ q'.queue
                  ∧ e.region = some r ∧ e.version = y.version ∧ e.content = y.content
                  ∧ e.kind = (if s.part.governing n = none then .paint else .alert)
                  ∧ (e.chime = 0 ∨ ∃ old ∈ q.queue, old.region = some r ∧ e.chime = old.chime))
      ∧ (s.part.disp.cmp.reachable j = false → t.part.disp.cmp.region j r = some x)
      ∧ (∀ i, t.part.disp.cmp.reachable i = s.part.disp.cmp.reachable i)
      ∧ t.part.sameTraffic s.part ∧ t.part.sameTexts s.part ∧ t.part.sameConfig s.part ∧ t.part.sameClock s.part := by
  obtain ⟨z, y₀, before, after, hwatch, hanchor, hexec⟩ := exec_repaint hfree hreq
  generalize hp : ({ s.part with path := y₀, disp := { s.part.disp with rpt := before } } : Part) = p at hexec
  generalize hd : repaintIn p { s.part.disp with rpt := before } = d at hexec
  have hnode : ∀ i, p.node i = s.part.node i := fun i => hp ▸ rfl
  have hcomposed : ∀ shown, composed p j n r shown = composed s.part j n r shown := fun shown => by
    rw [← hp, composed_sources]
  have hgoverning : p.governing n = s.part.governing n := hp ▸ rfl
  obtain ⟨htexts, hdisp⟩ := Part.settle_sameTexts (p := { s.part with path := z, disp := d.onRpt after }) hrest.1
  obtain ⟨hconfig, hclock⟩ := Part.settle_same { s.part with path := z, disp := d.onRpt after }
  have hcmp := congrArg Disp.cmp hdisp
  have hregion : s.part.disp.cmp.reachable j = true → d.cmp.region j r
      = some { x.recomposed p j n r with version := x.version + 1 } := fun hreach =>
    hd ▸ repaintIn_region ((hnode j).trans hn) hr (d := { s.part.disp with rpt := before }) hx hreach
  refine ⟨_, hexec, rfl, fun hreach => ?_, fun hreach y hy => ?_, fun hreach => ?_, fun i => ?_,
    Part.settle_sameTraffic _, htexts, hconfig.trans ⟨rfl, rfl, rfl, hwatch, hanchor⟩, hclock⟩
  · rw [hcmp]
    exact congrArg (Option.map _) (hregion hreach)
  · rw [hcmp] at hy
    obtain rfl := Option.some.inj ((hregion hreach).symm.trans hy)
    refine ⟨congrArg (·.1.1) (hcomposed _), congrArg (·.2) (hcomposed _), fun q hq hj halone => ?_⟩
    obtain ⟨new, hnew, e, he, hregion', hversion, hcontent, hkind, hchime⟩ :=
      repaintIn_waitingFor ((hnode j).trans hn) hr (d := { s.part.disp with rpt := before }) hx hreach
        (fun i m hm => halone i m ((hnode i).symm.trans hm)) (Disp.waitingFor_of_node hq hj r)
    obtain ⟨q', hq', rfl⟩ := Disp.node_of_waitingFor hnew
    rw [hd] at hq'
    have hlnk := congrArg Disp.lnk hdisp
    refine ⟨q', e, ?_, he.1, hregion', hversion, hcontent, ?_, ?_⟩
    · rw [Disp.ring, hlnk]
      exact hq'
    · rw [hkind, RegionRecord.request_kind, hgoverning]
    · obtain h0 | ⟨-, old, hold, hor, hoc⟩ := hchime
      · exact .inl h0
      · exact .inr ⟨old, hold.1, hor, hoc⟩
  · rw [hcmp]
    exact (hd ▸ repaintIn_region_of_not_reachable (d := { s.part.disp with rpt := before }) hreach r).trans hx
  · rw [hcmp]
    exact hd ▸ repaintIn_reachable p { s.part.disp with rpt := before } i

/-- The second statement of O32: the recomposition of one region. -/
theorem recompose_spec {p : Part} {d : Disp} {j : Nat} {n : NodeConfig} {r : Region} {x : RegionRecord}
    (mode : RecomposeMode) {list : List Nat} (hn : p.node j = some n) (hx : d.cmp.region j r = some x)
    (hl : list = rotationList p n r) :
    ∃ y, (recompose p d j r mode).cmp.region j r = some y
      ∧ y.content = (composed p j n r y.shown).1.1 ∧ y.source = (composed p j n r y.shown).2
      ∧ y.version =
          (if d.cmp.reachable j = true
              ∧ (y.content ≠ x.content ∨ (x.source ≠ .normal ∧ y.source ≠ x.source) ∨ mode.force = true) then
            x.version + 1 else x.version)
      ∧ (isMessageRegion r = false → y.shown = x.shown ∧ y.level = x.level ∧ y.dwell = x.dwell)
      ∧ (isMessageRegion r = true →
          (list = [] → y.shown = none ∧ y.level = none ∧ y.dwell = none)
            ∧ (list ≠ [] → (x.shown = none ∨ x.level ≠ some (topLevel p list)) →
                y.shown = list.head? ∧ y.level = some (topLevel p list) ∧ y.dwell = some (p.after p.params.rotateMs))
            ∧ ∀ m, x.shown = some m → x.level = some (topLevel p list) → list ≠ [] →
                y.level = x.level ∧ (m ∈ list → y.shown = x.shown ∧ y.dwell = x.dwell)
                  ∧ (m ∉ list → y.shown = nextAfter list m ∧ y.dwell = some (p.after p.params.rotateMs)))
      ∧ (y.version = x.version → (recompose p d j r mode).lnk = d.lnk)
      ∧ (y.version ≠ x.version → ∀ q, (d.ring n.ring).node n.position = some q → q.state.joined = true →
          ∃ q' e, ((recompose p d j r mode).ring n.ring).node n.position = some q' ∧ e ∈ q'.queue
            ∧ e.region = some r ∧ e.version = y.version ∧ e.content = y.content
            ∧ e.kind = (if p.governing n = none then .paint else .alert)
            ∧ (e.chime = mode.chime
                ∨ (mode.chime = 0 ∧ ∃ old ∈ q.queue, old.region = some r ∧ e.chime = old.chime)))
      ∧ ∀ j' r', (j', r') ≠ (j, r) → (recompose p d j r mode).cmp.region j' r' = d.cmp.region j' r' := by
  have hversion : (x.after p d j n r mode).version
      = if x.handed p d j n r mode = true then x.version + 1 else x.version := rfl
  refine ⟨x.after p d j n r mode, recompose_region_same hn hx mode, rfl, rfl, ?_, fun hr => ?_, fun hr => ?_,
    fun hv => ?_, fun hv q hq hj => ?_, fun j' r' hne => recompose_region_other mode fun hj hr => hne (by rw [hj, hr])⟩
  · rw [hversion]
    exact if_congr RegionRecord.handed_eq_true rfl rfl
  · have hchosen : x.chosen p n r = x := if_neg (by simp [hr])
    exact ⟨congrArg (·.shown) hchosen, congrArg (·.level) hchosen, congrArg (·.dwell) hchosen⟩
  · have hchosen : x.chosen p n r = rotate p n x := if_pos hr
    have hspec := rotate_spec p n x (hl.trans (by rw [Cmp.region_eq_some hx]))
    rw [← hchosen] at hspec
    exact hspec
  · refine recompose_lnk_of_not_handed hn hx (Bool.eq_false_iff.mpr fun hh => ?_)
    rw [hversion, if_pos hh] at hv
    exact version_succ_ne _ hv
  · have hh : x.handed p d j n r mode = true := by
      by_contra hh
      exact hv (hversion.trans (if_neg hh))
    obtain ⟨new, hnew, e, he, hregion, hver, hcontent, hkind, hchime⟩ :=
      recompose_waitingFor_same hn hx hh (Disp.waitingFor_of_node hq hj r)
    obtain ⟨q', hq', rfl⟩ := Disp.node_of_waitingFor hnew
    refine ⟨q', e, hq', he.1, hregion, hver.trans (hversion.trans (if_pos hh)).symm, hcontent,
      hkind.trans (x.request_kind p j n r mode.chime), ?_⟩
    obtain h0 | ⟨h0, old, hold, hor, hoc⟩ := hchime
    · exact .inl h0
    · exact .inr ⟨h0, old, hold.1, hor, hoc⟩

/-- Settles O32: the repaint re-issues each region once, a recomposition leaves the composed record, and the sources are
the tables' rows. -/
theorem repaintCompletes : Obligations.RepaintCompletes := by
  refine ⟨fun s j n r x hfree hrest _ hreq hn hr hx => repaint_reissues hfree hrest hreq hn hr hx,
    fun p d j n r x mode list hn hx hl => recompose_spec mode hn hx hl, fun p j n shown =>
    ⟨fun hg r => ?_, fun k hk => composed_of_governing hk j shown, fun m => ⟨rfl, rfl⟩, fun m => rfl, ⟨rfl, rfl⟩,
      fun ht => ?_, fun hl => ⟨fun ht => ?_, ?_⟩, fun l hl => ⟨fun ht => ?_, normalContent_trip_of_some hl⟩,
      fun hh => ?_, fun a cfg est hh hcfg h1 h2 h3 h4 h5 => ?_, fun hu => if_pos hu, fun hu => if_neg hu,
      fun c d => floorText_eq_nil, fun c d cfg a express hcfg hstate ha hexpress => ?_,
      fun holds hholds => governing_spec fun k => (hholds k).trans (channel_holds_iff p n k).symm,
      nodeFloor_carPanel, nodeFloor_bound⟩⟩
  · simp only [composed, hg]
  · simp only [normalContent, ht]
    exact carArrow_eq p n.car n.deck
  · simp only [normalContent, ht, lanternArrow, hl]
  · simp only [normalContent, lanternLit_of_none hl, Bool.false_eq_true, if_false]
  · simp only [normalContent, ht]
    exact lanternArrow_of_some hl
  · simp only [normalContent, hh]
  · simp only [normalContent, hh, promptText_of_config hcfg, estimateText_unique h1 h2 h3 h4 h5]
    rfl
  · rw [floorText_of_known hcfg hstate ha, floorBody_eq]
    simp only [CarConfig.deckMark, hexpress]

end Sys2Proof.Machine
end

section
/-! SUPPORT. The sizes of the tables on the display side (Table 1-1), and that no operation of CMP, the link engines or RPT
changes one of them. -/

namespace Sys2Proof.Machine

/-! ### Lists of units -/

/-- Replacing a unit by one of the same size keeps the sizes. -/
theorem map_set_of_same {α β : Type} (f : α → β) {l : List α} {i : Nat} {x dflt : α} (h : f x = f (l.getD i dflt)) :
    (l.set i x).map f = l.map f := by
  rw [List.map_set]
  by_cases hi : i < l.length
  · have hf : f x = (l.map f)[i]'(by rwa [List.length_map]) := by
      rw [h, List.getD_eq_getElem?_getD, List.getElem?_eq_getElem hi, Option.getD_some, List.getElem_map]
    rw [hf]
    exact List.set_getElem_self _
  · exact List.set_eq_of_length_le (by rw [List.length_map]; omega)

/-! ### RPT -/

/-- The sizes of RPT's tables: report slots, status records, counters. -/
def Rpt.sizes (r : Rpt) : Nat × Nat × Nat := (r.slots.length, r.records.length, r.counters.length)

@[simp] theorem Rpt.status_sizes (r : Rpt) (i : Nat) (f : List Word) : (r.status i f).sizes = r.sizes := by
  simp [Rpt.sizes, Rpt.status]

theorem Rpt.setCounters_sizes (r : Rpt) {c : List (BitVec 16)} (h : c.length = r.counters.length) :
    (r.setCounters c).sizes = r.sizes := by
  unfold Rpt.setCounters
  split
  · rfl
  · rw [Rpt.status_sizes]
    simp [Rpt.sizes, h]

@[simp] theorem Rpt.count_sizes (r : Rpt) (c : CounterId) (n : Nat) : (r.count c n).sizes = r.sizes :=
  r.setCounters_sizes (List.length_modify ..)

@[simp] theorem Rpt.hand_sizes (r : Rpt) (now : Time) (w : Word × Word) : (r.hand now w).sizes = r.sizes := by
  unfold Rpt.hand
  split
  · rfl
  · split
    · rfl
    · exact Rpt.count_sizes _ _ _

@[simp] theorem Rpt.setSlot_sizes (r : Rpt) (i : Nat) (st : SlotState) : (r.setSlot i st).sizes = r.sizes := by
  simp [Rpt.sizes, Rpt.setSlot]

@[simp] theorem Rpt.consume_sizes (r : Rpt) (i : Nat) : (r.consume i).sizes = r.sizes := by
  unfold Rpt.consume
  split
  · exact r.setSlot_sizes i .free
  · rfl

/-- A counters clear leaves 16 counters, whatever was there. -/
theorem Rpt.clearCounters_sizes (r : Rpt) : r.clearCounters.sizes = (r.slots.length, r.records.length, 16) := by
  unfold Rpt.clearCounters
  rw [Rpt.status_sizes]
  rfl

theorem Rpt.beginRecord_sizes (r : Rpt) (i : Nat) : (r.beginRecord i).sizes = r.sizes := by
  unfold Rpt.beginRecord
  split <;> simp [Rpt.sizes]

@[simp] theorem Rpt.choose_sizes (r : Rpt) : r.choose.sizes = r.sizes := by
  unfold Rpt.choose
  split
  · split
    · rfl
    · unfold Rpt.chooseSequence
      split
      · rfl
      · split
        · split <;> rfl
        · split
          · rfl
          · exact r.beginRecord_sizes _
  all_goals rfl

@[simp] theorem Rpt.write_sizes (r : Rpt) (a : Nat) : (r.write a).1.sizes = r.sizes := by
  unfold Rpt.write
  split
  · rfl
  · unfold Rpt.writeEntry
    split
    · unfold Rpt.firstWrite
      split
      · rfl
      · exact r.setSlot_sizes r.producer .writing
    · split
      · rfl
      · exact r.setSlot_sizes r.producer .unconsumed
  · simp only [Rpt.writeRecord]
    split <;> rfl
  · rfl

/-! ### CMP and the link engines -/

/-- The sizes of the display side: CMP's node records, the nodes of each ring, RPT's tables. -/
def Disp.sizes (d : Disp) : Nat × List Nat × Nat × Nat × Nat :=
  (d.cmp.nodes.length, d.lnk.map (·.nodes.length), d.rpt.sizes)

theorem Disp.onRpt_sizes (d : Disp) {f : Rpt → Rpt} (h : (f d.rpt).sizes = d.rpt.sizes) :
    (d.onRpt f).sizes = d.sizes := by
  simp [Disp.sizes, h]

/-- A link engine replaced by one with as many nodes. -/
theorem Disp.setRing_sizes (d : Disp) {n : Nat} {r : Ring} (h : r.nodes.length = (d.ring n).nodes.length) :
    (d.setRing n r).sizes = d.sizes := by
  simp only [Disp.sizes, Disp.setRing_cmp, Disp.setRing_lnk, Disp.setRing_rpt]
  rw [map_set_of_same (fun r : Ring => r.nodes.length) (dflt := Ring.reset) h]

@[simp] theorem Ring.setNode_length (r : Ring) (position : Nat) (n : LinkNode) :
    (r.setNode position n).nodes.length = r.nodes.length := by
  simp only [Ring.setNode]
  split <;> simp

@[simp] theorem Disp.setNode_sizes (d : Disp) (ring position : Nat) (n : LinkNode) :
    (d.setNode ring position n).sizes = d.sizes := d.setRing_sizes (Ring.setNode_length ..)

theorem Disp.request_sizes (d : Disp) (ring position : Nat) (e : QueueEntry) :
    (d.request ring position e).sizes = d.sizes := by
  unfold Disp.request
  split
  · rfl
  · split
    · exact d.setNode_sizes ring position _
    · rfl

theorem Cmp.setRegion_length (c : Cmp) (j : Nat) (x : RegionRecord) :
    (c.setRegion j x).nodes.length = c.nodes.length := by
  simp [Cmp.setRegion]

/-- A region record replaced, and RPT's tables of the same sizes. -/
theorem Disp.setRegion_sizes (d : Disp) (j : Nat) (x : RegionRecord) {r : Rpt} (h : r.sizes = d.rpt.sizes) :
    ({ d with cmp := d.cmp.setRegion j x, rpt := r } : Disp).sizes = d.sizes := by
  simp only [Disp.sizes, Cmp.setRegion_length, h]

theorem recompose_sizes (p : Part) (d : Disp) (j : Nat) (r : Region) (mode : RecomposeMode) :
    (recompose p d j r mode).sizes = d.sizes := by
  unfold recompose
  split
  · next n x _ _ =>
    generalize (if isMessageRegion r then rotate p n x else x) = x1
    simp only
    split
    · split
      · exact (Disp.request_sizes ..).trans (d.setRegion_sizes j _ (Rpt.count_sizes ..))
      · exact d.setRegion_sizes j _ rfl
    · exact d.setRegion_sizes j _ rfl
  · rfl

theorem recomposeAll_sizes (p : Part) (d : Disp) (l : List Target) : (recomposeAll p d l).sizes = d.sizes := by
  refine foldl_keeps Disp.sizes (fun d t => ?_) l d
  exact recompose_sizes p d t.1 t.2.1 t.2.2

theorem reissueIn_sizes (p : Part) (d : Disp) (j : Nat) : (reissueIn p d j).sizes = d.sizes := by
  unfold reissueIn
  split
  · rfl
  · exact recomposeAll_sizes ..

@[simp] theorem setReachable_sizes (d : Disp) (j : Nat) (on : Bool) : (setReachable d j on).sizes = d.sizes := by
  simp [setReachable, Disp.sizes]

theorem nodeJoined_sizes (p : Part) (d : Disp) (j : Nat) : (nodeJoined p d j).sizes = d.sizes :=
  (reissueIn_sizes ..).trans (setReachable_sizes ..)

theorem repaintIn_sizes (p : Part) (d : Disp) : (repaintIn p d).sizes = d.sizes := by
  refine foldl_keeps Disp.sizes (fun d j => ?_) _ d
  split
  · exact reissueIn_sizes p d j
  · rfl

theorem dwellDeadline_sizes (p : Part) (d : Disp) (j : Nat) (r : Region) : (dwellDeadline p d j r).sizes = d.sizes := by
  unfold dwellDeadline
  split
  · split
    · split
      · exact (recompose_sizes ..).trans (d.setRegion_sizes j _ rfl)
      · rfl
    · rfl
  · rfl

/-! ### The link engines' operations (chapter 8) -/

theorem Disp.linkNotice_sizes (d : Disp) (ring : Nat) : (d.linkNotice ring).sizes = d.sizes :=
  d.onRpt_sizes (Rpt.status_sizes ..)

theorem Disp.nodeNotice_sizes (d : Disp) (ring position : Nat) : (d.nodeNotice ring position).sizes = d.sizes := by
  unfold Disp.nodeNotice
  split
  · rfl
  · exact d.onRpt_sizes (Rpt.status_sizes ..)

theorem Disp.nodeNoticeIf_sizes (d : Disp) (ring position : Nat) (n : LinkNode) :
    (d.nodeNoticeIf ring position n).sizes = d.sizes := by
  unfold Disp.nodeNoticeIf
  split
  · rfl
  · split
    · rfl
    · exact d.nodeNotice_sizes ring position

/-- A report handed within the display side, when there is one. -/
theorem Disp.hand_sizes (d : Disp) (now : Time) (w : Word × Word) : (d.onRpt (·.hand now w)).sizes = d.sizes :=
  d.onRpt_sizes (Rpt.hand_sizes ..)

theorem Part.loseNode_sizes (p : Part) (d : Disp) (ring position : Nat) (report : Bool) :
    (p.loseNode d ring position report).sizes = d.sizes := by
  unfold Part.loseNode
  split
  · rfl
  · simp only
    rw [Disp.nodeNotice_sizes]
    have lost : ∀ n : LinkNode, ∀ i,
        (nodeLost (d.setRing ring (((d.ring ring).abandonAt position).setNode position n)) i).sizes = d.sizes :=
      fun n i => (setReachable_sizes ..).trans (d.setRing_sizes (Ring.setNode_length ..))
    split
    · exact (Disp.hand_sizes ..).trans (lost _ _)
    · exact lost _ _

theorem Part.joinNode_sizes (p : Part) (d : Disp) (ring position : Nat) (n : LinkNode) (a : Arrived) :
    (p.joinNode d ring position n a).sizes = d.sizes := by
  simp only [Part.joinNode]
  rw [Disp.nodeNotice_sizes]
  split
  · exact (Disp.hand_sizes ..).trans ((nodeJoined_sizes ..).trans (Disp.setNode_sizes ..))
  · exact (nodeJoined_sizes ..).trans (Disp.setNode_sizes ..)

theorem Part.decideAccepted_sizes (p : Part) (d : Disp) (ring : Nat) (rec : SendRecord) (n : LinkNode) (a : Arrived) :
    (p.decideAccepted d ring rec n a).sizes = d.sizes := by
  simp only [Part.decideAccepted]
  split
  · exact (reissueIn_sizes ..).trans ((Disp.nodeNoticeIf_sizes ..).trans (d.setRing_sizes (Ring.setNode_length ..)))
  · exact (Disp.nodeNoticeIf_sizes ..).trans (d.setRing_sizes (Ring.setNode_length ..))

theorem Part.decideRejected_sizes (p : Part) (d : Disp) (ring : Nat) (rec : SendRecord) (n : LinkNode) :
    (p.decideRejected d ring rec n).sizes = d.sizes :=
  (Disp.hand_sizes ..).trans (d.setRing_sizes (Ring.setNode_length ..))

theorem Part.decideFailed_sizes (p : Part) (d : Disp) (ring : Nat) (rec : SendRecord) (n : LinkNode) :
    (p.decideFailed d ring rec n).sizes = d.sizes := by
  simp only [Part.decideFailed]
  split
  · exact (Part.loseNode_sizes ..).trans (d.setRing_sizes (Ring.setNode_length ..))
  · exact (Disp.nodeNoticeIf_sizes ..).trans (d.setRing_sizes (Ring.setNode_length ..))

theorem Part.decideFrame_sizes (p : Part) (d : Disp) (ring tag : Nat) (rec : SendRecord) (answer : Option Arrived) :
    (p.decideFrame d ring tag rec answer).sizes = d.sizes := by
  unfold Part.decideFrame
  split
  · rfl
  · split
    · exact Part.decideFailed_sizes ..
    · split
      · exact Part.decideAccepted_sizes ..
      · exact (Disp.setNode_sizes ..).trans (d.setRing_sizes rfl)
      · exact Part.decideRejected_sizes ..
      · exact Part.decideFailed_sizes ..
    · exact Disp.setNode_sizes ..
    · split
      · exact Part.joinNode_sizes ..
      all_goals exact Disp.setNode_sizes ..

theorem Ring.noticeReturn_nodes (r : Ring) (rec : SendRecord) (port : Port) :
    (r.noticeReturn rec port).nodes = r.nodes := by
  unfold Ring.noticeReturn
  split <;> rfl

theorem Part.returnOutstanding_sizes (p : Part) (ring tag : Nat) (rec : SendRecord) (port : Port) (a : Arrived) :
    (p.returnOutstanding ring tag rec port a).sizes = p.disp.sizes := by
  have noticed := congrArg List.length ((p.disp.ring ring).noticeReturn_nodes rec port)
  simp only [Part.returnOutstanding]
  split
  · refine p.disp.setRing_sizes ?_
    unfold Ring.returnTrace
    split <;> rfl
  · split
    · split
      · split
        · exact p.disp.setRing_sizes noticed
        · exact (Part.decideFrame_sizes ..).trans (p.disp.setRing_sizes noticed)
      · exact (Part.decideFrame_sizes ..).trans (p.disp.setRing_sizes noticed)
    · exact (Part.decideFrame_sizes ..).trans (p.disp.setRing_sizes noticed)

theorem Ring.send_length (r : Ring) (p : Part) (ring tag : Nat) (c : Choice) :
    (r.send p ring tag c).nodes.length = r.nodes.length := by
  unfold Ring.send
  split
  · rfl
  all_goals
    split
    · rfl
    · exact Ring.setNode_length ..

theorem Ring.afterTrace_nodes (r : Ring) (ring : Nat) (result : TraceResult) :
    (r.afterTrace ring result).1.nodes = r.nodes := by
  unfold Ring.afterTrace
  split
  case h_7 => split <;> rfl
  all_goals rfl

theorem Part.loseRing_sizes (p : Part) (d : Disp) (ring : Nat) : (p.loseRing d ring).sizes = d.sizes := by
  refine foldl_keeps Disp.sizes (fun d i => ?_) _ d
  split
  · rfl
  · split
    · exact Part.loseNode_sizes ..
    · rfl

theorem clearStatistics_sizes (d : Disp) : (clearStatistics d).sizes = d.sizes := by
  refine foldl_keeps Disp.sizes (fun d n => ?_) _ d
  exact (Disp.linkNotice_sizes _ n).trans (d.setRing_sizes rfl)

end Sys2Proof.Machine
end

section
/-! SUPPORT. The sizes of the part's tables (Table 1-1), and the operations that keep every one of them and add no live
assignment. -/

namespace Sys2Proof.Machine

/-! ### Sizes of the part -/

/-- The sizes of the part's tables but the assignment table: the decks of each car; floors, car slots and node entries; the
marks of ARR and PRM; messages, triggers and channels; the display side. -/
structure Sizes where
  decks : List Nat
  geo : Nat × Nat × Nat
  marks : Nat × Nat × Nat
  texts : Nat × Nat × Nat
  disp : Nat × List Nat × Nat × Nat × Nat

def Part.sizes (p : Part) : Sizes where
  decks := p.trk.map (·.decks.length)
  geo := (p.geo.floors.length, p.geo.cars.length, p.nodes.length)
  marks := (p.arr.withdrawn.length, p.prm.withdrawn.length, p.prm.dropReported.length)
  texts := (p.msg.length, p.trg.length, p.ovr.length)
  disp := p.disp.sizes

/-- The fixed lengths of Table 1-1, as a test of sizes. -/
def Sizes.shaped (s : Sizes) : Bool :=
  (s.decks.length = Config.maxCars && s.decks.all (· = 2))
    && (s.geo.2.1 = Config.maxCars && s.geo.2.2 = Config.maxNodes)
    && (s.marks.1 = Config.maxCars && s.marks.2.1 = Config.maxCars)
    && (s.marks.2.2 = Config.channels && s.texts.2.2 = Config.channels)
    && (s.texts.1 = Config.maxMessages && s.texts.2.1 = Config.maxTriggers)
    && (s.disp.1 = Config.maxNodes && s.disp.2.1.length = Config.rings)
    && (s.disp.2.2.1 = Config.reportSlots && s.disp.2.2.2.1 = Config.statusRecords)
    && s.disp.2.2.2.2 = 16

theorem Part.shaped_eq (p : Part) : p.shaped = p.sizes.shaped := by
  simp only [Part.shaped, Sizes.shaped, Part.sizes, Disp.sizes, Rpt.sizes, List.length_map, List.all_map]
  rfl

theorem Part.bounded_iff (p : Part) :
    p.bounded = true ↔ p.sizes.geo.1 ≤ Config.maxFloors ∧ p.prm.table.length ≤ Config.maxAssignments
      ∧ ∀ n ∈ p.sizes.disp.2.1, n ≤ Config.maxPosition := by
  simp [Part.bounded, Part.sizes, Disp.sizes, and_assoc]

/-- `q` has `p`'s sizes, and no more live assignments. -/
def Part.Keeps (p q : Part) : Prop := q.sizes = p.sizes ∧ q.prm.table.length ≤ p.prm.table.length

/-- The sizes of Table 1-1 hold of `q` where they hold of `p`. -/
def Part.Stays (p q : Part) : Prop := (p.shaped = true → q.shaped = true) ∧ (p.bounded = true → q.bounded = true)

theorem Part.Keeps.refl (p : Part) : p.Keeps p := ⟨rfl, le_rfl⟩

theorem Part.Keeps.trans {p q r : Part} (h : p.Keeps q) (h' : q.Keeps r) : p.Keeps r :=
  ⟨h'.1.trans h.1, h'.2.trans h.2⟩

theorem Part.Stays.refl (p : Part) : p.Stays p := ⟨id, id⟩

theorem Part.Stays.trans {p q r : Part} (h : p.Stays q) (h' : q.Stays r) : p.Stays r :=
  ⟨h'.1 ∘ h.1, h'.2 ∘ h.2⟩

/-- The same sizes and a table within its bound. -/
theorem Part.Stays.of_sizes {p q : Part} (h : q.sizes = p.sizes)
    (ht : p.prm.table.length ≤ Config.maxAssignments → q.prm.table.length ≤ Config.maxAssignments) : p.Stays q := by
  refine ⟨fun hp => ?_, fun hp => ?_⟩
  · rw [Part.shaped_eq] at hp ⊢
    rw [h, hp]
  · obtain ⟨hf, hn, hr⟩ := p.bounded_iff.mp hp
    exact q.bounded_iff.mpr ⟨h ▸ hf, ht hn, h ▸ hr⟩

theorem Part.Keeps.stays {p q : Part} (h : p.Keeps q) : p.Stays q := .of_sizes h.1 h.2.trans

/-- What every round of a fold keeps, the fold keeps. -/
theorem Part.Keeps.foldl {β : Type} {f : Part → β → Part} (h : ∀ (q : Part) (x : β), q.Keeps (f q x)) (l : List β) (p : Part) :
    p.Keeps (l.foldl f p) := by
  induction l generalizing p with
  | nil => exact .refl p
  | cons x l ih => exact (h p x).trans (ih _)

theorem Part.Stays.foldl {β : Type} {f : Part → β → Part} (h : ∀ (q : Part) (x : β), q.Stays (f q x)) (l : List β) (p : Part) :
    p.Stays (l.foldl f p) := by
  induction l generalizing p with
  | nil => exact .refl p
  | cons x l ih => exact (h p x).trans (ih _)

/-- A choice between two keeping operations keeps. -/
theorem Part.Keeps.ite {p q r : Part} {c : Prop} [Decidable c] (hq : p.Keeps q) (hr : p.Keeps r) :
    p.Keeps (if c then q else r) := by
  split
  · exact hq
  · exact hr

/-! ### The parts an operation may change -/

/-- A display side of the same sizes. -/
theorem Part.Keeps.disp (p : Part) {d : Disp} (h : d.sizes = p.disp.sizes) : p.Keeps { p with disp := d } :=
  ⟨by simp only [Part.sizes, h], le_rfl⟩

theorem Part.onRpt_keeps (p : Part) {f : Rpt → Rpt} (h : (f p.disp.rpt).sizes = p.disp.rpt.sizes) :
    p.Keeps (p.onRpt f) := .disp p (p.disp.onRpt_sizes h)

theorem Part.onPath_keeps (p : Part) (f : Path → Path) : p.Keeps (p.onPath f) := ⟨rfl, le_rfl⟩

theorem Part.Keeps.onlyArr {p q : Part} (h : p.Keeps q) : p.Keeps (p.onlyArr q) := by
  refine ⟨?_, h.2⟩
  have hs := h.1
  simp only [Part.sizes, Sizes.mk.injEq] at hs
  simp only [Part.sizes, Part.onlyArr_trk, Part.onlyArr_geo, Part.onlyArr_nodes, Part.onlyArr_arr, Part.onlyArr_prm,
    Part.onlyArr_msg, Part.onlyArr_trg, Part.onlyArr_ovr, Part.onlyArr_disp, hs]

theorem Part.sizes_onlyPrm {p q : Part} (h : q.sizes = p.sizes) : (p.onlyPrm q).sizes = p.sizes := by
  simp only [Part.sizes, Sizes.mk.injEq, Prod.mk.injEq] at h
  simp only [Part.sizes, Part.onlyPrm_trk, Part.onlyPrm_geo, Part.onlyPrm_nodes, Part.onlyPrm_arr, Part.onlyPrm_prm,
    Part.onlyPrm_msg, Part.onlyPrm_trg, Part.onlyPrm_ovr, Part.onlyPrm_disp, h]

theorem Part.Keeps.onlyPrm {p q : Part} (h : p.Keeps q) : p.Keeps (p.onlyPrm q) := ⟨Part.sizes_onlyPrm h.1, h.2⟩

theorem Part.Keeps.onlyMsg {p q : Part} (h : p.Keeps q) : p.Keeps (p.onlyMsg q) := by
  refine ⟨?_, le_rfl⟩
  have hs := h.1
  simp only [Part.sizes, Sizes.mk.injEq] at hs
  simp only [Part.sizes, Part.onlyMsg_trk, Part.onlyMsg_geo, Part.onlyMsg_nodes, Part.onlyMsg_arr, Part.onlyMsg_prm,
    Part.onlyMsg_msg, Part.onlyMsg_trg, Part.onlyMsg_ovr, Part.onlyMsg_disp, hs]

theorem Part.setCar_keeps (p : Part) (c : Nat) {x : Car} (h : x.decks.length = (p.car c).decks.length) :
    p.Keeps (p.setCar c x) := by
  refine ⟨?_, le_rfl⟩
  simp only [Part.sizes, Part.setCar_trk]
  rw [map_set_of_same (fun x : Car => x.decks.length) (dflt := Car.fresh) h]
  rfl

theorem Part.setMessage_keeps (p : Part) (m : Nat) (e : Message) : p.Keeps (p.setMessage m e) :=
  ⟨by simp [Part.sizes], le_rfl⟩

theorem Part.setChannel_keeps (p : Part) (k : Nat) (c : Channel) : p.Keeps (p.setChannel k c) :=
  ⟨by simp [Part.sizes], le_rfl⟩

theorem Part.setTrigger_keeps (p : Part) (t : Nat) (x : Trigger) : p.Keeps (p.setTrigger t x) :=
  ⟨by simp [Part.sizes], le_rfl⟩

theorem Part.setAssignment_keeps (p : Part) (n : Nat) (f : Assignment → Assignment) : p.Keeps (p.setAssignment n f) :=
  ⟨rfl, by simp [Part.setAssignment]⟩

theorem Part.setQueue_keeps (p : Part) (t : Nat) (l : List Nat) : p.Keeps (p.setQueue t l) := ⟨rfl, le_rfl⟩

theorem Part.setLantern_keeps (p : Part) (i : Nat) (l : Lantern) : p.Keeps (p.setLantern i l) := ⟨rfl, le_rfl⟩

/-- Fetch jobs have no size in Table 1-1. -/
theorem Part.Keeps.txf (p : Part) (t : Txf) : p.Keeps { p with txf := t } := ⟨rfl, le_rfl⟩

/-! ### RPT and CMP (R120, R181, R185, R186) -/

theorem Part.report_keeps (p : Part) (w : Word × Word) : p.Keeps (p.report w) := p.onRpt_keeps (Rpt.hand_sizes ..)

theorem Part.count_keeps (p : Part) (c : CounterId) (n : Nat) : p.Keeps (p.count c n) :=
  p.onRpt_keeps (Rpt.count_sizes ..)

theorem Part.status_keeps (p : Part) (i : Nat) (f : List Word) : p.Keeps (p.status i f) :=
  p.onRpt_keeps (Rpt.status_sizes ..)

/-- A counted and reported refusal. -/
theorem Part.count_report_keeps (p : Part) (c : CounterId) (n : Nat) (w : Word × Word) :
    p.Keeps ((p.count c n).report w) := (p.count_keeps c n).trans (Part.report_keeps _ w)

theorem Part.recomposeFor_keeps (p : Part) (f : Nat → NodeConfig → List Region) : p.Keeps (p.recomposeFor f) :=
  .disp p (recomposeAll_sizes ..)

theorem Part.cmpDeckChange_keeps (p : Part) (c d : Nat) : p.Keeps (p.cmpDeckChange c d) := p.recomposeFor_keeps _

theorem Part.cmpLanternChange_keeps (p : Part) (c d f k : Nat) : p.Keeps (p.cmpLanternChange c d f k) :=
  .disp p (recomposeAll_sizes ..)

theorem Part.cmpHeadChange_keeps (p : Part) (t : Nat) : p.Keeps (p.cmpHeadChange t) := p.recomposeFor_keeps _

theorem Part.cmpEstimateChange_keeps (p : Part) (n : Nat) : p.Keeps (p.cmpEstimateChange n) := by
  unfold Part.cmpEstimateChange
  split
  · exact .refl p
  · exact .ite (p.cmpHeadChange_keeps _) (.refl p)

theorem Part.cmpTripNotice_keeps (p : Part) (c d f : Nat) : p.Keeps (p.cmpTripNotice c d f) := p.recomposeFor_keeps _

theorem Part.cmpMessageNotice_keeps (p : Part) : p.Keeps p.cmpMessageNotice := p.recomposeFor_keeps _

theorem Part.cmpChannelChange_keeps (p : Part) : p.Keeps p.cmpChannelChange := p.recomposeFor_keeps _

theorem Part.cmpTextNotice_keeps (p : Part) (k : Nat) (b : Bool) : p.Keeps (p.cmpTextNotice k b) :=
  p.recomposeFor_keeps _

/-! ### ARR (chapter 3) -/

theorem Part.setHeld_keeps (p : Part) (n : Nat) (old : Option Estimate) (new : Estimate) :
    p.Keeps (p.setHeld n old new) := by
  have held := p.setAssignment_keeps n fun a => { a with estimate := some new }
  exact .ite held (held.trans (Part.cmpEstimateChange_keeps _ n))

theorem Part.promptEstimate_keeps (p : Part) (n : Nat) (fresh : Bool) : p.Keeps (p.promptEstimate n fresh) := by
  refine Part.Keeps.onlyArr ?_
  split
  · exact .refl p
  · exact .ite (.refl p) (Part.Keeps.trans (.ite (p.count_keeps _ _) (.refl p)) (Part.setHeld_keeps _ _ _ _))

theorem Part.promptEnded_keeps (p : Part) (n : Nat) : p.Keeps (p.promptEnded n) := (p.setAssignment_keeps n _).onlyArr

theorem Part.changeLantern_keeps (p : Part) (i : Nat) (l : Lantern) (chime : Nat) :
    p.Keeps (p.changeLantern i l chime) := (p.setLantern_keeps i l).trans (Part.cmpLanternChange_keeps _ _ _ _ _)

theorem Part.lightLantern_keeps (p : Part) (i : Nat) (l : Lantern) (st : LanternState) :
    p.Keeps (p.lightLantern i l st) := p.changeLantern_keeps i _ _

theorem Part.lanternDarken_keeps (p : Part) (i : Nat) : p.Keeps (p.lanternDarken i) := by
  unfold Part.lanternDarken
  split
  · exact .refl p
  · exact .ite (p.changeLantern_keeps i _ 0) (.refl p)

theorem Part.lanternTurn_keeps (p : Part) (i : Nat) : p.Keeps (p.lanternTurn i) := by
  unfold Part.lanternTurn
  split
  · exact .refl p
  · exact .ite (p.changeLantern_keeps i _ 0) (.refl p)

theorem Part.lanternLight_keeps (p : Part) (i : Nat) : p.Keeps (p.lanternLight i) := by
  unfold Part.lanternLight
  split
  · exact .refl p
  · exact .ite (p.setLantern_keeps i _) (.ite (.ite (p.lightLantern_keeps i _ _)
      (.ite (p.lightLantern_keeps i _ _) (.refl p))) (.refl p))

theorem Part.lanternConsumer_keeps (p : Part) (c d : Nat) : p.Keeps (p.lanternConsumer c d) := by
  unfold Part.lanternConsumer
  split
  · exact ⟨rfl, le_rfl⟩
  · exact Part.Keeps.trans (.ite (p.count_keeps _ _) (.refl p)) ⟨rfl, le_rfl⟩

theorem Part.evaluateDeckLanterns_keeps (p : Part) (c d : Nat) : p.Keeps (p.evaluateDeckLanterns c d) :=
  (p.lanternConsumer_keeps c d).trans <| .foldl (fun q i =>
    ((q.lanternDarken_keeps i).trans (Part.lanternTurn_keeps _ i)).trans (Part.lanternLight_keeps _ i)) _ _

theorem Part.arrEvaluation_keeps (p : Part) (c : Nat) : p.Keeps (p.arrEvaluation c) :=
  ((Part.Keeps.foldl (fun q d => q.evaluateDeckLanterns_keeps c d) _ p).trans
    (.foldl (fun q n => q.promptEstimate_keeps n false) _ _)).onlyArr

theorem Part.arrArrival_keeps (p : Part) (c d f : Nat) : p.Keeps (p.arrArrival c d f) := by
  refine (Part.Keeps.foldl (fun q i => ?_) _ p).onlyArr
  split
  · exact .refl q
  · simp only
    split
    · exact .ite (q.lightLantern_keeps i _ _) (q.setLantern_keeps i _)
    · exact q.changeLantern_keeps i _ _
    · exact q.setLantern_keeps i _

theorem Part.arrDeparture_keeps (p : Part) (c d f : Nat) : p.Keeps (p.arrDeparture c d f) := by
  refine (Part.Keeps.foldl (fun q i => ?_) _ p).onlyArr
  split
  · exact .refl q
  · exact .ite (q.setLantern_keeps i _) (q.changeLantern_keeps i _ _)

/-- ARR's withdrawn mark of one car. -/
theorem Part.arrMark_keeps (p : Part) (c : Nat) (b : Bool) :
    p.Keeps { p with arr := { p.arr with withdrawn := p.arr.withdrawn.set c b } } :=
  ⟨by simp [Part.sizes], le_rfl⟩

theorem Part.arrWithdraw_keeps (p : Part) (c : Nat) : p.Keeps (p.arrWithdraw c) := by
  refine (((p.arrMark_keeps c true).trans (.foldl (fun q i => ?_) _ _)).trans
    (.foldl (fun q (a : Assignment) => q.setHeld_keeps a.number a.estimate .none) _ _)).onlyArr
  split
  · exact .refl q
  · exact .ite (q.setLantern_keeps i _) (q.changeLantern_keeps i _ _)

theorem Part.arrReturn_keeps (p : Part) (c : Nat) : p.Keeps (p.arrReturn c) := p.arrMark_keeps c false

/-! ### PRM (chapter 4) -/

theorem Part.becomeHead_keeps (p : Part) (t : Nat) : p.Keeps (p.becomeHead t) := by
  unfold Part.becomeHead
  split
  · exact p.cmpHeadChange_keeps t
  · split
    · exact .refl p
    · exact .ite ((p.setAssignment_keeps _ _).trans (Part.cmpHeadChange_keeps _ t)) (.refl p)

theorem Part.endShowing_keeps (p : Part) (t : Nat) : p.Keeps (p.endShowing t) := by
  unfold Part.endShowing
  split
  · exact .refl p
  · exact ((p.setAssignment_keeps _ _).trans (Part.setQueue_keeps _ t _)).trans (Part.promptEnded_keeps _ _)

theorem Part.enterQueue_keeps (p : Part) (n t : Nat) (stepFree : Bool) : p.Keeps (p.enterQueue n t stepFree) := by
  have room : p.Keeps (if decide (Config.queueLimit ≤ (p.queueOf t).length) then p.endShowing t else p) :=
    .ite (p.endShowing_keeps t) (.refl p)
  have entered : ∀ q : Part, p.Keeps q → ∀ l,
      p.Keeps (((q.setQueue t l).setAssignment n fun x => { x with prompt := .queued }).promptEstimate n true) :=
    fun q hq l => ((hq.trans (q.setQueue_keeps t l)).trans (Part.setAssignment_keeps _ n _)).trans
      (Part.promptEstimate_keeps _ n true)
  exact .ite ((entered _ room _).trans (Part.becomeHead_keeps _ t)) (entered _ room _)

theorem Part.tripNotices_keeps (p before : Part) (keys : List TripKey) : p.Keeps (p.tripNotices before keys) := by
  unfold Part.tripNotices
  exact Part.Keeps.foldl (f := fun q (k : TripKey) => q.cmpTripNotice k.1 k.2.1 k.2.2)
    (fun q k => q.cmpTripNotice_keeps k.1 k.2.1 k.2.2) _ p

/-- A removal leaves at most the entries it does not name. -/
theorem Part.removeEntries_table (p : Part) (gone : Assignment → Bool) :
    (p.removeEntries gone).sizes = p.sizes
      ∧ (p.removeEntries gone).prm.table.length ≤ (p.prm.table.filter fun a => !gone a).length := by
  have after : ∀ q : Part, q.sizes = p.sizes → q.prm.table = p.prm.table.filter (fun a => !gone a) →
      ∀ (l : List Nat) keys, (((l.foldl (fun q t => q.becomeHead t) q).tripNotices p keys)).sizes = p.sizes
        ∧ ((l.foldl (fun q t => q.becomeHead t) q).tripNotices p keys).prm.table.length
          ≤ (p.prm.table.filter fun a => !gone a).length := by
    intro q hs ht l keys
    obtain ⟨h, h'⟩ := (Part.Keeps.foldl (fun q t => q.becomeHead_keeps t) l q).trans (Part.tripNotices_keeps _ p keys)
    exact ⟨h.trans hs, h'.trans (by rw [ht])⟩
  obtain ⟨hs, ht⟩ := after { p with prm := { p.prm with
    table := p.prm.table.filter fun a => !gone a
    queues := p.prm.queues.map fun q =>
      { q with refs := q.refs.filter fun n => !((p.prm.table.filter gone).map (·.number)).contains n } } } rfl rfl _ _
  exact ⟨Part.sizes_onlyPrm hs, ht⟩

theorem Part.removeEntries_keeps (p : Part) (gone : Assignment → Bool) : p.Keeps (p.removeEntries gone) :=
  ⟨(p.removeEntries_table gone).1, (p.removeEntries_table gone).2.trans (List.length_filter_le _ _)⟩

theorem Part.retireEntries_keeps (p : Part) (gone : Assignment → Bool) (w : Nat → Word × Word) :
    p.Keeps (p.retireEntries gone w) :=
  .ite (.refl p) ((p.removeEntries_keeps gone).trans (Part.report_keeps _ _))

theorem Part.refuseAssign_keeps (p : Part) (k n : Nat) (why : AssignReason) : p.Keeps (p.refuseAssign k n why) :=
  p.count_report_keeps _ _ _

/-- PRM's drop mark of one channel. -/
theorem Part.dropMark_keeps (p : Part) (k : Nat) (b : Bool) :
    p.Keeps { p with prm := { p.prm with dropReported := p.prm.dropReported.set k b } } :=
  ⟨by simp [Part.sizes], le_rfl⟩

theorem Part.dropNew_keeps (p : Part) (k t number : Nat) (n : NodeConfig) : p.Keeps (p.dropNew k t number n) := by
  have counted := p.count_keeps .dropped 1
  exact .ite counted ((counted.trans (Part.dropMark_keeps _ k true)).trans (Part.report_keeps _ _))

/-- The entry that makes room is one of the table (R64). -/
theorem Part.displaceable_mem {p : Part} {a : Assignment} (h : p.displaceable = some a) : a ∈ p.prm.table := by
  have found : ∀ (l : List Assignment) (best : Option Assignment), (∀ b, best = some b → b ∈ p.prm.table) →
      (∀ b ∈ l, b ∈ p.prm.table) → ∀ b, l.foldl (fun best a =>
        match best with
        | none => some a
        | some b => if a.order < b.order then some a else some b) best = some b → b ∈ p.prm.table := by
    intro l
    induction l with
    | nil => exact fun best hbest _ b hb => hbest b hb
    | cons x l ih =>
      intro best hbest hl
      refine ih _ (fun b hb => ?_) fun b hb => hl b (List.mem_cons_of_mem x hb)
      have hx := hl x List.mem_cons_self
      cases best with
      | none => exact Option.some.inj hb ▸ hx
      | some y =>
        simp only at hb
        split at hb
        · exact Option.some.inj hb ▸ hx
        · exact Option.some.inj hb ▸ hbest y rfl
  exact found _ none nofun (fun b hb => List.mem_of_mem_filter hb) a h

/-- Displacement makes room (R64). -/
theorem Part.displace_table {p : Part} {a : Assignment} (h : a ∈ p.prm.table) :
    (p.displace a).sizes = p.sizes ∧ (p.displace a).prm.table.length < p.prm.table.length := by
  obtain ⟨hs, ht⟩ := p.removeEntries_table fun x => x.number = a.number
  obtain ⟨hs', ht'⟩ := Part.count_report_keeps (p.removeEntries fun x => x.number = a.number) .displaced 1
    (repRetiredDisplaced a.number)
  refine ⟨hs'.trans hs, (ht'.trans ht).trans_lt ?_⟩
  exact List.length_filter_lt_length_iff_exists.mpr ⟨a, h, by simp⟩

/-- A creation adds one entry (R65). -/
theorem Part.createEntry_table (p : Part) (order number terminal boarding destination car deck : Nat) (stepFree : Bool) :
    (p.createEntry order number terminal boarding destination car deck stepFree).sizes = p.sizes
      ∧ (p.createEntry order number terminal boarding destination car deck stepFree).prm.table.length
        ≤ p.prm.table.length + 1 := by
  have created : ∀ q : Part, q.sizes = p.sizes → q.prm.table.length = p.prm.table.length + 1 → ∀ keys,
      ((q.enterQueue number terminal stepFree).tripNotices p keys).sizes = p.sizes
        ∧ ((q.enterQueue number terminal stepFree).tripNotices p keys).prm.table.length ≤ p.prm.table.length + 1 := by
    intro q hs ht keys
    obtain ⟨h, h'⟩ := (q.enterQueue_keeps number terminal stepFree).trans (Part.tripNotices_keeps _ p keys)
    exact ⟨h.trans hs, h'.trans ht.le⟩
  exact ⟨Part.sizes_onlyPrm (created _ (by rfl) (by simp) _).1, (created _ (by rfl) (by simp) _).2⟩

theorem Part.examineNew_stays (p : Part) (order : Nat) (words : List Word) : p.Stays (p.examineNew order words) := by
  simp only [Part.examineNew]
  split
  · exact (p.refuseAssign_keeps _ _ _).stays
  · split
    · exact (p.dropNew_keeps _ _ _ _).stays
    · split
      · exact (p.refuseAssign_keeps _ _ _).stays
      · split
        · exact (p.refuseAssign_keeps _ _ _).stays
        · split
          · split
            · exact (p.refuseAssign_keeps _ _ _).stays
            · next a ha =>
              obtain ⟨hs, ht⟩ := Part.displace_table (Part.displaceable_mem ha)
              obtain ⟨hs', ht'⟩ := (p.displace a).createEntry_table order (assignNumber words) (assignTerminal words) _
                (assignDestination words) (assignCar words) (assignDeck words) (assignStepFree words)
              exact .of_sizes (hs'.trans hs) fun hp => by omega
          · obtain ⟨hs, ht⟩ := p.createEntry_table order (assignNumber words) (assignTerminal words) _
              (assignDestination words) (assignCar words) (assignDeck words) (assignStepFree words)
            exact .of_sizes hs fun hp => by omega

theorem Part.prmNew_stays (p : Part) (words : List Word) : p.Stays (p.prmNew words) :=
  Part.Stays.trans (q := p.takeNew) (Part.Keeps.stays ⟨rfl, le_rfl⟩) (Part.examineNew_stays _ _ words)

theorem Part.prmCancel_keeps (p : Part) (words : List Word) : p.Keeps (p.prmCancel words) := by
  unfold Part.prmCancel
  split
  · exact p.count_keeps _ _
  · exact p.removeEntries_keeps _

theorem Part.reassign_keeps (p : Part) (a : Assignment) (car deck : Nat) : p.Keeps (p.reassign a car deck) := by
  have moved := p.setAssignment_keeps a.number fun x =>
    { x with car := car, deck := deck, isBoarding := p.standsOpenAt car deck a.boarding }
  have estimated := Part.Keeps.ite (c := a.prompt = .none) moved (moved.trans (Part.promptEstimate_keeps _ a.number true))
  exact (Part.Keeps.trans (.ite (estimated.trans (Part.cmpHeadChange_keeps _ a.terminal)) estimated)
    (Part.tripNotices_keeps _ p _)).onlyPrm

theorem Part.prmReassign_keeps (p : Part) (words : List Word) : p.Keeps (p.prmReassign words) := by
  simp only [Part.prmReassign]
  split
  · exact p.count_keeps _ _
  · split
    · exact p.refuseAssign_keeps _ _ _
    · exact .ite (.refl p) (p.reassign_keeps _ _ _)

theorem Part.prmRecord_stays (p : Part) (slot : Nat) (words : List Word) : p.Stays (p.prmRecord slot words) := by
  unfold Part.prmRecord
  split
  · exact p.prmNew_stays words
  · exact (p.prmCancel_keeps words).stays
  · exact (p.prmReassign_keeps words).stays
  · exact (p.count_report_keeps _ _ _).stays

/-- PRM's withdrawn mark of one car. -/
theorem Part.prmMark_keeps (p : Part) (c : Nat) (b : Bool) :
    p.Keeps { p with prm := { p.prm with withdrawn := p.prm.withdrawn.set c b } } :=
  ⟨by simp [Part.sizes], le_rfl⟩

theorem Part.prmWithdraw_keeps (p : Part) (c : Nat) : p.Keeps (p.prmWithdraw c) :=
  (p.prmMark_keeps c true).trans (Part.retireEntries_keeps _ _ _)

theorem Part.prmReturn_keeps (p : Part) (c : Nat) : p.Keeps (p.prmReturn c) := p.prmMark_keeps c false

theorem Part.prmArrival_keeps (p : Part) (c d f : Nat) : p.Keeps (p.prmArrival c d f) :=
  ⟨rfl, by simp [Part.prmArrival]⟩

theorem Part.prmDeparture_keeps (p : Part) (c d f : Nat) : p.Keeps (p.prmDeparture c d f) := p.removeEntries_keeps _

theorem Part.showDeadline_keeps (p : Part) (t : Nat) : p.Keeps (p.showDeadline t) :=
  .ite ((p.endShowing_keeps t).trans (Part.becomeHead_keeps _ t)).onlyPrm (.refl p)

theorem Part.lifetime_keeps (p : Part) : p.Keeps p.lifetime :=
  .ite (.refl p) ((p.removeEntries_keeps _).trans (Part.count_keeps _ _ _))

theorem Part.prmFlush_keeps (p : Part) (k : Nat) : p.Keeps (p.prmFlush k) :=
  (p.dropMark_keeps k false).trans (Part.retireEntries_keeps _ _ _)

end Sys2Proof.Machine
end

section
/-! SUPPORT. MSG, TXF, TRG, OVR and TRK keep the sizes of Table 1-1. -/

namespace Sys2Proof.Machine

/-! ### TXF (R96 to R103) -/

theorem Part.setOwnerText_keeps (p : Part) (o : TextOwner) (t : Text) : p.Keeps (p.setOwnerText o t) := by
  cases o with
  | message m => exact p.setMessage_keeps m _
  | line k => exact p.setChannel_keeps k _
  | banner k => exact p.setChannel_keeps k _

theorem Part.ownerNotice_keeps (p : Part) (o : TextOwner) : p.Keeps (p.ownerNotice o) := by
  cases o with
  | message m => exact p.cmpMessageNotice_keeps
  | line k => exact p.cmpTextNotice_keeps k false
  | banner k => exact p.cmpTextNotice_keeps k true

theorem Part.faultJob_keeps (p : Part) (o : TextOwner) (cause : TextCause) : p.Keeps (p.faultJob o cause) :=
  (((Part.Keeps.txf p _).trans (Part.setOwnerText_keeps _ o _)).trans (Part.report_keeps _ _)).trans
    (Part.ownerNotice_keeps _ o)

theorem Part.completeJob_keeps (p : Part) (j : Job) : p.Keeps (p.completeJob j) :=
  ((Part.Keeps.txf p _).trans (Part.setOwnerText_keeps _ j.owner _)).trans (Part.ownerNotice_keeps _ j.owner)

theorem Part.setHead_keeps (p : Part) (j : Job) : p.Keeps (p.setHead j) := .txf p _

theorem Part.checkHeads_keeps (fuel : Nat) (p : Part) : p.Keeps (Part.checkHeads fuel p) := by
  induction fuel generalizing p with
  | zero => exact .refl p
  | succ fuel ih =>
    unfold Part.checkHeads
    split
    · exact .refl p
    · next j _ _ =>
      refine .ite ?_ (.refl p)
      have counted : ∀ b : Bool, p.Keeps (if b then p.count .textTruncation 1 else p) := fun b =>
        .ite (p.count_keeps _ _) (.refl p)
      have checked : ∀ q : Part, q.Keeps
          (match q.checkJob j with
            | .error cause => Part.checkHeads fuel (q.faultJob j.owner cause)
            | .ok j' => q.setHead j') := by
        intro q
        split
        · exact (q.faultJob_keeps _ _).trans (ih _)
        · exact q.setHead_keeps _
      exact (counted _).trans (checked _)

theorem Part.issueRead_keeps (p : Part) : p.Keeps p.issueRead := by
  unfold Part.issueRead
  split
  · exact .ite (.refl p) (.txf p _)
  · exact .refl p

theorem Part.txfPump_keeps (p : Part) : p.Keeps p.txfPump :=
  ((Part.checkHeads_keeps _ p).trans (Part.issueRead_keeps _)).onlyMsg

theorem Part.takeBytes_keeps (p : Part) (j : Job) (bytes : List Byte) : p.Keeps (p.takeBytes j bytes) :=
  .ite (p.completeJob_keeps _) (p.setHead_keeps _)

theorem Part.feedHead_keeps (p : Part) (w : Word) : p.Keeps (p.feedHead w) := by
  unfold Part.feedHead
  split
  · exact .refl p
  · split
    · exact .refl p
    · exact p.takeBytes_keeps _ _
    · exact .ite (p.faultJob_keeps _ _) (.ite (p.faultJob_keeps _ _) (p.takeBytes_keeps _ _))

theorem Part.textData_keeps (p : Part) (w : Word) : p.Keeps (p.textData w) := by
  unfold Part.textData
  split
  · exact .refl p
  · have read : p.Keeps { p with txf := { p.txf with read := none } } := .txf p _
    exact (Part.Keeps.ite read (read.trans (Part.feedHead_keeps _ w))).onlyMsg

theorem Part.refetch_keeps (p : Part) (o : TextOwner) : p.Keeps (p.refetch o) := by
  unfold Part.refetch
  split
  · exact .refl p
  · exact .txf p _

theorem Part.textWrite_keeps (p : Part) (a : Nat) : p.Keeps (p.textWrite a) := by
  refine Part.Keeps.onlyMsg (.foldl (fun q o => ?_) _ p)
  exact .ite (.txf q _) (q.refetch_keeps o)

/-! ### MSG (R86 to R95) -/

theorem Part.messageNotice_keeps (p before : Part) (m : Nat) : p.Keeps (p.messageNotice before m) :=
  .ite (.refl p) p.cmpMessageNotice_keeps

/-- A trigger table of the same length. -/
theorem Part.Keeps.trg (p : Part) {l : List (Option Trigger)} (h : l.length = p.trg.length) :
    p.Keeps { p with trg := l } := ⟨by simp only [Part.sizes, h], le_rfl⟩

theorem Part.leaveActive_keeps (p : Part) (m : Nat) : p.Keeps (p.leaveActive m) :=
  ((p.setMessage_keeps m _).trans (.trg _ (List.length_map ..))).trans (Part.cmpMessageNotice_keeps _)

theorem Part.dealReference_keeps (p : Part) (m : Nat) (old : Option TextRef) (new : TextRef) :
    p.Keeps (p.dealReference m old new) :=
  .ite (.refl p) ((p.setMessage_keeps m _).trans (.txf _ _))

theorem Part.msgDefine_keeps (p : Part) (m : Nat) (f : MessageFields) : p.Keeps (p.msgDefine m f) :=
  (((p.setMessage_keeps m _).trans (Part.dealReference_keeps _ m _ f.ref)).trans
    (Part.messageNotice_keeps _ p m)).onlyMsg

theorem Part.msgActivate_keeps (p : Part) (m : Nat) (f : MessageFields) : p.Keeps (p.msgActivate m f) :=
  (((p.setMessage_keeps m _).trans (Part.dealReference_keeps _ m _ f.ref)).trans
    (Part.messageNotice_keeps _ p m)).onlyMsg

theorem Part.msgCancel_keeps (p : Part) (m : Nat) : p.Keeps (p.msgCancel m) :=
  .ite (p.leaveActive_keeps m).onlyMsg (.refl p)

theorem Part.msgClear_keeps (p : Part) (m : Nat) : p.Keeps (p.msgClear m) := by
  have left : p.Keeps (if (p.message m).state = .active then p.leaveActive m else p) :=
    .ite (p.leaveActive_keeps m) (.refl p)
  exact .ite (.refl p) (((left.trans (Part.setMessage_keeps _ m _)).trans (.txf _ _)).trans
    (Part.cmpMessageNotice_keeps _)).onlyMsg

theorem Part.refuseMessage_keeps (p : Part) (m : Nat) : p.Keeps (p.refuseMessage m) := p.count_report_keeps _ _ _

theorem Part.msgRecord_keeps (p : Part) (m : Nat) (words : List Word) : p.Keeps (p.msgRecord m words) := by
  unfold Part.msgRecord
  split
  · exact .ite (p.refuseMessage_keeps m) (p.msgDefine_keeps m _)
  · exact .ite (p.refuseMessage_keeps m) (p.msgActivate_keeps m _)
  · exact p.msgCancel_keeps m
  · exact p.msgClear_keeps m
  · exact p.refuseMessage_keeps m

theorem Part.msgExpire_keeps (p : Part) (m : Nat) : p.Keeps (p.msgExpire m) :=
  .ite ((p.leaveActive_keeps m).onlyMsg.trans (Part.report_keeps _ _)) (.refl p)

/-! ### TRG (R105 to R108) -/

theorem Part.levelActivate_keeps (p : Part) (x : Trigger) (m : Nat) (last new : Bool) :
    p.Keeps (p.levelActivate x m last new) := by
  unfold Part.levelActivate
  simp only
  split
  · exact p.count_keeps _ _
  · exact (p.setMessage_keeps m _).trans (Part.cmpMessageNotice_keeps _)
  · exact (p.setMessage_keeps m _).trans (Part.messageNotice_keeps _ p m)
  · exact (p.setMessage_keeps m _).trans (.ite (Part.leaveActive_keeps _ m) (Part.messageNotice_keeps _ p m))
  · exact .refl p
  · exact .refl p
  · exact .refl p

theorem Part.triggerCancel_keeps (p : Part) (m : Nat) : p.Keeps (p.triggerCancel m) :=
  .ite (p.leaveActive_keeps m) (.refl p)

theorem Part.edgeActivate_keeps (p : Part) (t : Nat) (x : Trigger) (m : Nat) : p.Keeps (p.edgeActivate t x m) :=
  .ite (p.count_report_keeps _ _ _) <| .ite (p.count_keeps _ _) <|
    ((p.setMessage_keeps m _).trans (Part.setTrigger_keeps _ t _)).trans (Part.messageNotice_keeps _ p m)

theorem Part.triggerAct_keeps (p : Part) (t : Nat) (x : Trigger) (last new : Bool) :
    p.Keeps (p.triggerAct t x last new) := by
  have edge : p.Keeps (Part.triggerAct.edge p t x new) := by
    unfold Part.triggerAct.edge
    split
    · exact p.edgeActivate_keeps t x _
    · exact p.triggerCancel_keeps _
    · exact p.report_keeps _
  unfold Part.triggerAct
  split
  · split
    · exact p.levelActivate_keeps x _ last new
    · exact .ite (p.triggerCancel_keeps _) (.refl p)
    · exact .refl p
  all_goals exact .ite edge (.refl p)

theorem Part.recordCondition_keeps (p : Part) (t : Nat) (new : Bool) : p.Keeps (p.recordCondition t new) := by
  unfold Part.recordCondition
  split
  · exact .refl p
  · exact p.setTrigger_keeps t _

theorem Part.evaluateTrigger_keeps (p : Part) (c : Nat) (words : List Word) (t : Nat) :
    p.Keeps (p.evaluateTrigger c words t) := by
  unfold Part.evaluateTrigger
  split
  · exact .refl p
  · refine .ite (.refl p) ?_
    simp only
    split
    · exact p.recordCondition_keeps t _
    · exact (p.triggerAct_keeps t _ _ _).trans (Part.recordCondition_keeps _ t _)

theorem Part.trgHandOn_keeps (p : Part) (c : Nat) (words : List Word) : p.Keeps (p.trgHandOn c words) :=
  (Part.Keeps.foldl (fun q t => q.evaluateTrigger_keeps c words t) _ p).onlyMsg

/-! ### OVR (chapter 7) -/

theorem Part.sampleLines_keeps (p : Part) : p.Keeps p.sampleLines :=
  .ite ⟨by simp [Part.sizes], le_rfl⟩ (.refl p)

theorem Part.channelNotice_keeps (p : Part) (k : Nat) : p.Keeps (p.channelNotice k) := p.status_keeps _ _

theorem Part.activateChannel_keeps (p : Part) (k : Nat) : p.Keeps (p.activateChannel k) :=
  (((p.setChannel_keeps k _).trans (Part.prmFlush_keeps _ k)).trans (Part.cmpChannelChange_keeps _)).trans
    (Part.report_keeps _ _)

theorem Part.sourceChange_keeps (p : Part) (k : Nat) : p.Keeps (p.sourceChange k) :=
  Part.Keeps.trans (.ite (p.activateChannel_keeps k) (.refl p)) (Part.channelNotice_keeps _ k)

theorem Part.testLine_keeps (p : Part) (k : Nat) : p.Keeps (p.testLine k) := by
  unfold Part.testLine
  simp only
  split
  · exact .refl p
  · exact .ite (p.setChannel_keeps k _) ((p.setChannel_keeps k _).trans (Part.sourceChange_keeps _ k))

theorem Part.memoryRequest_keeps (p : Part) (words : List Word) (k : Nat) : p.Keeps (p.memoryRequest words k) :=
  .ite (.refl p) ((p.setChannel_keeps k _).trans (Part.sourceChange_keeps _ k))

theorem Part.ovrRecord_keeps (p : Part) (words : List Word) : p.Keeps (p.ovrRecord words) :=
  .ite (p.count_report_keeps _ _ _) (.foldl (fun q k => q.memoryRequest_keeps words k) _ p)

theorem Part.clearLatch_keeps (p : Part) (k : Nat) : p.Keeps (p.clearLatch k) :=
  .ite ((((p.setChannel_keeps k _).trans (Part.cmpChannelChange_keeps _)).trans (Part.report_keeps _ _)).trans
    (Part.channelNotice_keeps _ k)) (.refl p)

theorem Part.applyLines_keeps (p : Part) : p.Keeps p.applyLines :=
  .foldl (fun q k => .ite (q.sourceChange_keeps k) (.refl q)) _ p

/-! ### TRK (chapter 2) -/

theorem Car.setDeck_length (x : Car) (d : Nat) (k : Deck) : (x.setDeck d k).decks.length = x.decks.length :=
  List.length_set

/-- An evaluation leaves the car's decks as many as they were (R19, steps 1 to 4). -/
theorem trackCar_length (p : Part) (cfg : CarConfig) (c : Nat) (words : List Word) :
    (trackCar p cfg c words).decks.length = (p.car c).decks.length :=
  foldl_keeps (fun x : Car => x.decks.length) (fun x d => x.setDeck_length d _) _ _

theorem Car.staled_length (x : Car) (n : Nat) : (x.staled n).decks.length = x.decks.length :=
  foldl_keeps (fun x : Car => x.decks.length) (fun x d => x.setDeck_length d _) _ _

theorem Part.setVisit_keeps (p : Part) (c d : Nat) (visit : Option Nat) (opened : Bool) :
    p.Keeps (p.setVisit c d visit opened) := p.setCar_keeps c (Car.setDeck_length ..)

theorem Part.raiseDeparture_keeps (p : Part) (c d f : Nat) : p.Keeps (p.raiseDeparture c d f) :=
  (p.arrDeparture_keeps c d f).trans (Part.prmDeparture_keeps _ c d f)

theorem Part.raiseArrival_keeps (p : Part) (c d f : Nat) : p.Keeps (p.raiseArrival c d f) :=
  ((p.arrArrival_keeps c d f).trans (Part.prmArrival_keeps _ c d f)).trans (Part.setVisit_keeps _ c d _ _)

theorem Part.endVisit_keeps (p : Part) (c d : Nat) : p.Keeps (p.endVisit c d) := by
  unfold Part.endVisit
  split
  · exact .refl p
  · exact Part.Keeps.trans (.ite (p.raiseDeparture_keeps c d _) (.refl p)) (Part.setVisit_keeps _ c d _ _)

theorem Part.beginVisit_keeps (p : Part) (c d f : Nat) : p.Keeps (p.beginVisit c d f) :=
  .ite (.refl p) ((p.endVisit_keeps c d).trans (Part.setVisit_keeps _ c d _ _))

theorem Part.openVisit_keeps (p : Part) (c d f : Nat) : p.Keeps (p.openVisit c d f) :=
  .ite (p.raiseArrival_keeps c d f) (.refl p)

theorem Part.updateVisit_keeps (p : Part) (c d : Nat) : p.Keeps (p.updateVisit c d) := by
  unfold Part.updateVisit
  split
  · exact (p.beginVisit_keeps c d _).trans (Part.openVisit_keeps _ c d _)
  · exact .refl p
  · exact p.endVisit_keeps c d
  · exact p.endVisit_keeps c d
  all_goals exact .refl p

theorem Part.noticeWithdrawal_keeps (p : Part) (c : Nat) (before : Car) : p.Keeps (p.noticeWithdrawal c before) :=
  .ite ((p.prmWithdraw_keeps c).trans (Part.arrWithdraw_keeps _ c))
    (.ite ((p.prmReturn_keeps c).trans (Part.arrReturn_keeps _ c)) (.refl p))

theorem Part.noticeChanges_keeps (p : Part) (c : Nat) (before : Car) : p.Keeps (p.noticeChanges c before) :=
  .foldl (fun q d => q.cmpDeckChange_keeps c d) _ p

theorem Part.noticeStatus_keeps (p : Part) (c : Nat) (before : Car) : p.Keeps (p.noticeStatus c before) :=
  .ite (.refl p) (p.status_keeps _ _)

theorem Part.countInterpretation_keeps (p : Part) (words : List Word) : p.Keeps (p.countInterpretation words) :=
  ((p.count_keeps _ _).trans (Part.count_keeps _ _ _)).trans (Part.count_keeps _ _ _)

/-- The record's counts and the resumption report leave the tracker as it was. -/
theorem Part.evaluateCar_keeps (p : Part) (c : Nat) (cfg : CarConfig) (words : List Word) :
    p.Keeps (p.evaluateCar c cfg words) := by
  have counted : p.Keeps (if (p.isStale c : Bool) then (p.countInterpretation words).report (repCarResumed c)
      else p.countInterpretation words) :=
    .ite ((p.countInterpretation_keeps words).trans (Part.report_keeps _ _)) (p.countInterpretation_keeps words)
  have tracked : ∀ q : Part, q.trk = p.trk → q.Keeps (q.setCar c (trackCar p cfg c words)) := fun q hq =>
    q.setCar_keeps c (by rw [trackCar_length]; simp only [Part.car, hq])
  have visited : ∀ q : Part, q.Keeps ((List.range cfg.decks).foldl (fun q d => q.updateVisit c d) q) := fun q =>
    .foldl (fun q d => q.updateVisit_keeps c d) _ q
  refine (((((((counted.trans (tracked _ ?_)).trans (visited _)).trans (Part.noticeWithdrawal_keeps _ c _)).trans
    (Part.trgHandOn_keeps _ c _)).trans (Part.arrEvaluation_keeps _ c)).trans (Part.noticeChanges_keeps _ c _)).trans
    (Part.noticeStatus_keeps _ c _))
  split <;> rfl

theorem Part.trkRecord_keeps (p : Part) (c : Nat) (words : List Word) : p.Keeps (p.trkRecord c words) := by
  unfold Part.trkRecord
  split
  · exact p.count_report_keeps _ _ _
  · exact p.evaluateCar_keeps c _ words

theorem Part.staleExpiry_keeps (p : Part) (c : Nat) : p.Keeps (p.staleExpiry c) := by
  have staled := (p.setCar_keeps c ((p.car c).staled_length (p.decksOf c).length)).trans
    (Part.report_keeps _ (repCarStale c))
  exact .ite (((staled.trans (.foldl (fun q d => q.cmpDeckChange_keeps c d) _ _)).trans
    (Part.arrEvaluation_keeps _ c)).trans (Part.noticeStatus_keeps _ c _)) (.refl p)

theorem Part.emptyHistory_keeps (p : Part) (c : Nat) : p.Keeps (p.emptyHistory c) :=
  .ite (p.setCar_keeps c rfl) (.refl p)

theorem Part.staleNow_keeps (p : Part) : p.Keeps p.staleNow := .foldl (fun q c => q.staleExpiry_keeps c) _ p

end Sys2Proof.Machine
end

section
/-! SUPPORT and PROOFS. PATH, the events and RESET_N against Table 1-1, and the step lemma of the sizes. -/

namespace Sys2Proof.Machine

/-! ### The link engines' events (chapter 8) -/

theorem Part.sendFrame_keeps (p : Part) (ring : Nat) : p.Keeps (p.sendFrame ring) := by
  unfold Part.sendFrame
  simp only
  split
  · exact .disp p (p.disp.setRing_sizes (Ring.send_length ..))
  · exact .refl p

theorem Part.frameReturn_keeps (p : Part) (ring : Nat) (port : Port) (bytes : List Byte) :
    p.Keeps (p.frameReturn ring port bytes) := by
  unfold Part.frameReturn
  simp only
  split
  · exact .refl p
  · exact .refl p
  · split
    · exact .disp p (p.disp.setRing_sizes rfl)
    · exact .disp p (p.disp.setRing_sizes rfl)
    · exact .disp p (Part.returnOutstanding_sizes ..)

theorem Part.returnTimeout_keeps (p : Part) (ring tag : Nat) : p.Keeps (p.returnTimeout ring tag) := by
  refine .ite ?_ (.refl p)
  split
  · exact .disp p ((Part.decideFrame_sizes ..).trans (p.disp.setRing_sizes rfl))
  · exact .refl p
  · exact .refl p

theorem Part.trailingTimeout_keeps (p : Part) (ring tag : Nat) : p.Keeps (p.trailingTimeout ring tag) :=
  .ite (.disp p (p.disp.setRing_sizes rfl)) (.refl p)

theorem Part.busyBackoff_keeps (p : Part) (ring position : Nat) (region : Option Region) :
    p.Keeps (p.busyBackoff ring position region) := by
  unfold Part.busyBackoff
  split
  · exact .refl p
  · split
    · exact .refl p
    · exact .disp p (Disp.setNode_sizes ..)

theorem Part.pollTimer_keeps (p : Part) (ring position : Nat) : p.Keeps (p.pollTimer ring position) := by
  unfold Part.pollTimer
  split
  · exact .refl p
  · exact .ite (.disp p (Disp.setNode_sizes ..)) (.refl p)

theorem Part.joinTimer_keeps (p : Part) (ring position : Nat) : p.Keeps (p.joinTimer ring position) := by
  unfold Part.joinTimer
  split
  · exact .refl p
  · exact .ite (.disp p (Disp.setNode_sizes ..)) (.refl p)

theorem Part.ringCheck_keeps (p : Part) (ring : Nat) : p.Keeps (p.ringCheck ring) :=
  .ite (.disp p (p.disp.setRing_sizes rfl)) (.refl p)

theorem Part.traceEnd_keeps (p : Part) (ring : Nat) : p.Keeps (p.traceEnd ring) := by
  unfold Part.traceEnd
  simp only
  split
  · exact .refl p
  · next tag rec _ =>
    refine .ite (.disp p ?_) (.refl p)
    rw [Disp.linkNotice_sizes]
    have ended := p.disp.setRing_sizes (congrArg List.length
      (((p.disp.ring ring).freeTag tag).afterTrace_nodes ring (traceResult rec)))
    have lost : ∀ b : Bool, ∀ d : Disp, (if b then p.loseRing d ring else d).sizes = d.sizes := by
      intro b d
      cases b
      · rfl
      · exact p.loseRing_sizes d ring
    split
    · exact (lost _ _).trans ended
    · exact (Disp.hand_sizes ..).trans ((lost _ _).trans ended)

/-- No event of a timer, line or ring changes a size or adds a live assignment. -/
theorem PartEvent.keeps {f : Part → Part} (h : PartEvent f) (p : Part) : p.Keeps (f p) := by
  cases h with
  | carStale c => exact p.staleExpiry_keeps c
  | historyEmptied c => exact p.emptyHistory_keeps c
  | showDeadline j => exact p.showDeadline_keeps j
  | lifetime => exact p.lifetime_keeps
  | messageExpired m => exact p.msgExpire_keeps m
  | dwellDeadline j r => exact .disp p (dwellDeadline_sizes ..)
  | lineAccepted k => exact p.testLine_keeps k
  | lineSampling levels => exact Part.sampleLines_keeps { p with lines := levels }
  | sendFrame r => exact p.sendFrame_keeps r
  | frameReturn r port bytes => exact p.frameReturn_keeps r port bytes
  | returnTimeout r tag => exact p.returnTimeout_keeps r tag
  | trailingTimeout r tag => exact p.trailingTimeout_keeps r tag
  | busyBackoff r position region => exact p.busyBackoff_keeps r position region
  | pollTimer r position => exact p.pollTimer_keeps r position
  | joinTimer r position => exact p.joinTimer_keeps r position
  | ringCheck r => exact p.ringCheck_keeps r
  | traceEnd r => exact p.traceEnd_keeps r

/-! ### Watching a host access (R167, R176 to R178, R187) -/

theorem Part.settle_keeps (p : Part) : p.Keeps p.settle :=
  (p.txfPump_keeps.trans (Part.onRpt_keeps _ (Rpt.choose_sizes _))).trans (Part.onPath_keeps _ _)

/-- A counters clear leaves the 16 counters of Table 1-1. -/
theorem Part.clearCounters_stays (p : Part) : p.Stays (p.onRpt (·.clearCounters)) := by
  have cleared : (p.disp.onRpt (·.clearCounters)).sizes
      = (p.disp.cmp.nodes.length, p.disp.lnk.map (·.nodes.length), p.disp.rpt.slots.length,
        p.disp.rpt.records.length, 16) := by
    simp only [Disp.sizes, Disp.onRpt_cmp, Disp.onRpt_lnk, Disp.onRpt_rpt, Rpt.clearCounters_sizes]
  refine ⟨fun h => ?_, id⟩
  have sixteen : p.disp.rpt.counters.length = 16 := by
    simp only [Part.shaped, Bool.and_eq_true, decide_eq_true_eq] at h
    exact h.2
  refine (Part.Keeps.stays (.disp p (cleared.trans ?_))).1 h
  rw [← sixteen]
  rfl

theorem Part.request_stays (p : Part) (bit : Nat) : p.Stays (p.request bit) := by
  unfold Part.request
  split
  · exact p.clearCounters_stays
  · exact (Part.Keeps.disp p (clearStatistics_sizes _)).stays
  · exact (Part.Keeps.disp p (repaintIn_sizes ..)).stays
  · exact (p.clearLatch_keeps _).stays

theorem Part.serveRequest_stays (p : Part) (bit : Nat) : p.Stays (p.serveRequest bit) := by
  unfold Part.serveRequest
  split
  · exact .refl p
  · exact ((p.onRpt_keeps rfl).stays.trans (Part.request_stays _ bit)).trans (Part.onRpt_keeps _ rfl).stays

theorem Part.serviceWrite_stays (p : Part) (value : Word) : p.Stays (p.serviceWrite value) := by
  unfold Part.serviceWrite
  simp only
  split
  · exact .refl p
  · exact (Part.Stays.foldl (fun q bit => q.serveRequest_stays bit) _ p).trans (Part.onRpt_keeps _ rfl).stays

theorem Part.handRecord_stays (p : Part) (k slot : Nat) (words : List Word) : p.Stays (p.handRecord k slot words) := by
  unfold Part.handRecord
  split
  · exact (p.trkRecord_keeps slot words).stays
  · exact (p.msgRecord_keeps slot words).stays
  · exact p.prmRecord_stays slot words
  · exact (p.ovrRecord_keeps words).stays

theorem Part.closeRecord_stays (p : Part) (k slot : Nat) : p.Stays (p.closeRecord k slot) := by
  unfold Part.closeRecord
  simp only
  split
  · exact (p.count_keeps _ _).stays
  · exact (p.onPath_keeps _).stays.trans (Part.handRecord_stays _ k slot _)

theorem Part.capture_stays (p : Part) (k i : Nat) (data : Word) (be : BitVec 4) : p.Stays (p.capture k i data be) := by
  have merged := (p.onPath_keeps (·.mergeMirror k i data be)).stays
  unfold Part.capture
  simp only
  split
  · exact merged.trans (Part.closeRecord_stays _ k _)
  · exact merged

theorem Part.startTake_keeps (p : Part) (kind : TakeKind) : p.Keeps (p.startTake kind) := by
  unfold Part.startTake
  split
  · exact .refl p
  · exact p.onPath_keeps _
  · exact p.onPath_keeps _

theorem Part.judge_keeps (p : Part) (v : Word) : p.Keeps (p.judge v) :=
  .ite (p.startTake_keeps .full) (.ite (p.startTake_keeps .params) (.refl p))

theorem Part.learn_keeps (p : Part) (v : Option Word) : p.Keeps (p.learn v) := p.onPath_keeps _

theorem Part.writeTakeWord_keeps (p : Part) (data : Word) (be : BitVec 4) : p.Keeps (p.writeTakeWord data be) := by
  refine .ite (p.learn_keeps _) ?_
  simp only [Part.takeWordWrite]
  split
  · exact (p.learn_keeps _).trans (Part.judge_keeps _ _)
  · exact (p.learn_keeps _).trans (Part.onPath_keeps _ _)

theorem Part.anchorWrite_stays (p : Part) (a : Nat) (data : Word) (be : BitVec 4) : p.Stays (p.anchorWrite a data be) := by
  have asked : p.Stays (if a = p.path.takeAddress then p.writeTakeWord data be
      else if a = p.path.serviceAddress then p.serviceWrite (enabledBits data be) else p) := by
    split
    · exact (p.writeTakeWord_keeps data be).stays
    · split
      · exact p.serviceWrite_stays _
      · exact .refl p
  simp only [Part.anchorWrite]
  split
  · exact asked.trans (Part.onPath_keeps _ _).stays
  · exact asked

/-- What PATH does on watching a host write keeps the sizes. -/
theorem Part.watchWrite_stays (p : Part) (a : Nat) (data : Word) (be : BitVec 4) : p.Stays (p.watchWrite a data be) := by
  simp only [Part.watchWrite]
  refine (p.onPath_keeps (·.mergeTake a data be)).stays.trans ?_
  split
  · exact Part.anchorWrite_stays _ a data be
  · split
    · exact Part.capture_stays _ _ _ data be
    · split
      · exact (Part.textWrite_keeps _ a).stays
      · exact .refl _

theorem Part.watchRead_keeps (p : Part) (a : Nat) (v : Word) : p.Keeps (p.watchRead a v) := by
  have learned : p.Keeps (if a = p.path.takeAddress then p.learn (some v) else p) := .ite (p.learn_keeps _) (.refl p)
  unfold Part.watchRead
  simp only
  split
  · exact learned
  · exact learned.trans (Part.onRpt_keeps _ (Rpt.consume_sizes ..))

/-! ### The end of a take (R173 to R175) -/

theorem Part.refuseTake_keeps (p : Part) (kind : TakeKind) (f : Failure) : p.Keeps (p.refuseTake kind f) :=
  Part.Keeps.trans (q := p.endTake) ⟨rfl, le_rfl⟩ (Part.report_keeps _ _)

theorem Part.acceptParams_keeps (p : Part) (t : Take) : p.Keeps (p.acceptParams t) :=
  ((Part.Keeps.trans (q := { p.endTake with params := readParams t.word }) ⟨rfl, le_rfl⟩
    (Part.report_keeps _ _)).trans (Part.staleNow_keeps _)).trans (Part.lifetime_keeps _)

/-- At most 160 floors are read (R2). -/
theorem readFloors_length_le (w : Nat → Word) : (readFloors w).length ≤ Config.maxFloors := by
  simp only [readFloors, List.length_map, List.length_range, floorCount]
  exact ((List.takeWhile_sublist _).length_le).trans (List.length_range ..).le

/-- A ring is formed with at most 32 nodes (R140). -/
theorem freshRing_length_le (nodes : List (Option NodeConfig)) (ring window : Nat) (now : Time) :
    (freshRing nodes ring window now).nodes.length ≤ Config.maxPosition := by
  simp only [freshRing, List.length_map]
  exact (List.length_filterMap_le _ _).trans (List.length_range ..).le

/-- Every table of an accepted configuration has the size of Table 1-1; the 16 counters are kept. -/
theorem Part.replaced_stays (p : Part) (t : Take) : p.Stays (p.replaced t) := by
  constructor
  · intro h
    have sixteen : p.disp.rpt.counters.length = 16 := by
      simp only [Part.shaped, Bool.and_eq_true, decide_eq_true_eq] at h
      exact h.2
    simp [Part.shaped, Part.replaced, readGeo, readNodes, readTriggers, freshArr, freshPrm, freshCmp, Rpt.accepted,
      acceptedShadows, Car.fresh, sixteen, Config.statusRecords, Config.maxCars, Config.maxNodes, Config.rings,
      Config.channels]
  · intro _
    refine (Part.bounded_iff _).mpr ⟨readFloors_length_le _, Nat.zero_le _, fun n hn => ?_⟩
    obtain ⟨r, hr, rfl⟩ := List.mem_map.mp hn
    obtain ⟨i, -, rfl⟩ := List.mem_map.mp hr
    exact freshRing_length_le _ _ _ _

theorem Part.acceptFull_stays (p : Part) (t : Take) : p.Stays (p.acceptFull t) :=
  (p.replaced_stays t).trans
    (((Part.report_keeps _ _).trans (Part.txfPump_keeps _)).trans (Part.applyLines_keeps _)).stays

theorem Part.finishTake_stays (p : Part) (t : Take) (result : Failure) : p.Stays (p.finishTake t result) := by
  unfold Part.finishTake
  split
  · split
    · exact p.acceptFull_stays t
    · exact (p.acceptParams_keeps t).stays
  · exact (p.refuseTake_keeps t.kind result).stays

/-! ### Own accesses (R179) -/

theorem State.readTakeWord_keeps (s : State) : s.part.Keeps s.readTakeWord.part :=
  ((s.part.learn_keeps _).trans (Part.onPath_keeps _ _)).trans (Part.judge_keeps _ _)

theorem State.readTake_keeps (s : State) : s.part.Keeps s.readTake.part := by
  unfold State.readTake
  split
  · exact .refl _
  · split
    · exact .refl _
    · exact Part.Keeps.trans (.ite (s.part.learn_keeps _) (.refl _)) (Part.onPath_keeps _ _)

theorem State.writeTakeResult_stays (s : State) : s.part.Stays s.writeTakeResult.part := by
  unfold State.writeTakeResult
  split
  · exact .refl _
  · split
    · exact .refl _
    · exact (s.part.learn_keeps _).stays.trans (Part.finishTake_stays _ _ _)

theorem State.writeReport_keeps (s : State) : s.part.Keeps s.writeReport.part := by
  rw [State.writeReport_part]
  exact s.part.onRpt_keeps (Rpt.write_sizes ..)

theorem State.readText_keeps (s : State) : s.part.Keeps s.readText.part := by
  unfold State.readText
  split
  · exact .refl _
  · exact s.part.textData_keeps _

/-- An own access of any kind keeps the sizes. -/
theorem State.performOwn_stays (s : State) (k : OwnKind) : s.part.Stays (s.performOwn k).part := by
  have left : s.part.Stays (s.onPart fun p => p.onPath (·.leave k)).part := (s.part.onPath_keeps _).stays
  refine Part.Stays.trans (left.trans ?_) (Part.settle_keeps _).stays
  generalize s.onPart (fun p => p.onPath (·.leave k)) = s1
  cases k with
  | takeWord => exact (State.readTakeWord_keeps _).stays
  | takeRead => exact (State.readTake_keeps _).stays
  | takeResult => exact State.writeTakeResult_stays _
  | report => exact (State.writeReport_keeps _).stays
  | text => exact (State.readText_keeps _).stays

theorem State.clearResult_stays (s : State) : s.part.Stays s.clearResult.part := by
  unfold State.clearResult
  split
  · exact s.performOwn_stays .takeResult
  · exact .refl _

theorem State.release_stays (s : State) : s.part.Stays s.release.part := by
  unfold State.release
  simp only
  split
  · exact s.clearResult_stays
  · exact (s.clearResult_stays.trans (State.performOwn_stays _ _)).trans (State.clearResult_stays _)

/-! ### RESET_N and steps -/

theorem Part.reset_shaped (anchor lines : BitVec 4) : (Part.reset anchor lines).shaped = true := by
  have records : Rpt.reset.records.length = Config.statusRecords := by
    simp only [Rpt.reset, StatusRecord.resetTable, List.length_append, List.length_replicate, List.length_singleton]
    rfl
  have slots : Rpt.reset.slots.length = Config.reportSlots := List.length_replicate
  have counters : Rpt.reset.counters.length = 16 := List.length_replicate
  simp [Part.shaped, Part.reset, Geo.reset, Arr.reset, Prm.reset, Cmp.reset, Car.fresh, records, slots, counters]

theorem Part.reset_bounded (anchor lines : BitVec 4) : (Part.reset anchor lines).bounded = true := by
  simp [Part.bounded, Part.reset, Geo.reset, Prm.reset, Ring.reset]

/-- What the host hears last is no table of Table 1-1. -/
theorem Part.hostData_keeps (p : Part) (w : Word) : p.Keeps { p with hostData := w } := ⟨rfl, le_rfl⟩

theorem State.resetLine_stays (s : State) (anchor : BitVec 4) (passed : List HostAccess) :
    s.part.Stays (s.resetLine anchor passed).part :=
  Part.Stays.trans (q := Part.reset anchor s.part.lines)
    ⟨fun _ => Part.reset_shaped .., fun _ => Part.reset_bounded ..⟩ (Part.hostData_keeps _ _).stays

/-- Every command that completes keeps the sizes. -/
theorem CommandStep.stays {s t : State} (h : CommandStep s t) : s.part.Stays t.part := by
  cases h with
  | write a data be =>
    exact ((s.release_stays.trans (Part.onPath_keeps _ (·.passOver)).stays).trans
      (Part.watchWrite_stays _ a.toNat data be)).trans (Part.settle_keeps _).stays
  | read a =>
    exact s.release_stays.trans ((((Part.onPath_keeps _ (·.passOver)).trans (Part.hostData_keeps _ _)).trans
      (Part.watchRead_keeps _ a.toNat _)).trans (Part.settle_keeps _)).stays
  | own k =>
    unfold State.ownTurn
    split
    · exact s.performOwn_stays k
    · exact .refl _
  | event hf => exact ((hf.keeps s.part).trans (Part.settle_keeps _)).stays
  | idle => exact .refl _

theorem Part.tick_keeps (p : Part) : p.Keeps p.tick := .ite ⟨rfl, le_rfl⟩ ⟨rfl, le_rfl⟩

/-- Every step keeps the sizes. -/
theorem step_stays {s t : State} (h : step s = .next t) : s.part.Stays t.part := by
  obtain ⟨c, s', hpart, hexec⟩ | htick := step_cases h
  · rw [← hpart]
    obtain ⟨anchor, passed, -, rfl⟩ | hstep := exec_cases hexec
    · exact s'.resetLine_stays anchor passed
    · exact hstep.stays
  · rw [htick]
    exact s.part.tick_keeps.stays

/-- Settles O5: each operation keeps every size and adds no live assignment, but for a NEW, which displaces an entry when
the table is full, a counters clear and an accepted TAKE_FULL, which form their tables at the sizes of Table 1-1. -/
theorem stepKeepsSizes : Obligations.StepKeepsSizes :=
  ⟨fun _ _ hs h => (step_stays h).1 hs, fun _ _ hs h => (step_stays h).2 hs⟩

end Sys2Proof.Machine
end

section
/-! SUPPORT and PROOFS. The simple timers of a part at rest (R30, R145, R150, R152, R156, R158), and the records their owners
refuse (R14, R60, R86, R129). -/

namespace Sys2Proof.Machine

/-! ### Events that leave the part at rest -/

/-- Rest is a matter of TXF, RPT and PATH alone. -/
theorem Part.atRest.congr {p q : Part} (h : p.atRest) (htxf : q.txf = p.txf) (hrpt : q.disp.rpt = p.disp.rpt)
    (hpath : q.path = p.path) : q.atRest := by
  unfold Part.atRest Part.accessesWait at h ⊢
  rwa [htxf, hrpt, hpath]

/-- An event that touches neither TXF, RPT nor PATH does its own change to a resting part and no other. -/
theorem State.event_of_atRest {s : State} {f : Part → Part} {q : Part} (h : s.part.atRest) (hf : f s.part = q)
    (htxf : q.txf = s.part.txf) (hrpt : q.disp.rpt = s.part.disp.rpt) (hpath : q.path = s.part.path) :
    s.event f = { s with part := q } := by
  have hsettle : (f s.part).settle = q := by rw [hf, Part.settle_of_atRest (h.congr htxf hrpt hpath)]
  exact congrArg (fun q => ({ s with part := q } : State)) hsettle

theorem unitStep_of_true {ok : Bool} (h : ok = true) (s : State) : unitStep ok s = .next s :=
  unitStep_eq_next.mpr ⟨h, rfl⟩

/-! ### The simple timers -/

/-- Settles O56: each event, when due, is the one change its definition names, and a change outside TXF, RPT and PATH leaves
the part at rest. -/
theorem simpleTimersComplete : Obligations.SimpleTimersComplete := by
  intro s hrest
  refine ⟨fun c hc hdue => ?_, fun r hr => ⟨fun tag htag hdue => ?_, fun hdue => ?_, fun q n hq hq' hn =>
    ⟨fun region f hdue => ?_, fun hdue => ?_, fun hdue => ?_⟩⟩⟩
  · refine (unitStep_of_true (by simpa using hc) _).trans (congrArg _ (State.event_of_atRest hrest ?_ rfl rfl rfl))
    simp only [Part.emptyHistory, hdue, if_true]
  · refine (unitStep_of_true (by simp [hr, htag]) _).trans (congrArg _ (State.event_of_atRest hrest ?_ rfl rfl rfl))
    simp only [Part.trailingTimeout, hdue, if_true]
  · refine (unitStep_of_true (by simpa using hr) _).trans (congrArg _ (State.event_of_atRest hrest ?_ rfl rfl rfl))
    simp only [Part.ringCheck, hdue, if_true]
  · refine (unitStep_of_true (by simp [hr, hq, hq']) _).trans (congrArg _ (State.event_of_atRest hrest ?_ rfl rfl rfl))
    simp only [Part.busyBackoff, hn, hdue]
    rfl
  · refine (unitStep_of_true (by simp [hr, hq, hq']) _).trans (congrArg _ (State.event_of_atRest hrest ?_ rfl rfl rfl))
    simp only [Part.pollTimer, hn, hdue, if_true]
  · refine (unitStep_of_true (by simp [hr, hq, hq']) _).trans (congrArg _ (State.event_of_atRest hrest ?_ rfl rfl rfl))
    simp only [Part.joinTimer, hn, hdue, if_true]

/-! ### Counters and waiting reports (R181, R186) -/

/-- What counting touches: the counters and the shadow of their record. -/
theorem Rpt.setCounters_keeps {α : Type} (g : Rpt → α)
    (hg : ∀ (r : Rpt) c l, g { r with counters := c, records := l } = g r) (r : Rpt) (c : List (BitVec 16)) :
    g (r.setCounters c) = g r := by
  unfold Rpt.setCounters
  split
  · rfl
  · exact hg r c _

theorem Rpt.count_keeps {α : Type} (g : Rpt → α) (hg : ∀ (r : Rpt) c l, g { r with counters := c, records := l } = g r)
    (r : Rpt) (c : CounterId) (n : Nat) : g (r.count c n) = g r := r.setCounters_keeps g hg _

@[simp] theorem Rpt.setCounters_counters (r : Rpt) (c : List (BitVec 16)) : (r.setCounters c).counters = c := by
  unfold Rpt.setCounters
  split
  · next h => exact h.symm
  · rfl

theorem CounterId.ofNat_index (c : CounterId) : CounterId.ofNat c.index = c := by
  cases c <;> rfl

theorem CounterId.index_injective : Function.Injective CounterId.index :=
  Function.LeftInverse.injective CounterId.ofNat_index

theorem CounterId.index_lt (c : CounterId) : c.index < 16 := by
  cases c <;> decide

/-- Counting one event leaves the counters of the others. -/
theorem Rpt.counter_count_of_ne (r : Rpt) {c c' : CounterId} (h : c' ≠ c) (n : Nat) :
    (r.count c n).counter c' = r.counter c' := by
  have hi : c.index ≠ c'.index := fun hi => h (CounterId.index_injective hi).symm
  simp [Rpt.counter, Rpt.count, List.getD_eq_getElem?_getD, hi]

/-- A counter is 16 bits wide and holds at 65,535 (R186). -/
theorem Rpt.counter_count_same (r : Rpt) (h : r.counters.length = 16) (c : CounterId) (n : Nat) :
    ((r.count c n).counter c).toNat = min 65535 ((r.counter c).toNat + n) := by
  have hlt : c.index < r.counters.length := by rw [h]; exact c.index_lt
  simp [Rpt.counter, Rpt.count, List.getD_eq_getElem?_getD, hlt]

/-- A report that finds the queue full is counted as dropped and counts nothing else. -/
theorem Rpt.counter_hand (r : Rpt) (now : Time) (w : Word × Word) {c : CounterId} (h : c ≠ .reportDrop) :
    (r.hand now w).counter c = r.counter c := by
  unfold Rpt.hand
  split
  · rfl
  · split
    · rfl
    · exact Rpt.counter_count_of_ne _ h 1

/-- What becomes of a report depends on the report area and the queue of waiting reports alone. -/
theorem Rpt.hand_waiting_congr {r r' : Rpt} (ha : r.area = r'.area) (hw : r.waiting = r'.waiting) (now : Time)
    (w : Word × Word) : (r.hand now w).waiting = (r'.hand now w).waiting := by
  have dropped : ∀ x : Rpt, (x.count .reportDrop 1).waiting = x.waiting := fun x =>
    x.count_keeps (·.waiting) (fun _ _ _ => rfl) _ _
  simp only [Rpt.hand, ha, hw]
  split
  · exact hw
  · split
    · rfl
    · rw [dropped, dropped]

/-! ### Refused records -/

/-- A record its owner refuses: one count and one report. -/
def Part.refused (p : Part) (k slot : Nat) : Part := (p.count .refusedRecord 1).report (repRecordRefused k slot)

theorem Part.handRecord_car_unconfigured {p : Part} {slot : Nat} (h : p.carConfig slot = none) (words : List Word) :
    p.handRecord 0 slot words = p.refused 0 slot := by
  simp only [Part.handRecord, Part.trkRecord, h]
  rfl

theorem Part.handRecord_message_bad {p : Part} {words : List Word}
    (h : messageRequest words = 0 ∨ 4 < messageRequest words
      ∨ (messageRequest words ≤ 2 ∧ p.badMessage words = true)) (slot : Nat) :
    p.handRecord 1 slot words = p.refused 1 slot := by
  simp only [Part.handRecord, Part.msgRecord]
  have bad : messageRequest words = 1 ∨ messageRequest words = 2 → p.badMessage words = true := fun h' =>
    (h.resolve_left (by omega)).resolve_left (by omega) |>.2
  split
  · next h1 => exact if_pos (bad (.inl h1))
  · next h2 => exact if_pos (bad (.inr h2))
  · omega
  · omega
  · rfl

theorem Part.handRecord_assignment_bad {words : List Word} (h : assignKind words = 0 ∨ 3 < assignKind words) (p : Part)
    (slot : Nat) : p.handRecord 2 slot words = p.refused 2 slot := by
  simp only [Part.handRecord, Part.prmRecord]
  split
  · omega
  · omega
  · omega
  · rfl

theorem Part.handRecord_override_bad {words : List Word} (h : ∃ n < Config.channels, 2 < overrideCode words n) (p : Part) :
    p.handRecord 3 0 words = p.refused 3 0 := by
  have hany : ((List.range Config.channels).any fun n => decide (2 < overrideCode words n)) = true := by
    simpa using h
  simp only [Part.handRecord, Part.ovrRecord, hany, if_true]
  rfl

/-- What a refused record comes to: the count, the report, and every block as it was. -/
theorem State.Takes.refused {s : State} {a : Addr} {data : Word} {be : BitVec 4} {k slot : Nat} {words : List Word}
    (h : s.Takes a data be k slot words) (hrest : s.part.atRest) (hshaped : s.part.shaped = true)
    (hrefuse : ∀ x : Path, (s.part.onPath fun _ => x).handRecord k slot words
      = (s.part.onPath fun _ => x).refused k slot) :
    (s.hostWrite a data be).mem = writeWord s.mem a data be
      ∧ ((s.hostWrite a data be).part.disp.rpt.counter .refusedRecord).toNat
          = min 65535 ((s.part.disp.rpt.counter .refusedRecord).toNat + 1)
      ∧ (s.hostWrite a data be).part.disp.rpt.waiting
          = (s.part.disp.rpt.hand s.part.now (repRecordRefused k slot)).waiting
      ∧ (s.hostWrite a data be).part.sameTraffic s.part ∧ (s.hostWrite a data be).part.sameTexts s.part
      ∧ (s.hostWrite a data be).part.sameLinks s.part ∧ (s.hostWrite a data be).part.sameConfig s.part
      ∧ (s.hostWrite a data be).part.sameClock s.part := by
  obtain ⟨x, hwatch, hanchor, -, hwrite⟩ := h.hostWrite
  have hpart : (s.hostWrite a data be).part = ((s.part.onPath fun _ => x).refused k slot).settle := by
    rw [hwrite, ← hrefuse x]
    rfl
  rw [hpart]
  have hsixteen : s.part.disp.rpt.counters.length = 16 := by
    simp only [Part.shaped, Bool.and_eq_true, decide_eq_true_eq] at hshaped
    exact hshaped.2
  obtain ⟨htexts, hdisp⟩ :=
    Part.settle_sameTexts (p := (s.part.onPath fun _ => x).refused k slot) hrest.1
  obtain ⟨hconfig, hclock⟩ := Part.settle_same ((s.part.onPath fun _ => x).refused k slot)
  refine ⟨congrArg State.mem hwrite, ?_, ?_, Part.settle_sameTraffic _, htexts, ⟨?_, ?_⟩,
    hconfig.trans ⟨rfl, rfl, rfl, hwatch, hanchor⟩, hclock⟩
  · rw [hdisp]
    show (Rpt.counter (Rpt.choose _) _).toNat = _
    rw [Rpt.counter, Rpt.choose_counters]
    exact (congrArg BitVec.toNat (Rpt.counter_hand _ _ _ (by decide))).trans
      (Rpt.counter_count_same _ hsixteen .refusedRecord 1)
  · rw [hdisp]
    show (Rpt.choose _).waiting = _
    rw [Rpt.choose_waiting]
    exact Rpt.hand_waiting_congr (Rpt.count_keeps (·.area) (fun _ _ _ => rfl) _ _ _)
      (Rpt.count_keeps (·.waiting) (fun _ _ _ => rfl) _ _ _) _ _
  · rw [hdisp]
    rfl
  · rw [hdisp]
    rfl

/-- Settles O33: each owner's refusal is one count and one report, whatever PATH holds. -/
theorem refusedRecordIsReported : Obligations.RefusedRecordIsReported := by
  intro c s a data be k slot words hc htakes hrest hshaped hbad
  refine ⟨s.hostWrite a data be, exec_of_busWrites hc s, htakes.refused hrest hshaped fun x => ?_⟩
  obtain ⟨rfl, hcar⟩ | ⟨rfl, hmessage⟩ | ⟨rfl, hassign⟩ | ⟨rfl, rfl, hcode⟩ := hbad
  · exact Part.handRecord_car_unconfigured (p := s.part.onPath fun _ => x) hcar words
  · exact Part.handRecord_message_bad (p := s.part.onPath fun _ => x) hmessage slot
  · exact Part.handRecord_assignment_bad hassign _ slot
  · exact Part.handRecord_override_bad hcode _

end Sys2Proof.Machine
end

section
/-! SUPPORT. What an evaluation makes of a car and its decks (R19 to R34), and what of the tracker an operation leaves. -/

namespace Sys2Proof.Machine

/-! ### Cars and decks -/

theorem Part.car_setCar (p : Part) (c c' : Nat) (x : Car) :
    (p.setCar c x).car c' = if c' = c ∧ c < p.trk.length then x else p.car c' := by
  simp only [Part.car, Part.setCar_trk, List.getD_eq_getElem?_getD, List.getElem?_set]
  by_cases hc : c = c'
  · subst hc
    by_cases hlt : c < p.trk.length <;> simp [hlt]
  · simp [hc, Ne.symm hc]

theorem Car.deck_setDeck (x : Car) (d d' : Nat) (k : Deck) :
    (x.setDeck d k).deck d' = if d' = d ∧ d < x.decks.length then k else x.deck d' := by
  simp only [Car.deck, Car.setDeck, List.getD_eq_getElem?_getD, List.getElem?_set]
  by_cases hd : d = d'
  · subst hd
    by_cases hlt : d < x.decks.length <;> simp [hlt]
  · simp [hd, Ne.symm hd]

theorem Car.deck_of_length_le {x : Car} {d : Nat} (h : x.decks.length ≤ d) : x.deck d = Deck.fresh := by
  rw [Car.deck, List.getD_eq_default _ _ h]

/-- Lists that agree under `f` agree under `f` car by car. -/
theorem car_of_map_eq {α : Type} {f : Car → α} {l l' : List Car} (h : l.map f = l'.map f) (c : Nat) :
    f (l.getD c Car.fresh) = f (l'.getD c Car.fresh) := by
  have hmap : (l.map f).getD c (f Car.fresh) = (l'.map f).getD c (f Car.fresh) := by rw [h]
  rwa [List.getD_map, List.getD_map] at hmap

/-! ### Visits (R32 to R34) -/

/-- A car without its visit records. -/
def Car.unvisited (x : Car) : Car := { x with decks := x.decks.map fun k => { k with visit := none, opened := false } }

theorem Part.setVisit_unvisited (p : Part) (c d : Nat) (visit : Option Nat) (opened : Bool) :
    (p.setVisit c d visit opened).trk.map Car.unvisited = p.trk.map Car.unvisited := by
  refine map_set_of_same (dflt := Car.fresh) Car.unvisited ?_
  have decks := map_set_of_same (i := d) (dflt := Deck.fresh) (l := (p.car c).decks)
    (x := { p.deck c d with visit := visit, opened := opened })
    (fun k : Deck => { k with visit := none, opened := false }) rfl
  exact (congrArg (fun l : List Deck => { p.car c with decks := l }) decks :)

theorem Part.endVisit_unvisited (p : Part) (c d : Nat) :
    (p.endVisit c d).trk.map Car.unvisited = p.trk.map Car.unvisited := by
  simp only [Part.endVisit]
  split
  · rfl
  · rw [Part.setVisit_unvisited]
    split
    · rw [Part.raiseDeparture_trk]
    · rfl

theorem Part.beginVisit_unvisited (p : Part) (c d f : Nat) :
    (p.beginVisit c d f).trk.map Car.unvisited = p.trk.map Car.unvisited := by
  unfold Part.beginVisit
  split
  · rfl
  · rw [Part.setVisit_unvisited, Part.endVisit_unvisited]

theorem Part.openVisit_unvisited (p : Part) (c d f : Nat) :
    (p.openVisit c d f).trk.map Car.unvisited = p.trk.map Car.unvisited := by
  unfold Part.openVisit
  split
  · rw [Part.raiseArrival, Part.setVisit_unvisited, Part.prmArrival_trk, Part.arrArrival_trk]
  · rfl

theorem Part.updateVisit_unvisited (p : Part) (c d : Nat) :
    (p.updateVisit c d).trk.map Car.unvisited = p.trk.map Car.unvisited := by
  unfold Part.updateVisit
  split
  · rw [Part.openVisit_unvisited, Part.beginVisit_unvisited]
  · rfl
  · exact p.endVisit_unvisited c d
  · exact p.endVisit_unvisited c d
  all_goals rfl

/-- Of an evaluation, the tracking and the visits alone touch the tracker (R19). -/
theorem Part.evaluateCar_trk (p : Part) (c : Nat) (cfg : CarConfig) (words : List Word) :
    ∃ q : Part, q.trk = p.trk.set c (trackCar p cfg c words)
      ∧ (p.evaluateCar c cfg words).trk = ((List.range cfg.decks).foldl (fun q d => q.updateVisit c d) q).trk := by
  refine ⟨_, ?_, by
    simp only [Part.evaluateCar, Part.noticeStatus_trk, Part.noticeChanges_trk, Part.arrEvaluation_trk,
      Part.trgHandOn_trk, Part.noticeWithdrawal_trk]
    rfl⟩
  rw [Part.setCar_trk]
  split <;> simp

/-- Visits change visit records alone. -/
theorem Part.evaluateCar_unvisited (p : Part) (c : Nat) (cfg : CarConfig) (words : List Word) :
    (p.evaluateCar c cfg words).trk.map Car.unvisited = (p.trk.set c (trackCar p cfg c words)).map Car.unvisited := by
  obtain ⟨q, hq, hvisits⟩ := p.evaluateCar_trk c cfg words
  rw [hvisits, ← hq]
  exact foldl_keeps (fun q : Part => q.trk.map Car.unvisited) (fun q d => q.updateVisit_unvisited c d) _ q

/-! ### Steps 1 to 4 (R15 to R29) -/

/-- The car after steps 1 to 3: the record interpreted, the motion tracked. -/
def movedCar (p : Part) (c : Nat) (words : List Word) : Car :=
  trackMotion p.params p.now (interpretCar p.floorCount (p.car c) words p.now)

/-- The candidate of deck `d` of a car (R24 to R26). -/
def deckCandidate (p : Part) (cfg : CarConfig) (x : Car) (d : Nat) : Nat :=
  candidateFloor p cfg x.motion x.lead (x.position.getD 0 + cfg.offset d) (x.deck d).accepted

/-- The accepted floor of deck `d` of a car after its candidate (R28). -/
def deckAccepted (p : Part) (cfg : CarConfig) (x : Car) (d : Nat) : Nat :=
  acceptFloor cfg.deglitch x.motion (pushHistory (x.deck d).candidates (deckCandidate p cfg x d)) (x.deck d).accepted
    (deckCandidate p cfg x d)

/-- Deck `d` of a car after step 4. -/
def trackedDeck (p : Part) (cfg : CarConfig) (c : Nat) (x : Car) (d : Nat) : Deck where
  position := x.position.getD 0 + cfg.offset d
  candidates := pushHistory (x.deck d).candidates (deckCandidate p cfg x d)
  accepted := some (deckAccepted p cfg x d)
  state := indicationOf p cfg c d x.motion (x.position.getD 0 + cfg.offset d) (deckAccepted p cfg x d)
  visit := (x.deck d).visit
  opened := (x.deck d).opened

theorem trackDeck_eq (p : Part) (cfg : CarConfig) (c : Nat) (x : Car) (d : Nat) :
    trackDeck p cfg c x d = x.setDeck d (trackedDeck p cfg c x d) := rfl

/-- A car without its decks. -/
def Car.undecked (x : Car) : Car := { x with decks := [] }

/-- What step 4 reads of a car for one deck. -/
def Car.deckInputs (x : Car) (d : Nat) : Car × Nat × Deck := (x.undecked, x.decks.length, x.deck d)

theorem trackedDeck_congr {x y : Car} {d : Nat} (h : x.deckInputs d = y.deckInputs d) (p : Part) (cfg : CarConfig)
    (c : Nat) : trackedDeck p cfg c x d = trackedDeck p cfg c y d := by
  obtain ⟨hcar, hrest⟩ := Prod.mk.inj h
  obtain ⟨-, hdeck⟩ := Prod.mk.inj hrest
  have hmotion : x.motion = y.motion := (congrArg Car.motion hcar :)
  have hlead : x.lead = y.lead := (congrArg Car.lead hcar :)
  have hposition : x.position = y.position := (congrArg Car.position hcar :)
  simp only [trackedDeck, deckAccepted, deckCandidate, hdeck, hmotion, hlead, hposition]

/-- Step 4 of one deck leaves the other decks. -/
theorem trackDeck_deckInputs_other (p : Part) (cfg : CarConfig) (c : Nat) (x : Car) {d d' : Nat} (h : d' ≠ d) :
    (trackDeck p cfg c x d').deckInputs d = x.deckInputs d := by
  rw [trackDeck_eq, Car.deckInputs, Car.setDeck_length, Car.deck_setDeck, if_neg fun hd => h hd.1.symm]
  rfl

/-- Step 4 touches the decks alone. -/
theorem trackCar_undecked (p : Part) (cfg : CarConfig) (c : Nat) (words : List Word) :
    (trackCar p cfg c words).undecked = (movedCar p c words).undecked :=
  foldl_keeps Car.undecked (f := trackDeck p cfg c) (fun _ _ => rfl) _ _

theorem trackCar_motion (p : Part) (cfg : CarConfig) (c : Nat) (words : List Word) :
    (trackCar p cfg c words).motion = (movedCar p c words).motion := (congrArg Car.motion (trackCar_undecked p cfg c words) :)

theorem trackCar_lead (p : Part) (cfg : CarConfig) (c : Nat) (words : List Word) :
    (trackCar p cfg c words).lead = (movedCar p c words).lead := (congrArg Car.lead (trackCar_undecked p cfg c words) :)

/-- Every deck of the car goes through step 4 once. -/
theorem trackCar_deck (p : Part) {cfg : CarConfig} {c d : Nat} (words : List Word) (hd : d < cfg.decks)
    (hlen : d < (p.car c).decks.length) :
    (trackCar p cfg c words).deck d = trackedDeck p cfg c (movedCar p c words) d := by
  obtain ⟨x, hx, htracked⟩ := foldl_visits_once (fun x : Car => x.deckInputs d) (f := trackDeck p cfg c)
    (List.mem_range.mpr hd) List.nodup_range (fun d' _ hne y => trackDeck_deckInputs_other p cfg c y hne)
    (movedCar p c words)
  have hxlen : d < x.decks.length := by
    rw [show x.decks.length = (movedCar p c words).decks.length from congrArg (fun i => i.2.1) hx]
    exact hlen
  have hdeck := congrArg (fun i : Car × Nat × Deck => i.2.2) htracked
  refine hdeck.trans ?_
  show (trackDeck p cfg c x d).deck d = _
  rw [trackDeck_eq, Car.deck_setDeck, if_pos ⟨rfl, hxlen⟩, trackedDeck_congr hx]

/-- A deck the car does not have is left. -/
theorem trackCar_deck_of_le (p : Part) {cfg : CarConfig} {c d : Nat} (words : List Word) (hd : cfg.decks ≤ d) :
    (trackCar p cfg c words).deck d = (p.car c).deck d := by
  have kept : ∀ (l : List Nat) (x : Car), (∀ d' ∈ l, d' ≠ d) → (l.foldl (trackDeck p cfg c) x).deck d = x.deck d := by
    intro l
    induction l with
    | nil => exact fun _ _ => rfl
    | cons d' l ih =>
      intro x h
      rw [List.foldl_cons, ih _ fun y hy => h y (List.mem_cons_of_mem _ hy)]
      exact congrArg (fun i : Car × Nat × Deck => i.2.2)
        (trackDeck_deckInputs_other p cfg c x (h d' List.mem_cons_self))
  exact kept _ _ fun d' hd' => by have := List.mem_range.mp hd'; omega

end Sys2Proof.Machine
end

section
/-! SUPPORT and PROOFS. The law of monotonic indication (R28): which operations move an accepted floor, and which way. -/

namespace Sys2Proof.Machine

/-! ### Motion and accepted floors -/

/-- What the law reads of a car: its motion and the accepted floor of each deck. -/
def Car.indicated (x : Car) : Motion × List (Option Nat) := (x.motion, x.decks.map (·.accepted))

/-- What the law reads of the tracker. -/
def Part.indicated (p : Part) : List (Motion × List (Option Nat)) := p.trk.map Car.indicated

theorem Car.indicated_unvisited (x : Car) : x.unvisited.indicated = x.indicated := by
  simp [Car.indicated, Car.unvisited]

theorem map_indicated_of_unvisited {l l' : List Car} (h : l.map Car.unvisited = l'.map Car.unvisited) :
    l.map Car.indicated = l'.map Car.indicated := by
  have factor : ∀ l : List Car, l.map Car.indicated = (l.map Car.unvisited).map Car.indicated := fun l => by
    simp [Car.indicated_unvisited]
  rw [factor l, factor l', h]

theorem Part.indicated_congr {p q : Part} (h : q.trk = p.trk) : q.indicated = p.indicated := by
  rw [Part.indicated, h, Part.indicated]

theorem Car.accepted_of_indicated (x : Car) (d : Nat) : (x.deck d).accepted = x.indicated.2.getD d none := by
  rw [Car.deck, Car.indicated]
  exact (List.getD_map (f := Deck.accepted) ..).symm

theorem Part.car_indicated {p : Part} {l : List Car} (h : p.indicated = l.map Car.indicated) (c : Nat) :
    (p.car c).indicated = (l.getD c Car.fresh).indicated := car_of_map_eq h c

/-- The law between two moments (R28): where a car moves, the accepted floors of its decks have not moved against it. -/
def Part.MovesOn (p q : Part) : Prop :=
  ∀ c d a b, (p.deck c d).accepted = some a → (q.deck c d).accepted = some b →
    ((q.car c).motion = .movingUp → a ≤ b) ∧ ((q.car c).motion = .movingDown → b ≤ a)

theorem Part.MovesOn.of_indicated {p q : Part} (h : q.indicated = p.indicated) : p.MovesOn q := by
  intro c d a b ha hb
  have hcar : (q.car c).indicated = (p.car c).indicated := Part.car_indicated h c
  have haccepted : (q.deck c d).accepted = (p.deck c d).accepted := by
    rw [Part.deck, Part.deck, Car.accepted_of_indicated, Car.accepted_of_indicated, hcar]
  obtain rfl : a = b := Option.some.inj (ha.symm.trans (haccepted.symm.trans hb))
  exact ⟨fun _ => le_rfl, fun _ => le_rfl⟩

theorem Part.MovesOn.congr {p p' q q' : Part} (h : p.MovesOn q) (hp : p'.indicated = p.indicated)
    (hq : q'.indicated = q.indicated) : p'.MovesOn q' := by
  intro c d a b ha hb
  have hpc : (p'.car c).indicated = (p.car c).indicated := Part.car_indicated hp c
  have hqc : (q'.car c).indicated = (q.car c).indicated := Part.car_indicated hq c
  have hmotion : (q'.car c).motion = (q.car c).motion := congrArg Prod.fst hqc
  rw [Part.deck, Car.accepted_of_indicated, hpc, ← Car.accepted_of_indicated] at ha
  rw [Part.deck, Car.accepted_of_indicated, hqc, ← Car.accepted_of_indicated] at hb
  rw [hmotion]
  exact h c d a b ha hb

/-! ### An evaluation (R25, R26, R28) -/

/-- A moving deck's floor does not go against the motion. -/
theorem deckAccepted_monotonic {p : Part} {cfg : CarConfig} {x : Car} {d a : Nat} (h : (x.deck d).accepted = some a) :
    (x.motion = .movingUp → a ≤ deckAccepted p cfg x d) ∧ (x.motion = .movingDown → deckAccepted p cfg x d ≤ a) := by
  refine ⟨fun hm => ?_, fun hm => ?_⟩
  · simp [deckAccepted, deckCandidate, acceptFloor, candidateFloor, h, hm]
  · simp [deckAccepted, deckCandidate, acceptFloor, candidateFloor, h, hm]

theorem Part.evaluateCar_movesOn (p : Part) (c : Nat) (cfg : CarConfig) (words : List Word) :
    p.MovesOn (p.evaluateCar c cfg words) := by
  have hset : p.MovesOn (p.setCar c (trackCar p cfg c words)) := by
    intro c' d a b ha hb
    rw [Part.deck, Part.car_setCar] at hb
    rw [Part.car_setCar]
    split at hb
    · next h =>
      obtain ⟨rfl, hlt⟩ := h
      rw [if_pos ⟨rfl, hlt⟩, trackCar_motion]
      by_cases hd : d < cfg.decks
      · have hlen : d < (p.car c').decks.length := by
          by_contra hlen
          rw [Part.deck, Car.deck_of_length_le (not_lt.mp hlen)] at ha
          cases ha
        rw [trackCar_deck p words hd hlen] at hb
        cases hb
        exact deckAccepted_monotonic ha
      · rw [trackCar_deck_of_le p words (not_lt.mp hd)] at hb
        obtain rfl : a = b := Option.some.inj (ha.symm.trans hb)
        exact ⟨fun _ => le_rfl, fun _ => le_rfl⟩
    · obtain rfl : a = b := Option.some.inj (ha.symm.trans hb)
      exact ⟨fun _ => le_rfl, fun _ => le_rfl⟩
  exact hset.congr rfl (map_indicated_of_unvisited (p.evaluateCar_unvisited c cfg words))

theorem Part.handRecord_movesOn (p : Part) (k slot : Nat) (words : List Word) : p.MovesOn (p.handRecord k slot words) := by
  unfold Part.handRecord
  split
  · unfold Part.trkRecord
    split
    · exact .of_indicated rfl
    · exact p.evaluateCar_movesOn _ _ _
  · exact .of_indicated (Part.indicated_congr (p.msgRecord_trk slot words))
  · exact .of_indicated (Part.indicated_congr (p.prmRecord_trk slot words))
  · exact .of_indicated (Part.indicated_congr (p.ovrRecord_trk words))

/-! ### Operations that leave motion and accepted floors -/

theorem Car.setDeck_indicated {x : Car} {d : Nat} {k : Deck} (h : k.accepted = (x.deck d).accepted) :
    (x.setDeck d k).indicated = x.indicated :=
  congrArg (x.motion, ·) (map_set_of_same (dflt := Deck.fresh) (·.accepted) h)

theorem Car.staled_indicated (x : Car) (decks : Nat) : (x.staled decks).indicated = x.indicated :=
  foldl_keeps Car.indicated (f := fun y d => y.setDeck d { y.deck d with state := .stale })
    (fun _ _ => Car.setDeck_indicated rfl) _ x

theorem Part.setCar_indicated {p : Part} {c : Nat} {x : Car} (h : x.indicated = (p.car c).indicated) :
    (p.setCar c x).indicated = p.indicated := map_set_of_same (dflt := Car.fresh) Car.indicated h

theorem Part.staleExpiry_indicated (p : Part) (c : Nat) : (p.staleExpiry c).indicated = p.indicated := by
  unfold Part.staleExpiry
  split
  · refine (Part.indicated_congr ?_).trans (p.setCar_indicated ((p.car c).staled_indicated (p.decksOf c).length))
    rw [Part.noticeStatus_trk, Part.arrEvaluation_trk, foldl_keeps Part.trk fun q d => q.cmpDeckChange_trk c d,
      Part.report_trk]
  · rfl

theorem Part.staleNow_indicated (p : Part) : p.staleNow.indicated = p.indicated :=
  foldl_keeps Part.indicated (fun q c => q.staleExpiry_indicated c) _ p

/-- No event of a timer, line or ring moves an accepted floor. -/
theorem PartEvent.indicated {f : Part → Part} (h : PartEvent f) (p : Part) : (f p).indicated = p.indicated := by
  cases h with
  | carStale c => exact p.staleExpiry_indicated c
  | historyEmptied c =>
    show (p.emptyHistory c).indicated = _
    unfold Part.emptyHistory
    split
    · exact p.setCar_indicated rfl
    · rfl
  | showDeadline j => exact Part.indicated_congr (p.showDeadline_trk j)
  | lifetime => exact Part.indicated_congr p.lifetime_trk
  | messageExpired m => exact Part.indicated_congr (p.msgExpire_trk m)
  | dwellDeadline j r => rfl
  | lineAccepted k => exact Part.indicated_congr (p.testLine_trk k)
  | lineSampling levels =>
    refine Part.indicated_congr ?_
    simp only [Part.sampleLines]
    split <;> rfl
  | sendFrame r => exact Part.indicated_congr (p.sendFrame_trk r)
  | frameReturn r port bytes => exact Part.indicated_congr (p.frameReturn_trk r port bytes)
  | returnTimeout r tag => exact Part.indicated_congr (p.returnTimeout_trk r tag)
  | trailingTimeout r tag => exact Part.indicated_congr (p.trailingTimeout_trk r tag)
  | busyBackoff r position region => exact Part.indicated_congr (p.busyBackoff_trk r position region)
  | pollTimer r position => exact Part.indicated_congr (p.pollTimer_trk r position)
  | joinTimer r position => exact Part.indicated_congr (p.joinTimer_trk r position)
  | ringCheck r => exact Part.indicated_congr (p.ringCheck_trk r)
  | traceEnd r => exact Part.indicated_congr (p.traceEnd_trk r)

/-! ### Watching a host access -/

theorem Part.startTake_trk (p : Part) (k : TakeKind) : (p.startTake k).trk = p.trk := by
  unfold Part.startTake
  split <;> rfl

theorem Part.judge_trk (p : Part) (v : Word) : (p.judge v).trk = p.trk := by
  unfold Part.judge
  split
  · exact p.startTake_trk .full
  · split
    · exact p.startTake_trk .params
    · rfl

theorem Part.writeTakeWord_trk (p : Part) (data : Word) (be : BitVec 4) : (p.writeTakeWord data be).trk = p.trk := by
  unfold Part.writeTakeWord
  split
  · rfl
  · simp only [Part.takeWordWrite]
    split
    · exact Part.judge_trk _ _
    · rfl

theorem Part.anchorWrite_trk (p : Part) (a : Nat) (data : Word) (be : BitVec 4) : (p.anchorWrite a data be).trk = p.trk := by
  have asked : (if a = p.path.takeAddress then p.writeTakeWord data be
      else if a = p.path.serviceAddress then p.serviceWrite (enabledBits data be) else p).trk = p.trk := by
    split
    · exact p.writeTakeWord_trk data be
    · split
      · exact p.serviceWrite_trk _
      · rfl
  simp only [Part.anchorWrite]
  split <;> exact asked

/-- A record is captured under PATH's own bookkeeping: before it and after it the take is the same. -/
theorem Part.capture_movesOn (p : Part) (k i : Nat) (data : Word) (be : BitVec 4) :
    p.MovesOn (p.capture k i data be) ∧ (p.capture k i data be).path.take = p.path.take := by
  simp only [Part.capture]
  split
  · simp only [Part.closeRecord]
    split
    · exact ⟨.of_indicated rfl, rfl⟩
    · exact ⟨Part.MovesOn.congr (p := (p.onPath (·.mergeMirror k i data be)).onPath _)
          (Part.handRecord_movesOn _ _ _ _) rfl rfl,
        (congrArg Path.take (path_of_base (Part.handRecord_base _ _ _ _))).trans rfl⟩
  · exact ⟨.of_indicated rfl, rfl⟩

/-- A host write moves accepted floors on, and where no take is in progress one that moves them begins none. -/
theorem Part.watchWrite_movesOn (p : Part) (a : Nat) (data : Word) (be : BitVec 4) :
    p.MovesOn (p.watchWrite a data be)
      ∧ ((p.watchWrite a data be).indicated = p.indicated
        ∨ (p.path.take = none → (p.watchWrite a data be).path.take = none)) := by
  simp only [Part.watchWrite]
  split
  · have h := Part.indicated_congr (Part.anchorWrite_trk (p.onPath (·.mergeTake a data be)) a data be)
    exact ⟨.of_indicated h, .inl h⟩
  · split
    · next k i _ =>
      obtain ⟨hmoves, htake⟩ := Part.capture_movesOn (p.onPath (·.mergeTake a data be)) k i data be
      refine ⟨hmoves.congr rfl rfl, .inr fun hnone => htake.trans ?_⟩
      simp [Path.mergeTake, hnone]
    · split
      · have h := Part.indicated_congr (Part.textWrite_trk (p.onPath (·.mergeTake a data be)) a)
        exact ⟨.of_indicated h, .inl h⟩
      · exact ⟨.of_indicated rfl, .inl rfl⟩

theorem Part.watchRead_trk (p : Part) (a : Nat) (v : Word) : (p.watchRead a v).trk = p.trk := by
  have learned : (if a = p.path.takeAddress then p.learn (some v) else p).trk = p.trk := by
    split <;> rfl
  unfold Part.watchRead
  simp only
  split
  · exact learned
  · exact learned

/-! ### The end of a take (R39, R173 to R175) -/

/-- The tracker starts afresh, which an accepted TAKE_FULL alone makes of it: no deck has an accepted floor, and the take has
ended (R39, Table 2-2). -/
def Part.fresh (p : Part) : Prop := (∀ c d, (p.deck c d).accepted = none) ∧ p.path.take = none

theorem Part.fresh.congr {p q : Part} (h : p.fresh) (hq : q.indicated = p.indicated) (htake : q.path.take = none) :
    q.fresh := by
  refine ⟨fun c d => ?_, htake⟩
  have hcar : (q.car c).indicated = (p.car c).indicated := Part.car_indicated hq c
  have hp := h.1 c d
  rw [Part.deck, Car.accepted_of_indicated] at hp ⊢
  rw [hcar, hp]

/-- Nothing moves from or against a floor that is not there. -/
theorem Part.fresh.movesOn {q : Part} (h : q.fresh) (p : Part) : p.MovesOn q := by
  intro c d a b _ hb
  rw [h.1 c d] at hb
  cases hb

theorem Part.applyLines_base (p : Part) : p.applyLines.base = p.base :=
  foldl_keeps Part.base (fun q k => by split <;> simp) _ p

theorem Part.applyLines_trk (p : Part) : p.applyLines.trk = p.trk :=
  foldl_keeps Part.trk (fun q k => by split <;> simp) _ p

/-- After the new configuration is in place, its acceptance changes the base no more. -/
theorem Part.acceptFull_base (p : Part) (t : Take) : (p.acceptFull t).base = (p.replaced t).base := by
  rw [Part.acceptFull, Part.applyLines_base, Part.txfPump_base, Part.report_base]

theorem Part.acceptFull_trk (p : Part) (t : Take) :
    (p.acceptFull t).trk = List.replicate Config.maxCars Car.fresh := by
  rw [Part.acceptFull, Part.applyLines_trk, Part.txfPump_trk, Part.report_trk]
  rfl

theorem Part.acceptFull_fresh (p : Part) (t : Take) : (p.acceptFull t).fresh := by
  refine ⟨fun c d => ?_, (congrArg Path.take (path_of_base (p.acceptFull_base t))).trans rfl⟩
  have hcar : (p.acceptFull t).car c = Car.fresh := by
    rw [Part.car, Part.acceptFull_trk, getD_replicate_self]
  rw [Part.deck, hcar]
  exact congrArg Deck.accepted (getD_replicate_self 2 d Deck.fresh)

theorem Part.acceptParams_indicated (p : Part) (t : Take) : (p.acceptParams t).indicated = p.indicated :=
  (Part.indicated_congr (Part.lifetime_trk _)).trans (Part.staleNow_indicated _)

/-- A take that ends leaves the floors, or the tracker starts afresh. -/
theorem Part.finishTake_indicated (p : Part) (t : Take) (result : Failure) :
    (p.finishTake t result).indicated = p.indicated
      ∨ ∃ p' : Part, p.finishTake t result = p'.acceptFull t := by
  unfold Part.finishTake
  split
  · split
    · exact .inr ⟨p, rfl⟩
    · exact .inl (p.acceptParams_indicated t)
  · exact .inl rfl

/-! ### Own accesses (R179) -/

/-- An own access other than a due result write leaves the tracker. -/
theorem State.performOwn_trk {s : State} {k : OwnKind} (h : k = .takeResult → s.part.path.resultDue = false) :
    (s.performOwn k).part.trk = s.part.trk := by
  refine (Part.settle_trk _).trans ?_
  cases k with
  | takeWord => exact (Part.judge_trk _ _).trans rfl
  | takeRead =>
    simp only [State.readTake]
    split
    · rfl
    · split
      · rfl
      · exact (apply_ite Part.trk _ _ _).trans (ite_self _)
  | takeResult =>
    rw [State.writeTakeResult_of_not_due (s := s.onPart fun p => p.onPath (·.leave .takeResult)) (h rfl)]
    rfl
  | report =>
    rw [State.writeReport_part]
    rfl
  | text =>
    simp only [State.readText]
    split
    · rfl
    · exact Part.textData_trk _ _

/-- The first own access in the queue is none that makes a host access wait for PATH. -/
def Path.heldForNone (x : Path) : Prop := ∀ k, x.heldFor = some k → k = .report

/-- An access that joins goes to the end, and has been passed over by none. -/
theorem Path.heldForNone_join {x : Path} (h : x.heldForNone) (k : OwnKind) (wanted : Bool) :
    (x.join k wanted).heldForNone := by
  unfold Path.join
  split
  · intro k' hk
    cases hown : x.own with
    | nil => simp [Path.heldFor, hown, Config.passOverLimit] at hk
    | cons y rest =>
      refine h k' ?_
      simpa [Path.heldFor, hown] using hk
  · exact h

theorem Part.joinOwn_heldForNone {p : Part} (h : p.path.heldForNone) : p.joinOwn.path.heldForNone :=
  Path.heldForNone_join (Path.heldForNone_join (Path.heldForNone_join (Path.heldForNone_join
    (Path.heldForNone_join h _ _) _ _) _ _) _ _) _ _

theorem Part.settle_heldForNone {p : Part} (h : p.path.heldForNone) : p.settle.path.heldForNone :=
  Part.joinOwn_heldForNone h

/-- An acceptance keeps a service word write-back alone of the own accesses (R174, R188). -/
theorem Part.replaced_heldForNone (p : Part) (t : Take) : (p.replaced t).path.heldForNone := by
  intro k hk
  cases hown : keptOwn p.disp.rpt.writer p.path.own with
  | nil => simp [Path.heldFor, Part.replaced, Path.accepted, hown] at hk
  | cons y rest =>
    have hmem : y ∈ keptOwn p.disp.rpt.writer p.path.own := hown ▸ List.mem_cons_self
    have hkind : y.kind = .report := by
      simp only [keptOwn, List.mem_filter, Bool.and_eq_true, decide_eq_true_eq] at hmem
      exact hmem.2.1
    simp only [Path.heldFor, Part.replaced, Path.accepted, hown] at hk
    split at hk
    · exact (Option.some.inj hk).symm.trans hkind
    · cases hk

/-- The result that is due is written, and the take ends with it (R173). -/
theorem State.writeTakeResult_of_due {s : State} {t : Take} {due : Failure} (htake : s.part.path.take = some t)
    (hresult : t.result = some due) :
    s.writeTakeResult.part =
      (s.part.learn (some (takeResultWord (s.part.takeResult t due).1 (s.part.takeResult t due).2))).finishTake t
        (s.part.takeResult t due) := by
  simp only [State.writeTakeResult, htake, hresult, State.onPart_part, State.ownWrite_part]

/-- What the take result's turn makes of the tracker. -/
theorem State.performTakeResult (s : State) :
    (s.performOwn .takeResult).part.indicated = s.part.indicated
      ∨ (s.part.path.take.isSome = true ∧ (s.performOwn .takeResult).part.fresh
        ∧ (s.performOwn .takeResult).part.path.heldForNone) := by
  cases hdue : s.part.path.resultDue with
  | false => exact .inl (Part.indicated_congr (State.performOwn_trk fun _ => hdue))
  | true =>
    unfold Path.resultDue at hdue
    cases htake : s.part.path.take with
    | none => simp [htake] at hdue
    | some t =>
      cases hresult : t.result with
      | none => simp [htake, hresult] at hdue
      | some due =>
        have hperform : (s.performOwn .takeResult).part = (State.writeTakeResult _).part.settle := rfl
        rw [State.writeTakeResult_of_due (s := s.onPart fun p => p.onPath (·.leave .takeResult)) htake hresult] at hperform
        generalize hp : (Part.learn _ _ : Part) = p at hperform
        have htrk : p.trk = s.part.trk := hp ▸ rfl
        obtain hsame | ⟨p', hfull⟩ := p.finishTake_indicated t (Part.takeResult _ t due)
        · left
          rw [hperform]
          exact hsame.trans (Part.indicated_congr htrk)
        · right
          rw [hperform, hfull]
          refine ⟨rfl, (p'.acceptFull_fresh t).congr (Part.indicated_congr (Part.settle_trk _))
            ((Part.settle_take _).trans (p'.acceptFull_fresh t).2), Part.settle_heldForNone ?_⟩
          rw [path_of_base (p'.acceptFull_base t)]
          exact p'.replaced_heldForNone t

theorem State.clearResult_indicated (s : State) :
    s.clearResult.part.indicated = s.part.indicated
      ∨ (s.part.path.take.isSome = true ∧ s.clearResult.part.fresh ∧ s.clearResult.part.path.heldForNone) := by
  unfold State.clearResult
  split
  · exact s.performTakeResult
  · exact .inl rfl

/-- A due result, or an own access that a host access waits for, leaves the floors or ends a take afresh. -/
theorem State.performOwn_indicated (s : State) (k : OwnKind) :
    (s.performOwn k).part.indicated = s.part.indicated
      ∨ (s.part.path.take.isSome = true ∧ (s.performOwn k).part.fresh) := by
  by_cases hk : k = .takeResult
  · subst hk
    exact s.performTakeResult.imp id fun h => ⟨h.1, h.2.1⟩
  · exact .inl (Part.indicated_congr (State.performOwn_trk fun h => absurd h hk))

theorem State.clearResult_indicated_of_not_due {s : State} (h : s.part.path.resultDue = false) :
    s.clearResult.part.indicated = s.part.indicated := by
  unfold State.clearResult
  split
  · exact Part.indicated_congr (State.performOwn_trk fun _ => h)
  · rfl

theorem State.performReport_take (s : State) : (s.performOwn .report).part.path.take = s.part.path.take :=
  (Part.settle_take _).trans ((congrArg (fun p : Part => p.path.take) (State.writeReport_part _)).trans rfl)

/-- What a host access waits for leaves the floors, or ends the take in progress and leaves none (R173, R179). -/
theorem State.release_indicated (s : State) :
    s.release.part.indicated = s.part.indicated ∨ (s.part.path.take.isSome = true ∧ s.release.part.fresh) := by
  have afterwards : ∀ {s₁ : State}, s₁.part.fresh → s₁.clearResult.part.fresh := fun {s₁} h =>
    h.congr ((State.clearResult_indicated s₁).resolve_right fun h' => by simp [h.2] at h')
      (State.clearResult_take h.2)
  cases htake : s.part.path.take with
  | none =>
    have still := State.clearResult_take htake
    have cleared := (State.clearResult_indicated s).resolve_right fun h => by simp [htake] at h
    simp only [State.release]
    split
    · exact .inl cleared
    · next k _ =>
      have performed := Part.indicated_congr (State.performOwn_trk (s := s.clearResult) (k := k) fun _ =>
        Path.resultDue_of_no_take still)
      exact .inl (((State.clearResult_indicated_of_not_due (State.performOwn_not_due still k)).trans performed).trans
        cleared)
  | some t =>
    have result := State.clearResult_indicated s
    simp only [State.release]
    split
    · exact result.imp id fun h => ⟨rfl, h.2.1⟩
    · next k hk =>
      obtain hsame | ⟨-, hfresh, hheld⟩ := result
      · obtain hperform | ⟨-, hperform⟩ := s.clearResult.performOwn_indicated k
        · exact ((s.clearResult.performOwn k).clearResult_indicated).imp (·.trans (hperform.trans hsame))
            fun h => ⟨rfl, h.2.1⟩
        · exact .inr ⟨rfl, afterwards hperform⟩
      · obtain rfl := hheld k hk
        refine .inr ⟨rfl, afterwards (hfresh.congr (Part.indicated_congr (State.performOwn_trk nofun)) ?_)⟩
        exact (State.performReport_take _).trans hfresh.2

/-! ### Steps -/

theorem State.hostWrite_part (s : State) (a : Addr) (data : Word) (be : BitVec 4) :
    (s.hostWrite a data be).part = ((s.release.part.onPath (·.passOver)).watchWrite a.toNat data be).settle := rfl

/-- What the law asks of a command other than RESET_N. -/
theorem CommandStep.movesOn {s t : State} (h : CommandStep s t)
    (htake : s.part.path.take.isSome = true → t.part.path.take.isSome = true) : s.part.MovesOn t.part := by
  cases h with
  | write a data be =>
    rw [State.hostWrite_part] at htake ⊢
    have hsettle := fun q : Part => Part.indicated_congr (Part.settle_trk q)
    have htaken := Part.settle_take ((s.release.part.onPath (·.passOver)).watchWrite a.toNat data be)
    obtain ⟨hmoves, hwrite⟩ := (s.release.part.onPath (·.passOver)).watchWrite_movesOn a.toNat data be
    obtain hsame | ⟨hbefore, hfresh⟩ := s.release_indicated
    · exact hmoves.congr hsame.symm (hsettle _)
    · obtain hwritten | hnone := hwrite
      · exact (hfresh.movesOn s.part).congr rfl ((hsettle _).trans hwritten)
      · have hended := htake hbefore
        rw [htaken, hnone hfresh.2] at hended
        cases hended
  | read a =>
    obtain hsame | ⟨-, hfresh⟩ := s.release_indicated
    · exact .of_indicated (((Part.indicated_congr (Part.settle_trk _)).trans
        (Part.indicated_congr (Part.watchRead_trk _ _ _))).trans hsame)
    · exact (hfresh.movesOn s.part).congr rfl ((Part.indicated_congr (Part.settle_trk _)).trans
        (Part.indicated_congr (Part.watchRead_trk _ _ _)))
  | own k =>
    unfold State.ownTurn
    split
    · obtain hsame | ⟨-, hfresh⟩ := s.performOwn_indicated k
      · exact .of_indicated hsame
      · exact hfresh.movesOn s.part
    · exact .of_indicated rfl
  | event hf => exact .of_indicated ((Part.indicated_congr (Part.settle_trk _)).trans (hf.indicated s.part))
  | idle => exact .of_indicated rfl

/-- Settles O14: an evaluation alone moves an accepted floor, and where the car moves its candidate is bounded by the floor it had
(R25, R26); an accepted TAKE_FULL, which forgets the floors, ends the take. -/
theorem indicationIsMonotonic : Obligations.IndicationIsMonotonic := by
  intro s t c d a b h htake ha hb
  obtain ⟨command, s', hpart, hexec⟩ | htick := step_cases h
  · rw [← hpart] at htake ha
    obtain ⟨anchor, passed, -, rfl⟩ | hstep := exec_cases hexec
    · have hfresh : (s'.resetLine anchor passed).part.fresh :=
        ⟨fun c d => congrArg Deck.accepted (Part.reset_deck anchor s'.part.lines c d), rfl⟩
      exact hfresh.movesOn s'.part c d a b ha hb
    · exact hstep.movesOn htake c d a b ha hb
  · have hsame : t.part.indicated = s.part.indicated := Part.indicated_congr (by rw [htick, Part.tick_trk])
    exact Part.MovesOn.of_indicated hsame c d a b ha hb

end Sys2Proof.Machine
end

section
/-! SUPPORT and PROOFS. CAR_RECORD, deck by deck: the candidate's choice, the accepted floor, the indication and the visit
(R23 to R34). -/

namespace Sys2Proof.Machine

/-! ### The floors a candidate is chosen from (R24 to R26) -/

/-- The floor whose zone holds a position goes first (R24). -/
theorem candidateFloor_still_of_near {p : Part} {cfg : CarConfig} {lead x k : Nat} {accepted : Option Nat}
    (hk : k < p.floorCount) (hnear : distance x (p.level k) ≤ cfg.zone)
    (hbelow : ∀ k' < k, cfg.zone < distance x (p.level k')) : candidateFloor p cfg .still lead x accepted = k := by
  have hfound : p.floorNear cfg.zone x = some k := by
    rw [Part.floorNear, List.find?_range_eq_some]
    exact ⟨by simpa using hnear, by simpa using hk, fun k' hk' => by simpa using hbelow k' hk'⟩
  simp only [candidateFloor, hfound]

theorem floorNear_eq_none {p : Part} {zone x : Nat} (h : ∀ k < p.floorCount, zone < distance x (p.level k)) :
    p.floorNear zone x = none := by
  rw [Part.floorNear, List.find?_range_eq_none]
  exact fun k hk => by simpa using h k hk

/-- Of a range, the first of the best: what stands before it is worse, what stands behind it is not better (R24). -/
theorem nearestFloor_spec (p : Part) (x : Nat) (h : 0 < p.floorCount) :
    nearestFloor p x < p.floorCount ∧ ∀ k < p.floorCount,
      distance x (p.level (nearestFloor p x)) < distance x (p.level k)
        ∨ (distance x (p.level (nearestFloor p x)) = distance x (p.level k) ∧ nearestFloor p x ≤ k) := by
  have first : ∀ n, ∃ best, (List.range n).foldl
      (fun best k => if distance x (p.level k) < distance x (p.level best) then k else best) 0 = best
      ∧ best ≤ n - 1 ∧ ∀ k < n, distance x (p.level best) < distance x (p.level k)
        ∨ (distance x (p.level best) = distance x (p.level k) ∧ best ≤ k) := by
    intro n
    induction n with
    | zero => exact ⟨0, rfl, le_rfl, by omega⟩
    | succ n ih =>
      obtain ⟨best, hbest, hlast, hall⟩ := ih
      rw [List.range_succ, List.foldl_append, hbest, List.foldl_cons, List.foldl_nil]
      by_cases hn : distance x (p.level n) < distance x (p.level best)
      · refine ⟨n, if_pos hn, by omega, fun k hk => ?_⟩
        obtain hk | rfl := Nat.lt_succ_iff_lt_or_eq.mp hk
        · obtain hworse | ⟨heq, -⟩ := hall k hk <;> exact .inl (by omega)
        · exact .inr ⟨rfl, le_rfl⟩
      · refine ⟨best, if_neg hn, by omega, fun k hk => ?_⟩
        obtain hk | rfl := Nat.lt_succ_iff_lt_or_eq.mp hk
        · exact hall k hk
        · omega
  obtain ⟨best, hbest, hlast, hall⟩ := first p.floorCount
  rw [nearestFloor, hbest]
  exact ⟨by omega, hall⟩

/-- The last of a range that passes a test, or the bottom floor (R25). -/
theorem floorBelow_spec (p : Part) (zone : Nat) (q : Int) :
    (floorBelow p zone q = 0
      ∨ (floorBelow p zone q < p.floorCount ∧ (p.level (floorBelow p zone q) : Int) - zone ≤ q))
      ∧ ∀ k < p.floorCount, floorBelow p zone q < k → q < (p.level k : Int) - zone := by
  have last : ∀ n, ∃ best, (List.range n).foldl
      (fun best k => if (p.level k : Int) - zone ≤ q then k else best) 0 = best
      ∧ (best = 0 ∨ (best < n ∧ (p.level best : Int) - zone ≤ q)) ∧ ∀ k < n, best < k → q < (p.level k : Int) - zone := by
    intro n
    induction n with
    | zero => exact ⟨0, rfl, .inl rfl, by omega⟩
    | succ n ih =>
      obtain ⟨best, hbest, hreach, habove⟩ := ih
      rw [List.range_succ, List.foldl_append, hbest, List.foldl_cons, List.foldl_nil]
      by_cases hn : (p.level n : Int) - zone ≤ q
      · exact ⟨n, if_pos hn, .inr ⟨Nat.lt_succ_self n, hn⟩, by omega⟩
      · refine ⟨best, if_neg hn, hreach.imp id fun h => ⟨Nat.lt_succ_of_lt h.1, h.2⟩, fun k hk hlt => ?_⟩
        obtain hk | rfl := Nat.lt_succ_iff_lt_or_eq.mp hk
        · exact habove k hk hlt
        · omega
  obtain ⟨best, hbest, hreach, habove⟩ := last p.floorCount
  rw [floorBelow, hbest]
  exact ⟨hreach, habove⟩

/-- The first of a range that passes a test, or the top floor (R26). -/
theorem floorAbove_spec (p : Part) (zone : Nat) (q : Int) :
    (floorAbove p zone q = p.floorCount - 1
      ∨ (floorAbove p zone q < p.floorCount ∧ q ≤ (p.level (floorAbove p zone q) : Int) + zone))
      ∧ ∀ k < p.floorCount, k < floorAbove p zone q → (p.level k : Int) + zone < q := by
  unfold floorAbove
  split
  · next k hk =>
    obtain ⟨hreach, hlt, hbelow⟩ := List.find?_range_eq_some.mp hk
    exact ⟨.inr ⟨by simpa using hlt, by simpa using hreach⟩, fun k' _ hk' => by simpa using hbelow k' hk'⟩
  · next hnone =>
    exact ⟨.inl rfl, fun k hk _ => by simpa using List.find?_range_eq_none.mp hnone k hk⟩

/-- The accepted floor of a deck at rest that has one (R28). -/
theorem acceptFloor_still (mode : Deglitch) (history : List Nat) (f candidate : Nat) :
    acceptFloor mode .still history (some f) candidate =
      if mode.pair.1 ≤ (newest mode.pair.2 history).countP (· = candidate) then candidate else f := by
  by_cases h : candidate = f
  · simp [acceptFloor, h]
  · simp [acceptFloor, h, deglitched]

/-- Without an accepted floor, and while the car moves, the candidate is accepted at once (R28). -/
theorem acceptFloor_at_once {mode : Deglitch} {motion : Motion} {history : List Nat} {accepted : Option Nat}
    {candidate : Nat} (h : accepted = none ∨ motion ≠ .still) :
    acceptFloor mode motion history accepted candidate = candidate := by
  cases accepted with
  | none => rfl
  | some f =>
    cases motion with
    | still => simp at h
    | movingUp | movingDown => rfl

theorem indicationOf_eq (p : Part) (cfg : CarConfig) (c d : Nat) (motion : Motion) (x a : Nat) :
    indicationOf p cfg c d motion x a =
      if motion = .still then
        if distance x (p.level a) ≤ cfg.zone ∧ p.serves c d a = true then .atFloor else .between
      else if p.serves c d a = true then .moving else .express := by
  cases motion <;> simp [indicationOf]

/-! ### The visit of one deck (R32 to R34) -/

theorem Part.car_congr {p q : Part} (h : q.trk = p.trk) (c : Nat) : q.car c = p.car c := by
  rw [Part.car, h, Part.car]

theorem Part.deck_congr {p q : Part} (h : q.trk = p.trk) (c d : Nat) : q.deck c d = p.deck c d := by
  rw [Part.deck, Part.car_congr h, Part.deck]

/-- TRK holds deck `d` of car `c`. -/
def Part.hasDeck (p : Part) (c d : Nat) : Prop := c < p.trk.length ∧ d < (p.car c).decks.length

theorem Part.hasDeck_of_unvisited {p q : Part} (h : q.trk.map Car.unvisited = p.trk.map Car.unvisited) {c d : Nat}
    (hp : p.hasDeck c d) : q.hasDeck c d := by
  have hcar : (q.car c).unvisited = (p.car c).unvisited := car_of_map_eq h c
  have hlength := congrArg List.length h
  have hdecks := congrArg (fun x : Car => x.decks.length) hcar
  simp only [List.length_map, Car.unvisited] at hlength hdecks
  exact ⟨hlength ▸ hp.1, hdecks ▸ hp.2⟩

theorem Part.setVisit_deck_same {p : Part} {c d : Nat} (h : p.hasDeck c d) (visit : Option Nat) (opened : Bool) :
    (p.setVisit c d visit opened).deck c d = { p.deck c d with visit := visit, opened := opened } := by
  rw [Part.setVisit, Part.deck, Part.car_setCar, if_pos ⟨rfl, h.1⟩, Car.deck_setDeck, if_pos ⟨rfl, h.2⟩]

theorem Part.setVisit_deck_other (p : Part) (c : Nat) {d d' : Nat} (h : d' ≠ d) (visit : Option Nat) (opened : Bool) :
    (p.setVisit c d' visit opened).deck c d = p.deck c d := by
  rw [Part.setVisit, Part.deck, Part.car_setCar]
  split
  · rw [Car.deck_setDeck, if_neg fun hd => h hd.1.symm]
    rfl
  · rfl

theorem Part.doorsOpen_of_unvisited {p q : Part} (h : q.trk.map Car.unvisited = p.trk.map Car.unvisited) (c : Nat) :
    q.doorsOpen c = p.doorsOpen c := by
  have hcar : (q.car c).unvisited = (p.car c).unvisited := car_of_map_eq h c
  have hdoor : (q.car c).door = (p.car c).door := (congrArg Car.door hcar :)
  rw [Part.doorsOpen, hdoor, Part.doorsOpen]

/-- A deck whose visit has ended (R32). -/
def Deck.departed (k : Deck) : Deck := if k.visit = none then k else { k with visit := none, opened := false }

/-- A deck that stands at floor `f`, its doors open or not (R32, R33). -/
def Deck.standing (k : Deck) (f : Nat) (doors : Bool) : Deck :=
  { k with visit := some f, opened := doors || (decide (k.visit = some f) && k.opened) }

/-- A deck after step 5 (R32 to R34). -/
def visitedDeck (doors : Bool) (k : Deck) : Deck :=
  match k.state, k.accepted with
  | .atFloor, some f => k.standing f doors
  | .moving, _ => k.departed
  | .express, _ => k.departed
  | _, _ => k

theorem Part.endVisit_deck {p : Part} {c d : Nat} (h : p.hasDeck c d) :
    (p.endVisit c d).deck c d = (p.deck c d).departed := by
  simp only [Part.endVisit, Deck.departed]
  split
  · next hv => rw [if_pos hv]
  · next g hv =>
    have hraise : (if (p.deck c d).opened = true then p.raiseDeparture c d g else p).trk = p.trk := by
      split
      · exact p.raiseDeparture_trk c d g
      · rfl
    rw [Part.setVisit_deck_same (Part.hasDeck_of_unvisited (by rw [hraise]) h), Part.deck_congr hraise, hv, if_neg nofun]

theorem Part.endVisit_deck_other (p : Part) (c : Nat) {d d' : Nat} (h : d' ≠ d) :
    (p.endVisit c d').deck c d = p.deck c d := by
  simp only [Part.endVisit]
  split
  · rfl
  · rw [Part.setVisit_deck_other _ c h]
    split
    · exact Part.deck_congr (p.raiseDeparture_trk ..) c d
    · rfl

theorem Part.openVisit_deck {p : Part} {c d : Nat} (h : p.hasDeck c d) {f : Nat} (hv : (p.deck c d).visit = some f) :
    (p.openVisit c d f).deck c d = { p.deck c d with opened := p.doorsOpen c || (p.deck c d).opened } := by
  have hraise : ((p.arrArrival c d f).prmArrival c d f).trk = p.trk := by
    rw [Part.prmArrival_trk, Part.arrArrival_trk]
  unfold Part.openVisit
  split
  · next hopen =>
    simp only [Bool.and_eq_true, Bool.not_eq_true'] at hopen
    rw [Part.raiseArrival, Part.setVisit_deck_same (Part.hasDeck_of_unvisited (by rw [hraise]) h),
      Part.deck_congr hraise, hopen.1, ← hv]
    rfl
  · next hclosed =>
    have hsame : (p.doorsOpen c || (p.deck c d).opened) = (p.deck c d).opened := by
      cases hdoors : p.doorsOpen c <;> simp_all
    rw [hsame]

theorem Part.openVisit_deck_other (p : Part) (c f : Nat) {d d' : Nat} (h : d' ≠ d) :
    (p.openVisit c d' f).deck c d = p.deck c d := by
  unfold Part.openVisit
  split
  · rw [Part.raiseArrival, Part.setVisit_deck_other _ c h]
    exact Part.deck_congr (by rw [Part.prmArrival_trk, Part.arrArrival_trk]) c d
  · rfl

theorem Part.beginVisit_deck {p : Part} {c d : Nat} (h : p.hasDeck c d) (f : Nat) :
    (p.beginVisit c d f).deck c d =
      { p.deck c d with visit := some f, opened := decide ((p.deck c d).visit = some f) && (p.deck c d).opened } := by
  unfold Part.beginVisit
  split
  · next hv =>
    simp only [hv, decide_true, Bool.true_and]
    rw [← hv]
  · next hv =>
    rw [Part.setVisit_deck_same (Part.hasDeck_of_unvisited (p.endVisit_unvisited c d) h), Part.endVisit_deck h]
    simp only [hv, decide_false, Bool.false_and]
    unfold Deck.departed
    split <;> rfl

/-- Step 5 for one deck (R32 to R34). -/
theorem Part.updateVisit_deck {p : Part} {c d : Nat} (h : p.hasDeck c d) :
    (p.updateVisit c d).deck c d = visitedDeck (p.doorsOpen c) (p.deck c d) := by
  have hstand (f : Nat) : ((p.beginVisit c d f).openVisit c d f).deck c d = (p.deck c d).standing f (p.doorsOpen c) := by
    have hbegun := Part.beginVisit_deck h f
    rw [Part.openVisit_deck (Part.hasDeck_of_unvisited (p.beginVisit_unvisited c d f) h) (by rw [hbegun]), hbegun,
      Part.doorsOpen_of_unvisited (p.beginVisit_unvisited c d f)]
    rfl
  unfold Part.updateVisit visitedDeck
  cases (p.deck c d).state with
  | atFloor =>
    cases (p.deck c d).accepted with
    | none => rfl
    | some f => exact hstand f
  | moving | express => exact Part.endVisit_deck h
  | between | stale | unknown => rfl

theorem Part.updateVisit_deck_other (p : Part) (c : Nat) {d d' : Nat} (h : d' ≠ d) :
    (p.updateVisit c d').deck c d = p.deck c d := by
  unfold Part.updateVisit
  split
  · rw [Part.openVisit_deck_other _ c _ h, Part.beginVisit]
    split
    · rfl
    · rw [Part.setVisit_deck_other _ c h, Part.endVisit_deck_other _ c h]
  · rfl
  · exact p.endVisit_deck_other c h
  · exact p.endVisit_deck_other c h
  all_goals rfl


/-! ### The evaluation, seen from one deck -/

theorem trackCar_door (p : Part) (cfg : CarConfig) (c : Nat) (words : List Word) :
    (trackCar p cfg c words).door = (movedCar p c words).door := (congrArg Car.door (trackCar_undecked p cfg c words) :)

/-- Every deck of the car goes through step 5 once. -/
theorem Part.visits_deck {p : Part} {c d n : Nat} (h : p.hasDeck c d) (hd : d < n) :
    ((List.range n).foldl (fun q d => q.updateVisit c d) p).deck c d = visitedDeck (p.doorsOpen c) (p.deck c d) := by
  obtain ⟨q, hq, hvisited⟩ := foldl_visits_once (fun q : Part => (q.trk.map Car.unvisited, q.deck c d))
    (f := fun q d => q.updateVisit c d) (List.mem_range.mpr hd) List.nodup_range
    (fun d' _ hne q => Prod.ext (q.updateVisit_unvisited c d') (q.updateVisit_deck_other c hne)) p
  obtain ⟨hcars, hdeck⟩ := Prod.mk.inj hq
  rw [show ((List.range n).foldl _ p).deck c d = (q.updateVisit c d).deck c d from (Prod.mk.inj hvisited).2,
    Part.updateVisit_deck (Part.hasDeck_of_unvisited hcars h), Part.doorsOpen_of_unvisited hcars, hdeck]

/-- The doors the interpreted record gives. -/
def Car.opensDoors (x : Car) : Bool := x.door = .opening || x.door = .opened

theorem trackCar_decks_length (p : Part) (cfg : CarConfig) (c : Nat) (words : List Word) :
    (trackCar p cfg c words).decks.length = (p.car c).decks.length :=
  foldl_keeps (fun x : Car => x.decks.length) (f := trackDeck p cfg c) (fun _ _ => Car.setDeck_length ..) _ _

/-- Steps 4 and 5 of one deck (R23 to R34). -/
theorem Part.evaluateCar_deck {p : Part} {c d : Nat} {cfg : CarConfig} (h : p.hasDeck c d) (hd : d < cfg.decks)
    (words : List Word) :
    (p.evaluateCar c cfg words).deck c d =
      visitedDeck (movedCar p c words).opensDoors (trackedDeck p cfg c (movedCar p c words) d) := by
  obtain ⟨hc, hlength⟩ := h
  obtain ⟨q, hq, hvisits⟩ := p.evaluateCar_trk c cfg words
  have hcar : q.car c = trackCar p cfg c words := by
    rw [Part.car, hq, List.getD_eq_getElem?_getD, List.getElem?_set_self hc, Option.getD_some]
  have hq' : q.hasDeck c d := ⟨by rw [hq]; simpa using hc, by rw [hcar, trackCar_decks_length]; exact hlength⟩
  rw [Part.deck_congr hvisits, Part.visits_deck hq' hd, Part.doorsOpen, Part.deck, hcar, trackCar_deck p words hd hlength,
    trackCar_door, Car.opensDoors]

/-- Steps 1 to 3 of the car, which the decks and the visits leave. -/
theorem Part.evaluateCar_car {p : Part} {c : Nat} {cfg : CarConfig} (hc : c < p.trk.length) (words : List Word) :
    ((p.evaluateCar c cfg words).car c).undecked = (movedCar p c words).undecked := by
  have hcar := car_of_map_eq (p.evaluateCar_unvisited c cfg words) c
  rw [List.getD_eq_getElem?_getD (l := p.trk.set c _), List.getElem?_set_self hc, Option.getD_some] at hcar
  rw [← trackCar_undecked p cfg c words]
  exact (congrArg Car.undecked hcar :)


/-! ### The candidate by the motion (R24 to R26) -/

/-- Between the zones: the accepted floor, and without one the nearest floor, the lower at equal distance (R24). -/
theorem candidateFloor_between {p : Part} {cfg : CarConfig} {x : Nat}
    (h : ∀ k < p.floorCount, cfg.zone < distance x (p.level k)) (lead : Nat) (accepted : Option Nat) :
    candidateFloor p cfg .still lead x accepted = accepted.getD (nearestFloor p x) := by
  simp only [candidateFloor, floorNear_eq_none h]
  cases accepted <;> rfl

theorem candidateFloor_up (p : Part) (cfg : CarConfig) (lead x : Nat) (accepted : Option Nat) :
    ∃ reach, candidateFloor p cfg .movingUp lead x accepted = max reach (accepted.getD 0)
      ∧ (reach = 0 ∨ (reach < p.floorCount ∧ p.level reach ≤ x + lead + cfg.zone))
      ∧ ∀ k < p.floorCount, reach < k → x + lead + cfg.zone < p.level k := by
  obtain ⟨hreach, habove⟩ := floorBelow_spec p cfg.zone ((x : Int) + lead)
  refine ⟨_, rfl, hreach.imp id fun h => ⟨h.1, ?_⟩, fun k hk hlt => ?_⟩
  · have := h.2
    omega
  · have := habove k hk hlt
    omega

theorem candidateFloor_down (p : Part) (cfg : CarConfig) (lead x : Nat) (accepted : Option Nat) :
    ∃ reach, candidateFloor p cfg .movingDown lead x accepted = min reach (accepted.getD reach)
      ∧ (reach = p.floorCount - 1 ∨ (reach < p.floorCount ∧ x ≤ p.level reach + cfg.zone + lead))
      ∧ ∀ k < p.floorCount, k < reach → p.level k + cfg.zone + lead < x := by
  obtain ⟨hreach, hbelow⟩ := floorAbove_spec p cfg.zone ((x : Int) - lead)
  refine ⟨floorAbove p cfg.zone ((x : Int) - lead), ?_, hreach.imp id fun h => ⟨h.1, ?_⟩, fun k hk hlt => ?_⟩
  · cases accepted with
    | none => exact (Nat.min_self _).symm
    | some f => rfl
  · have := h.2
    omega
  · have := hbelow k hk hlt
    omega

/-! ### The visit by the indication (R32 to R34) -/

theorem visitedDeck_keeps (doors : Bool) (k : Deck) :
    (visitedDeck doors k).position = k.position ∧ (visitedDeck doors k).candidates = k.candidates
      ∧ (visitedDeck doors k).accepted = k.accepted ∧ (visitedDeck doors k).state = k.state := by
  unfold visitedDeck
  split
  · exact ⟨rfl, rfl, rfl, rfl⟩
  · unfold Deck.departed
    split <;> exact ⟨rfl, rfl, rfl, rfl⟩
  · unfold Deck.departed
    split <;> exact ⟨rfl, rfl, rfl, rfl⟩
  · exact ⟨rfl, rfl, rfl, rfl⟩

theorem visitedDeck_atFloor {k : Deck} {f : Nat} (hstate : k.state = .atFloor) (haccepted : k.accepted = some f)
    (doors : Bool) : visitedDeck doors k = k.standing f doors := by
  rw [visitedDeck, hstate, haccepted]

theorem visitedDeck_between {k : Deck} (hstate : k.state = .between) (doors : Bool) : visitedDeck doors k = k := by
  rw [visitedDeck, hstate]

theorem visitedDeck_moving {k : Deck} (hstate : k.state = .moving ∨ k.state = .express) (doors : Bool) :
    visitedDeck doors k = k.departed := by
  obtain hstate | hstate := hstate <;> rw [visitedDeck, hstate]

theorem Deck.departed_visit (k : Deck) :
    k.departed.visit = none ∧ (k.visit ≠ none → k.departed.opened = false) := by
  unfold Deck.departed
  split
  · next hv => exact ⟨hv, fun h => absurd hv h⟩
  · exact ⟨rfl, fun _ => rfl⟩

/-! ### O35 -/

theorem Part.hasDeck_of_shaped {p : Part} (h : p.shaped = true) {c d : Nat} (hc : c < Config.maxCars) (hd : d < 2) :
    p.hasDeck c d := by
  have hcars : p.trk.length = Config.maxCars ∧ ∀ x ∈ p.trk, x.decks.length = 2 := by
    simp only [Part.shaped, Bool.and_eq_true, decide_eq_true_eq, List.all_eq_true] at h
    tauto
  have hc' : c < p.trk.length := hcars.1 ▸ hc
  refine ⟨hc', ?_⟩
  have hcar : p.car c = p.trk[c] := by rw [Part.car, List.getD_eq_getElem _ _ hc']
  rw [hcar, hcars.2 _ (List.getElem_mem hc')]
  exact hd

/-- A car record of a configured slot goes to the evaluation (R14, R177). -/
theorem State.Takes.carRecord {s : State} {a : Addr} {data : Word} {be : BitVec 4} {c : Nat} {words : List Word}
    {cfg : CarConfig} (h : s.Takes a data be 0 c words) (hcfg : s.part.carConfig c = some cfg) :
    ∃ t x, exec (.carRecord a data be) s = .next t
      ∧ t.part.trk = ((s.part.onPath fun _ => x).evaluateCar c cfg words).trk := by
  obtain ⟨x, -, -, -, hwrite⟩ := h.hostWrite
  refine ⟨_, x, congrArg Host.Outcome.next hwrite, ?_⟩
  have hcfg' : (s.part.onPath fun _ => x).carConfig c = some cfg := hcfg
  show ((s.part.onPath fun _ => x).trkRecord c words).trk = _
  simp only [Part.trkRecord, hcfg']


/-- Settles O35: the evaluation of one deck is its tracking (`trackedDeck`) and then its visit (`visitedDeck`); the candidate
is read off by the motion, the visit by the indication. -/
theorem carRecordEvaluatesDecks : Obligations.CarRecordEvaluatesDecks := by
  intro s a data be c d words cfg old floors htakes hshaped hc hcfg hd hdecks hold hfloors
  subst hold hfloors
  obtain ⟨t, path, hexec, htrk⟩ := htakes.carRecord hcfg
  have hhas : (s.part.onPath fun _ => path).hasDeck c d := Part.hasDeck_of_shaped (p := s.part) hshaped hc (by omega)
  have hdeck := (Part.deck_congr htrk c d).trans (Part.evaluateCar_deck hhas hd words)
  have hcar : (t.part.car c).undecked = _ :=
    (congrArg Car.undecked (Part.car_congr htrk c)).trans (Part.evaluateCar_car hhas.1 words)
  generalize hm : movedCar (s.part.onPath fun _ => path) c words = m at hdeck hcar
  have hmotion : (t.part.car c).motion = m.motion := (congrArg Car.motion hcar :)
  have hlead : (t.part.car c).lead = m.lead := (congrArg Car.lead hcar :)
  have hdoor : (t.part.car c).door = m.door := (congrArg Car.door hcar :)
  have hposition : m.position.getD 0 + cfg.offset d
      = clampPosition (carPosition words) + (if d = 0 then 0 else cfg.spacing) := by rw [← hm]; rfl
  have hbefore : m.deck d = s.part.deck c d := by rw [← hm]; rfl
  have hdoors : m.opensDoors = ((t.part.car c).door = .opening || (t.part.car c).door = .opened) := by
    rw [hdoor, Car.opensDoors]
  generalize hx : m.position.getD 0 + cfg.offset d = x at *
  generalize hcandidate : candidateFloor s.part cfg m.motion m.lead x (s.part.deck c d).accepted = candidate
  generalize hhistory : pushHistory (s.part.deck c d).candidates candidate = history
  generalize haccepted : acceptFloor cfg.deglitch m.motion history (s.part.deck c d).accepted candidate = accepted
  have htracked : trackedDeck (s.part.onPath fun _ => path) cfg c m d =
      { position := x, candidates := history, accepted := some accepted
        state := indicationOf s.part cfg c d m.motion x accepted
        visit := (s.part.deck c d).visit, opened := (s.part.deck c d).opened } := by
    simp only [trackedDeck, deckAccepted, deckCandidate, hx, hbefore, ← haccepted, ← hhistory, ← hcandidate]
    rfl
  generalize hk : trackedDeck (s.part.onPath fun _ => path) cfg c m d = k at hdeck
  rw [hk] at htracked
  obtain ⟨hat, hcandidates, hfloor, hstate⟩ := visitedDeck_keeps m.opensDoors k
  rw [← hdeck, htracked] at hat hcandidates hfloor hstate
  refine ⟨t, x, candidate, accepted, hexec, hposition, hat, ?_, ?_, ?_, hcandidates.trans hhistory.symm, hfloor, ?_, ?_,
    ?_, ?_, ?_, ?_⟩
  · rw [hmotion]
    intro hstill
    rw [hstill] at hcandidate
    refine ⟨fun n hn hnear hbelow => ?_, fun hbetween => ?_⟩
    · rw [← hcandidate, candidateFloor_still_of_near hn hnear hbelow]
    · rw [candidateFloor_between hbetween] at hcandidate
      refine ⟨fun f hf => by rw [← hcandidate, hf]; rfl, fun hnone hfloors => ?_⟩
      rw [hnone] at hcandidate
      exact hcandidate ▸ nearestFloor_spec s.part x hfloors
  · rw [hmotion, hlead]
    intro hup
    rw [hup] at hcandidate
    exact hcandidate ▸ candidateFloor_up s.part cfg m.lead x _
  · rw [hmotion, hlead]
    intro hdown
    rw [hdown] at hcandidate
    exact hcandidate ▸ candidateFloor_down s.part cfg m.lead x _
  · rw [hmotion, ← haccepted]
    exact acceptFloor_at_once
  · rw [hmotion, hcandidates]
    intro f hf hstill
    rw [← haccepted, hf, hstill, acceptFloor_still]
  · rw [hmotion, hstate, hat, indicationOf_eq]
  · intro hatFloor
    rw [hdeck, visitedDeck_atFloor (f := accepted) (by rw [← hatFloor, hstate, htracked]) (by rw [htracked]), ← hdoors,
      htracked]
    exact ⟨rfl, rfl⟩
  · intro hbetween
    rw [hdeck, visitedDeck_between (by rw [← hbetween, hstate, htracked]), htracked]
    exact ⟨rfl, rfl⟩
  · intro hmoving
    have hvisit : k.visit = (s.part.deck c d).visit := by rw [htracked]
    rw [hdeck, visitedDeck_moving (by rwa [htracked, ← hstate]), ← hvisit]
    exact k.departed_visit

end Sys2Proof.Machine
end

section
/-! SUPPORT. The ledger: the cars, the live assignments but for their prompts and estimates, and what RPT holds but for
other counters. Estimates, lanterns, prompts and repaints leave it (R41 to R58, R66 to R70, R81, R119). -/

namespace Sys2Proof.Machine

/-- RPT's ring, its waiting reports and the counter of expired assignments. -/
structure Stock where
  area : Option Nat
  slots : List SlotState
  producer : Nat
  sequence : BitVec 16
  waiting : List Report
  counters : Nat
  expired : BitVec 16

def Rpt.stock (r : Rpt) : Stock where
  area := r.area
  slots := r.slots
  producer := r.producer
  sequence := r.sequence
  waiting := r.waiting
  counters := r.counters.length
  expired := r.counter .expired

/-- The cars, the entries without prompt and estimate, the marks of ARR and PRM, and RPT's stock. -/
structure Ledger where
  cars : List Car
  entries : List Assignment
  nextOrder : Nat
  withdrawn : List Bool
  dropReported : List Bool
  arrWithdrawn : List Bool
  stock : Stock

def Part.ledger (p : Part) : Ledger where
  cars := p.trk
  entries := p.prm.table.map (·.core)
  nextOrder := p.prm.nextOrder
  withdrawn := p.prm.withdrawn
  dropReported := p.prm.dropReported
  arrWithdrawn := p.arr.withdrawn
  stock := p.disp.rpt.stock

/-! ### RPT -/

theorem Rpt.count_stock (r : Rpt) {c : CounterId} (h : c ≠ .expired) (n : Nat) : (r.count c n).stock = r.stock := by
  have hring := r.count_keeps (fun r => (r.area, r.slots, r.producer, r.sequence, r.waiting)) (fun _ _ _ => rfl) c n
  have hlength : (r.count c n).counters.length = r.counters.length := by simp [Rpt.count]
  simp only [Prod.mk.injEq] at hring
  simp only [Rpt.stock, hring, hlength, Rpt.counter_count_of_ne r (Ne.symm h)]

@[simp] theorem Rpt.status_stock (r : Rpt) (i : Nat) (f : List Word) : (r.status i f).stock = r.stock := rfl

theorem Part.onRpt_ledger (p : Part) {f : Rpt → Rpt} (h : (f p.disp.rpt).stock = p.disp.rpt.stock) :
    (p.onRpt f).ledger = p.ledger := by
  simp only [Part.ledger, Part.onRpt_disp, h]
  rfl

theorem Part.count_ledger (p : Part) {c : CounterId} (h : c ≠ .expired) (n : Nat) : (p.count c n).ledger = p.ledger :=
  p.onRpt_ledger (Rpt.count_stock _ h n)

theorem Part.status_ledger (p : Part) (i : Nat) (f : List Word) : (p.status i f).ledger = p.ledger := rfl

/-! ### CMP -/

theorem Disp.request_rpt (d : Disp) (ring position : Nat) (e : QueueEntry) : (d.request ring position e).rpt = d.rpt := by
  unfold Disp.request
  split
  · rfl
  · split <;> rfl

theorem recompose_stock (p : Part) (d : Disp) (j : Nat) (r : Region) (mode : RecomposeMode) :
    (recompose p d j r mode).rpt.stock = d.rpt.stock := by
  unfold recompose
  split
  · next n x _ _ =>
    generalize (if isMessageRegion r then rotate p n x else x) = x1
    simp only
    split
    · split
      · rw [Disp.request_rpt]
        exact Rpt.count_stock _ (c := .substitution) nofun _
      · rfl
    · rfl
  · rfl

theorem recomposeAll_stock (p : Part) (d : Disp) (l : List Target) : (recomposeAll p d l).rpt.stock = d.rpt.stock :=
  foldl_keeps (fun d : Disp => d.rpt.stock) (f := fun d (t : Target) => recompose p d t.1 t.2.1 t.2.2)
    (fun d t => recompose_stock p d t.1 t.2.1 t.2.2) l d

theorem Part.recomposeFor_ledger (p : Part) (f : Nat → NodeConfig → List Region) : (p.recomposeFor f).ledger = p.ledger := by
  show ({ p.ledger with stock := (recomposeAll p p.disp (targetsOf p f)).rpt.stock } : Ledger) = p.ledger
  rw [recomposeAll_stock]
  rfl

theorem Part.cmpLanternChange_ledger (p : Part) (c d f k : Nat) : (p.cmpLanternChange c d f k).ledger = p.ledger := by
  show ({ p.ledger with stock := (recomposeAll p p.disp _).rpt.stock } : Ledger) = p.ledger
  rw [recomposeAll_stock]
  rfl

theorem Part.cmpDeckChange_ledger (p : Part) (c d : Nat) : (p.cmpDeckChange c d).ledger = p.ledger := p.recomposeFor_ledger _

theorem Part.cmpHeadChange_ledger (p : Part) (t : Nat) : (p.cmpHeadChange t).ledger = p.ledger := p.recomposeFor_ledger _

theorem Part.cmpTripNotice_ledger (p : Part) (c d f : Nat) : (p.cmpTripNotice c d f).ledger = p.ledger :=
  p.recomposeFor_ledger _

theorem Part.cmpEstimateChange_ledger (p : Part) (n : Nat) : (p.cmpEstimateChange n).ledger = p.ledger := by
  unfold Part.cmpEstimateChange
  split
  · rfl
  · split
    · exact p.cmpHeadChange_ledger _
    · rfl

/-! ### ARR -/

theorem Part.onlyArr_ledger {p q : Part} (h : q.ledger = p.ledger) : (p.onlyArr q).ledger = p.ledger := by
  show ({ q.ledger with cars := p.trk } : Ledger) = p.ledger
  rw [h]
  rfl

/-- A change of an entry's prompt, deadline or estimate. -/
theorem Part.setAssignment_ledger (p : Part) (n : Nat) {f : Assignment → Assignment} (h : ∀ a, (f a).core = a.core) :
    (p.setAssignment n f).ledger = p.ledger := by
  have hentries : (p.setAssignment n f).prm.table.map (·.core) = p.prm.table.map (·.core) := by
    simp only [Part.setAssignment, List.map_map]
    refine List.map_congr_left fun a _ => ?_
    simp only [Function.comp_apply]
    split
    · exact h a
    · rfl
  show ({ p.ledger with entries := (p.setAssignment n f).prm.table.map (·.core) } : Ledger) = p.ledger
  rw [hentries]
  rfl

theorem Part.setHeld_ledger (p : Part) (n : Nat) (old : Option Estimate) (new : Estimate) :
    (p.setHeld n old new).ledger = p.ledger := by
  have hset := p.setAssignment_ledger n (f := fun a => { a with estimate := some new }) fun _ => rfl
  unfold Part.setHeld
  simp only
  split
  · exact hset
  · exact (Part.cmpEstimateChange_ledger _ n).trans hset

theorem Part.promptEstimate_ledger (p : Part) (n : Nat) (fresh : Bool) : (p.promptEstimate n fresh).ledger = p.ledger := by
  refine Part.onlyArr_ledger ?_
  split
  · rfl
  · split
    · rfl
    · simp only
      split
      · exact (Part.setHeld_ledger _ n _ _).trans (p.count_ledger (c := .estimateClamp) nofun 1)
      · exact p.setHeld_ledger n _ _

theorem Part.promptEnded_ledger (p : Part) (n : Nat) : (p.promptEnded n).ledger = p.ledger :=
  Part.onlyArr_ledger (p.setAssignment_ledger n fun _ => rfl)

theorem Part.changeLantern_ledger (p : Part) (i : Nat) (l : Lantern) (chime : Nat) :
    (p.changeLantern i l chime).ledger = p.ledger := Part.cmpLanternChange_ledger (p.setLantern i l) ..

theorem Part.lanternDarken_ledger (p : Part) (i : Nat) : (p.lanternDarken i).ledger = p.ledger := by
  unfold Part.lanternDarken
  split
  · rfl
  · simp only
    split
    · exact p.changeLantern_ledger i _ 0
    · rfl

theorem Part.lanternTurn_ledger (p : Part) (i : Nat) : (p.lanternTurn i).ledger = p.ledger := by
  unfold Part.lanternTurn
  split
  · rfl
  · split
    · exact p.changeLantern_ledger i _ 0
    · rfl

theorem Part.lanternLight_ledger (p : Part) (i : Nat) : (p.lanternLight i).ledger = p.ledger := by
  unfold Part.lanternLight
  split
  · rfl
  · split
    · rfl
    · split
      · split
        · exact p.changeLantern_ledger i _ _
        · split
          · exact p.changeLantern_ledger i _ _
          · rfl
      · rfl

theorem Part.lanternConsumer_ledger (p : Part) (c d : Nat) : (p.lanternConsumer c d).ledger = p.ledger := by
  unfold Part.lanternConsumer
  split
  · rfl
  · simp only
    split
    · exact p.count_ledger (c := .estimateClamp) nofun 1
    · rfl

theorem Part.evaluateDeckLanterns_ledger (p : Part) (c d : Nat) : (p.evaluateDeckLanterns c d).ledger = p.ledger :=
  (foldl_keeps Part.ledger (fun q i => (Part.lanternLight_ledger _ i).trans
    ((Part.lanternTurn_ledger _ i).trans (q.lanternDarken_ledger i))) _ _).trans (p.lanternConsumer_ledger c d)

theorem Part.arrEvaluation_ledger (p : Part) (c : Nat) : (p.arrEvaluation c).ledger = p.ledger :=
  Part.onlyArr_ledger <| (foldl_keeps Part.ledger (fun q n => q.promptEstimate_ledger n false) _ _).trans <|
    foldl_keeps Part.ledger (fun q d => q.evaluateDeckLanterns_ledger c d) _ p

theorem Part.arrArrival_ledger (p : Part) (c d f : Nat) : (p.arrArrival c d f).ledger = p.ledger := by
  refine Part.onlyArr_ledger (foldl_keeps Part.ledger (fun q i => ?_) _ p)
  split
  · rfl
  · simp only
    split
    · split
      · exact q.changeLantern_ledger i _ _
      · rfl
    · exact q.changeLantern_ledger i _ _
    · rfl

theorem Part.arrDeparture_ledger (p : Part) (c d f : Nat) : (p.arrDeparture c d f).ledger = p.ledger := by
  refine Part.onlyArr_ledger (foldl_keeps Part.ledger (fun q i => ?_) _ p)
  split
  · rfl
  · simp only
    split
    · rfl
    · exact q.changeLantern_ledger i _ _

/-- One lantern of a withdrawn car (R50). -/
def Part.withdrawLantern (q : Part) (i : Nat) : Part :=
  match q.arr.lanterns[i]? with
  | none => q
  | some l =>
    if l.state = .dark then q.setLantern i { l with estimate := .none }
    else q.changeLantern i ({ l with estimate := .none } : Lantern).darkened 0

/-- ARR's mark and lanterns of a withdrawn car (R50). -/
def Part.withdrawLanterns (p : Part) (c : Nat) : Part :=
  (p.lanternsOf c 0 ++ p.lanternsOf c 1).foldl Part.withdrawLantern
    { p with arr := { p.arr with withdrawn := p.arr.withdrawn.set c true } }

theorem Part.arrWithdraw_eq (p : Part) (c : Nat) :
    p.arrWithdraw c = p.onlyArr
      (((p.withdrawLanterns c).prm.table.filter fun a => a.car = c && a.prompt ≠ .none).foldl
        (fun q a => q.setHeld a.number a.estimate .none) (p.withdrawLanterns c)) := rfl

theorem Part.withdrawLantern_ledger (q : Part) (i : Nat) : (q.withdrawLantern i).ledger = q.ledger := by
  unfold Part.withdrawLantern
  split
  · rfl
  · split
    · rfl
    · exact q.changeLantern_ledger i _ _

theorem Part.withdrawLanterns_ledger (p : Part) (c : Nat) :
    (p.withdrawLanterns c).ledger = { p.ledger with arrWithdrawn := p.arr.withdrawn.set c true } :=
  foldl_keeps Part.ledger (fun q i => q.withdrawLantern_ledger i) _ _

/-- A withdrawal changes ARR's mark of the car (R50). -/
theorem Part.arrWithdraw_ledger (p : Part) (c : Nat) :
    (p.arrWithdraw c).ledger = { p.ledger with arrWithdrawn := p.arr.withdrawn.set c true } := by
  have held := (foldl_keeps Part.ledger (fun q (a : Assignment) => q.setHeld_ledger a.number a.estimate .none)
    ((p.withdrawLanterns c).prm.table.filter fun a => a.car = c && a.prompt ≠ .none) (p.withdrawLanterns c)).trans
    (p.withdrawLanterns_ledger c)
  rw [Part.arrWithdraw_eq]
  exact congrArg (fun l : Ledger => { l with cars := p.trk }) held

/-! ### PRM -/

theorem Part.onlyPrm_ledger {p q : Part} {l : Ledger} (h : q.ledger = l) (htrk : l.cars = p.trk)
    (harr : l.arrWithdrawn = p.arr.withdrawn) : (p.onlyPrm q).ledger = l := by
  subst h
  show ({ q.ledger with cars := p.trk, arrWithdrawn := p.arr.withdrawn } : Ledger) = q.ledger
  rw [← htrk, ← harr]

theorem Part.becomeHead_ledger (p : Part) (t : Nat) : (p.becomeHead t).ledger = p.ledger := by
  unfold Part.becomeHead
  split
  · exact p.cmpHeadChange_ledger t
  · split
    · rfl
    · split
      · exact (Part.cmpHeadChange_ledger _ t).trans (p.setAssignment_ledger _ fun _ => rfl)
      · rfl

theorem Part.endShowing_ledger (p : Part) (t : Nat) : (p.endShowing t).ledger = p.ledger := by
  unfold Part.endShowing
  split
  · rfl
  · exact (Part.promptEnded_ledger _ _).trans (p.setAssignment_ledger _ fun _ => rfl)

/-- A full queue loses its head (R68). -/
def Part.madeRoom (p : Part) (t : Nat) : Part :=
  if decide (Config.queueLimit ≤ (p.queueOf t).length) then p.endShowing t else p

/-- An entry is QUEUED in its terminal's queue (R67). -/
def Part.queued (p : Part) (n t : Nat) (refs : List Nat) : Part :=
  (p.setQueue t refs).setAssignment n fun x => { x with prompt := .queued }

/-- A live entry in its terminal's queue, its head not chosen yet (R67, R68). -/
def Part.inQueue (p : Part) (n t : Nat) (stepFree : Bool) : Part :=
  ((p.madeRoom t).queued n t ((p.madeRoom t).joined ((p.madeRoom t).queueOf t) n stepFree)).promptEstimate n true

theorem Part.enterQueue_eq (p : Part) (n t : Nat) (stepFree : Bool) :
    p.enterQueue n t stepFree =
      if decide (Config.queueLimit ≤ (p.queueOf t).length) || decide ((p.madeRoom t).queueOf t = []) then
        (p.inQueue n t stepFree).becomeHead t
      else p.inQueue n t stepFree := rfl

theorem Part.madeRoom_ledger (p : Part) (t : Nat) : (p.madeRoom t).ledger = p.ledger := by
  unfold Part.madeRoom
  split
  · exact p.endShowing_ledger t
  · rfl

theorem Part.queued_ledger (p : Part) (n t : Nat) (refs : List Nat) : (p.queued n t refs).ledger = p.ledger :=
  (p.setQueue t refs).setAssignment_ledger n (f := fun x => { x with prompt := .queued }) fun _ => rfl

theorem Part.inQueue_ledger (p : Part) (n t : Nat) (stepFree : Bool) : (p.inQueue n t stepFree).ledger = p.ledger :=
  (Part.promptEstimate_ledger _ n true).trans ((Part.queued_ledger _ n t _).trans (p.madeRoom_ledger t))

theorem Part.enterQueue_ledger (p : Part) (n t : Nat) (stepFree : Bool) : (p.enterQueue n t stepFree).ledger = p.ledger := by
  rw [Part.enterQueue_eq]
  split
  · exact (Part.becomeHead_ledger _ t).trans (p.inQueue_ledger n t stepFree)
  · exact p.inQueue_ledger n t stepFree

theorem Part.tripNotices_ledger (p before : Part) (keys : List TripKey) : (p.tripNotices before keys).ledger = p.ledger :=
  foldl_keeps Part.ledger (f := fun q (k : TripKey) => q.cmpTripNotice k.1 k.2.1 k.2.2)
    (fun q k => q.cmpTripNotice_ledger k.1 k.2.1 k.2.2) _ p

/-- The entries and references that `gone` names are struck out (R72). -/
def Part.struck (p : Part) (gone : Assignment → Bool) : Part :=
  { p with prm := { p.prm with
      table := p.prm.table.filter fun a => !gone a
      queues := p.prm.queues.map fun q =>
        { q with refs := q.refs.filter fun n => !((p.prm.table.filter gone).map (·.number)).contains n } } }

/-- The terminals whose head `gone` names (R72). -/
def Part.headless (p : Part) (gone : Assignment → Bool) : List Nat :=
  (p.prm.queues.filter fun q =>
    match q.refs with
    | [] => false
    | n :: _ => ((p.prm.table.filter gone).map (·.number)).contains n).map (·.terminal)

theorem Part.removeEntries_eq (p : Part) (gone : Assignment → Bool) :
    p.removeEntries gone =
      p.onlyPrm (((p.headless gone).foldl (fun q t => q.becomeHead t) (p.struck gone)).tripNotices p
        (uniqueKeys ((p.prm.table.filter gone).map (·.tripKey)))) := rfl

/-- A removal takes the named entries out (R72). -/
theorem Part.removeEntries_ledger (p : Part) (gone : Assignment → Bool) :
    (p.removeEntries gone).ledger
      = { p.ledger with entries := (p.prm.table.filter fun a => !gone a).map (·.core) } := by
  have hstruck : (p.struck gone).ledger
      = { p.ledger with entries := (p.prm.table.filter fun a => !gone a).map (·.core) } := rfl
  rw [Part.removeEntries_eq]
  exact Part.onlyPrm_ledger ((Part.tripNotices_ledger ..).trans
    ((foldl_keeps Part.ledger (fun q t => q.becomeHead_ledger t) _ _).trans hstruck)) rfl rfl

/-- The entry a NEW makes (R61, R65). -/
def Part.newEntry (p : Part) (order number terminal boarding destination car deck : Nat) (stepFree : Bool) : Assignment where
  number := number
  order := order
  terminal := terminal
  boarding := boarding
  destination := destination
  car := car
  deck := deck
  stepFree := stepFree
  created := p.now
  isBoarding := p.standsOpenAt car deck boarding
  prompt := .none
  deadline := none
  estimate := none

/-- The table with one more entry. -/
def Part.withEntry (p : Part) (a : Assignment) : Part := { p with prm := { p.prm with table := p.prm.table ++ [a] } }

theorem Part.createEntry_eq (p : Part) (order number terminal boarding destination car deck : Nat) (stepFree : Bool) :
    p.createEntry order number terminal boarding destination car deck stepFree =
      p.onlyPrm (((p.withEntry (p.newEntry order number terminal boarding destination car deck stepFree)).enterQueue
        number terminal stepFree).tripNotices p
        [(p.newEntry order number terminal boarding destination car deck stepFree).tripKey]) := rfl

/-- A creation adds one entry (R65). -/
theorem Part.createEntry_ledger (p : Part) (order number terminal boarding destination car deck : Nat) (stepFree : Bool) :
    (p.createEntry order number terminal boarding destination car deck stepFree).ledger
      = (p.withEntry (p.newEntry order number terminal boarding destination car deck stepFree)).ledger := by
  rw [Part.createEntry_eq]
  exact Part.onlyPrm_ledger ((Part.tripNotices_ledger ..).trans (Part.enterQueue_ledger ..)) rfl rfl

/-- The entry of an assignment under another car or deck (R74). -/
def Part.moved (p : Part) (a : Assignment) (car deck : Nat) : Part :=
  p.setAssignment a.number fun x => { x with car := car, deck := deck, isBoarding := p.standsOpenAt car deck a.boarding }

/-- The same, its estimate made anew while it is QUEUED or SHOWING (R74). -/
def Part.movedAnew (p : Part) (a : Assignment) (car deck : Nat) : Part :=
  if a.prompt = .none then p.moved a car deck else (p.moved a car deck).promptEstimate a.number true

theorem Part.reassign_eq (p : Part) (a : Assignment) (car deck : Nat) :
    p.reassign a car deck =
      p.onlyPrm ((if a.prompt = .showing then (p.movedAnew a car deck).cmpHeadChange a.terminal
        else p.movedAnew a car deck).tripNotices p [a.tripKey, (car, deck, a.boarding)]) := rfl

theorem Part.movedAnew_ledger (p : Part) (a : Assignment) (car deck : Nat) :
    (p.movedAnew a car deck).ledger = (p.moved a car deck).ledger := by
  unfold Part.movedAnew
  split
  · rfl
  · exact Part.promptEstimate_ledger ..

/-- A REASSIGN moves one entry (R74). -/
theorem Part.reassign_ledger (p : Part) (a : Assignment) (car deck : Nat) :
    (p.reassign a car deck).ledger = (p.moved a car deck).ledger := by
  have handed : (if a.prompt = .showing then (p.movedAnew a car deck).cmpHeadChange a.terminal
      else p.movedAnew a car deck).ledger = (p.moved a car deck).ledger := by
    split
    · exact (Part.cmpHeadChange_ledger ..).trans (p.movedAnew_ledger a car deck)
    · exact p.movedAnew_ledger a car deck
  rw [Part.reassign_eq]
  exact Part.onlyPrm_ledger ((Part.tripNotices_ledger ..).trans handed) rfl rfl

end Sys2Proof.Machine
end

section
/-! SUPPORT. Step invariants: a property of the part that PATH and RPT do not enter is kept by every step when each record,
event, request and acceptance keeps it. -/

namespace Sys2Proof.Machine

/-- What has to be shown of a property of the part for every step to keep it. -/
structure StepInvariant (I : Part → Prop) : Prop where
  reset : ∀ anchor lines, I (Part.reset anchor lines)
  hostData : ∀ p w, I p → I { p with hostData := w }
  tick : ∀ p, I p → I p.tick
  onPath : ∀ p f, I p → I (p.onPath f)
  onRpt : ∀ p f, I p → I (p.onRpt f)
  txfPump : ∀ p, I p → I p.txfPump
  textWrite : ∀ p a, I p → I (p.textWrite a)
  textData : ∀ p w, I p → I (p.textData w)
  statistics : ∀ p, I p → I { p with disp := clearStatistics p.disp }
  repaint : ∀ p, I p → I { p with disp := repaintIn p p.disp }
  clearLatch : ∀ p k, I p → I (p.clearLatch k)
  handRecord : ∀ p k slot words, I p → I (p.handRecord k slot words)
  acceptFull : ∀ p t, I p → I (p.acceptFull t)
  acceptParams : ∀ p t, I p → I (p.acceptParams t)
  event : ∀ {f} (p), PartEvent f → I p → I (f p)

section
variable {I : Part → Prop} (hI : StepInvariant I)
include hI

/-! ### Watching a host access -/

theorem StepInvariant.settle {p : Part} (h : I p) : I p.settle := by
  unfold Part.settle Part.joinOwn
  exact hI.onPath _ _ (hI.onRpt _ _ (hI.txfPump p h))

omit hI in
theorem StepInvariant.foldl {β : Type} {f : Part → β → Part} (hf : ∀ q x, I q → I (f q x)) (l : List β) {p : Part}
    (h : I p) : I (l.foldl f p) := by
  induction l generalizing p with
  | nil => exact h
  | cons x l ih => exact ih (hf p x h)

theorem StepInvariant.request {p : Part} (h : I p) (bit : Nat) : I (p.request bit) := by
  unfold Part.request
  split
  · exact hI.onRpt p _ h
  · exact hI.statistics p h
  · exact hI.repaint p h
  · exact hI.clearLatch p _ h

theorem StepInvariant.serviceWrite {p : Part} (h : I p) (value : Word) : I (p.serviceWrite value) := by
  have served : ∀ q bit, I q → I (Part.serveRequest q bit) := by
    intro q bit hq
    unfold Part.serveRequest
    split
    · exact hq
    · exact hI.onRpt _ _ (hI.request (hI.onRpt q _ hq) bit)
  unfold Part.serviceWrite
  simp only
  split
  · exact h
  · exact hI.onRpt _ _ (StepInvariant.foldl served _ h)

theorem StepInvariant.judge {p : Part} (h : I p) (v : Word) : I (p.judge v) := by
  have started : ∀ k, I (p.startTake k) := by
    intro k
    unfold Part.startTake
    split
    · exact h
    · exact hI.onPath p _ h
    · exact hI.onPath p _ h
  unfold Part.judge
  split
  · exact started _
  · split
    · exact started _
    · exact h

theorem StepInvariant.writeTakeWord {p : Part} (h : I p) (data : Word) (be : BitVec 4) : I (p.writeTakeWord data be) := by
  unfold Part.writeTakeWord
  split
  · exact hI.onPath p _ h
  · simp only [Part.takeWordWrite]
    split
    · exact hI.judge (hI.onPath p _ h) _
    · exact hI.onPath _ _ (hI.onPath p _ h)

theorem StepInvariant.anchorWrite {p : Part} (h : I p) (a : Nat) (data : Word) (be : BitVec 4) :
    I (p.anchorWrite a data be) := by
  have asked : I (if a = p.path.takeAddress then p.writeTakeWord data be
      else if a = p.path.serviceAddress then p.serviceWrite (enabledBits data be) else p) := by
    split
    · exact hI.writeTakeWord h data be
    · split
      · exact hI.serviceWrite h _
      · exact h
  simp only [Part.anchorWrite]
  split
  · exact hI.onPath _ _ asked
  · exact asked

theorem StepInvariant.capture {p : Part} (h : I p) (k i : Nat) (data : Word) (be : BitVec 4) :
    I (p.capture k i data be) := by
  have merged := hI.onPath p (·.mergeMirror k i data be) h
  simp only [Part.capture, Part.closeRecord]
  split
  · split
    · exact hI.onRpt _ _ merged
    · exact hI.handRecord _ _ _ _ (hI.onPath _ _ merged)
  · exact merged

theorem StepInvariant.watchWrite {p : Part} (h : I p) (a : Nat) (data : Word) (be : BitVec 4) :
    I (p.watchWrite a data be) := by
  have merged := hI.onPath p (·.mergeTake a data be) h
  simp only [Part.watchWrite]
  split
  · exact hI.anchorWrite merged a data be
  · split
    · exact hI.capture merged _ _ data be
    · split
      · exact hI.textWrite _ a merged
      · exact merged

theorem StepInvariant.watchRead {p : Part} (h : I p) (a : Nat) (v : Word) : I (p.watchRead a v) := by
  have learned : I (if a = p.path.takeAddress then p.learn (some v) else p) := by
    split
    · exact hI.onPath p _ h
    · exact h
  unfold Part.watchRead
  simp only
  split
  · exact learned
  · exact hI.onRpt _ _ learned

/-! ### Own accesses -/

theorem StepInvariant.finishTake {p : Part} (h : I p) (t : Take) (result : Failure) : I (p.finishTake t result) := by
  unfold Part.finishTake
  split
  · split
    · exact hI.acceptFull p t h
    · exact hI.acceptParams p t h
  · unfold Part.refuseTake Part.report
    exact hI.onRpt _ _ (hI.onPath p (fun x => { x with state := x.state.afterTake, take := none }) h)

theorem StepInvariant.readTake {s : State} (h : I s.part) : I s.readTake.part := by
  unfold State.readTake
  split
  · exact h
  · split
    · exact h
    · simp only [State.onPart_part]
      refine hI.onPath _ _ ?_
      split
      · exact hI.onPath _ _ h
      · exact h

theorem StepInvariant.writeTakeResult {s : State} (h : I s.part) : I s.writeTakeResult.part := by
  unfold State.writeTakeResult
  split
  · exact h
  · split
    · exact h
    · exact hI.finishTake (hI.onPath _ _ h) _ _

theorem StepInvariant.performOwn {s : State} (h : I s.part) (k : OwnKind) : I (s.performOwn k).part := by
  have left : I (s.onPart fun p => p.onPath (·.leave k)).part := hI.onPath s.part (·.leave k) h
  refine hI.settle ?_
  generalize s.onPart (fun p => p.onPath (·.leave k)) = s1 at left
  cases k with
  | takeWord => exact hI.judge (hI.onPath _ _ (hI.onPath _ _ left)) _
  | takeRead => exact hI.readTake left
  | takeResult => exact hI.writeTakeResult left
  | report =>
    show I s1.writeReport.part
    rw [State.writeReport_part]
    exact hI.onRpt _ _ left
  | text =>
    show I s1.readText.part
    unfold State.readText
    split
    · exact left
    · exact hI.textData _ _ left

theorem StepInvariant.release {s : State} (h : I s.part) : I s.release.part := by
  have cleared : ∀ {s : State}, I s.part → I s.clearResult.part := by
    intro s h
    unfold State.clearResult
    split
    · exact hI.performOwn h _
    · exact h
  unfold State.release
  simp only
  split
  · exact cleared h
  · exact cleared (hI.performOwn (cleared h) _)

/-! ### Commands and steps -/

theorem StepInvariant.command {s t : State} (hstep : CommandStep s t) (h : I s.part) : I t.part := by
  cases hstep with
  | write a data be => exact hI.settle (hI.watchWrite (hI.onPath _ (·.passOver) (hI.release h)) a.toNat data be)
  | read a =>
    exact hI.settle (hI.watchRead (hI.hostData _ _ (hI.onPath _ (·.passOver) (hI.release h))) a.toNat _)
  | own k =>
    unfold State.ownTurn
    split
    · exact hI.performOwn h k
    · exact h
  | event hf => exact hI.settle (hI.event s.part hf h)
  | idle => exact h

/-- Every step keeps the property. -/
theorem StepInvariant.step {s t : State} (hstep : Machine.step s = .next t) (h : I s.part) : I t.part := by
  obtain ⟨c, s', hpart, hexec⟩ | htick := step_cases hstep
  · rw [← hpart] at h
    obtain ⟨anchor, passed, -, rfl⟩ | hcommand := exec_cases hexec
    · exact hI.hostData _ _ (hI.reset anchor s'.part.lines)
    · exact hI.command hcommand h
  · rw [htick]
    exact hI.tick _ h

end

end Sys2Proof.Machine
end

section
/-! SUPPORT and PROOFS. Withdrawn cars (R35, R74, R75): which operations leave the service modes and the withdrawn marks and
bring no new car into the table, and the step lemma of the law. -/

namespace Sys2Proof.Machine

/-! ### Modes, marks and booked cars -/

/-- The service modes of the cars. -/
def Part.modes (p : Part) : List ServiceMode := p.trk.map (·.mode)

/-- The cars of the live assignments. -/
def Part.booked (p : Part) : List Nat := p.prm.table.map (·.car)

theorem Part.car_mode (p : Part) (c : Nat) : (p.car c).mode = p.modes.getD c .normal := by
  simp only [Part.car, Part.modes, List.getD_eq_getElem?_getD, List.getElem?_map]
  cases p.trk[c]? <;> rfl

/-- The law, said of modes, marks and booked cars. -/
theorem Part.withdrawnLaw_iff (p : Part) :
    p.withdrawnLaw ↔ p.modes.length = Config.maxCars ∧ p.prm.withdrawn.length = Config.maxCars
      ∧ (∀ c < Config.maxCars, p.prm.withdrawn.getD c false = (p.modes.getD c .normal).withdrawn)
      ∧ ∀ c ∈ p.booked, p.modes.getD c .normal = .normal := by
  simp only [Part.withdrawnLaw, Part.car_mode, Part.booked, List.forall_mem_map]
  simp only [Part.modes, List.length_map]

/-- `q` has `p`'s service modes and withdrawn marks, and no car is booked anew. -/
def Part.KeepsCars (p q : Part) : Prop :=
  q.modes = p.modes ∧ q.prm.withdrawn = p.prm.withdrawn ∧ ∀ c ∈ q.booked, c ∈ p.booked

theorem Part.KeepsCars.refl (p : Part) : p.KeepsCars p := ⟨rfl, rfl, fun _ => id⟩

theorem Part.KeepsCars.trans {p q r : Part} (h : p.KeepsCars q) (h' : q.KeepsCars r) : p.KeepsCars r :=
  ⟨h'.1.trans h.1, h'.2.1.trans h.2.1, fun c hc => h.2.2 c (h'.2.2 c hc)⟩

theorem Part.KeepsCars.foldl {β : Type} {f : Part → β → Part} (h : ∀ (q : Part) (x : β), q.KeepsCars (f q x)) (l : List β)
    (p : Part) : p.KeepsCars (l.foldl f p) := by
  induction l generalizing p with
  | nil => exact .refl p
  | cons x l ih => exact (h p x).trans (ih _)

theorem Part.KeepsCars.ite {p q r : Part} {c : Prop} [Decidable c] (hq : p.KeepsCars q) (hr : p.KeepsCars r) :
    p.KeepsCars (if c then q else r) := by
  split
  · exact hq
  · exact hr

/-- An operation outside TRK and PRM. -/
theorem Part.KeepsCars.of_same {p q : Part} (htrk : q.trk = p.trk) (hprm : q.prm = p.prm) : p.KeepsCars q := by
  unfold Part.KeepsCars Part.booked Part.modes
  rw [htrk, hprm]
  exact ⟨rfl, rfl, fun _ => id⟩

theorem Part.booked_eq (p : Part) : p.booked = p.ledger.entries.map (·.car) := by
  simp only [Part.booked, Part.ledger, List.map_map]
  rfl

/-- An operation whose ledger has the cars and marks of another and no new entry. -/
theorem Part.KeepsCars.of_ledger {p q : Part} {l : List Assignment} (h : q.ledger = { p.ledger with entries := l })
    (hl : ∀ a ∈ l, a.car ∈ p.booked) : p.KeepsCars q := by
  refine ⟨congrArg (List.map Car.mode) (congrArg Ledger.cars h :), (congrArg Ledger.withdrawn h :), fun c hc => ?_⟩
  rw [Part.booked_eq, h] at hc
  obtain ⟨a, ha, rfl⟩ := List.mem_map.mp hc
  exact hl a ha

theorem Part.KeepsCars.of_ledger_same {p q : Part} (h : q.ledger = p.ledger) : p.KeepsCars q :=
  .of_ledger (l := p.ledger.entries) (h.trans rfl) fun _ ha => p.booked_eq ▸ List.mem_map_of_mem ha

theorem Part.KeepsCars.law {p q : Part} (h : p.KeepsCars q) (hp : p.withdrawnLaw) : q.withdrawnLaw := by
  obtain ⟨hmodes, hmarks, hbooked⟩ := h
  rw [Part.withdrawnLaw_iff] at hp ⊢
  rw [hmodes, hmarks]
  exact ⟨hp.1, hp.2.1, hp.2.2.1, fun c hc => hp.2.2.2 c (hbooked c hc)⟩

/-! ### PRM -/

theorem Part.removeEntries_keepsCars (p : Part) (gone : Assignment → Bool) : p.KeepsCars (p.removeEntries gone) := by
  refine .of_ledger (p.removeEntries_ledger gone) fun a ha => ?_
  obtain ⟨b, hb, rfl⟩ := List.mem_map.mp ha
  show b.car ∈ p.booked
  exact List.mem_map_of_mem (List.mem_of_mem_filter hb)

theorem Part.onRpt_keepsCars (p : Part) (f : Rpt → Rpt) : p.KeepsCars (p.onRpt f) := .of_same rfl rfl

theorem Part.retireEntries_keepsCars (p : Part) (gone : Assignment → Bool) (w : Nat → Word × Word) :
    p.KeepsCars (p.retireEntries gone w) :=
  .ite (.refl p) ((p.removeEntries_keepsCars gone).trans (Part.onRpt_keepsCars _ _))

theorem Part.displace_keepsCars (p : Part) (a : Assignment) : p.KeepsCars (p.displace a) :=
  ((p.removeEntries_keepsCars _).trans (Part.onRpt_keepsCars _ _)).trans (Part.onRpt_keepsCars _ _)

theorem Part.refuseAssign_keepsCars (p : Part) (k n : Nat) (why : AssignReason) : p.KeepsCars (p.refuseAssign k n why) :=
  .of_same rfl rfl

theorem Part.dropNew_keepsCars (p : Part) (k t number : Nat) (n : NodeConfig) : p.KeepsCars (p.dropNew k t number n) :=
  .ite (.of_same rfl rfl) ⟨rfl, rfl, fun _ => id⟩

theorem Part.prmCancel_keepsCars (p : Part) (words : List Word) : p.KeepsCars (p.prmCancel words) := by
  unfold Part.prmCancel
  split
  · exact p.onRpt_keepsCars _
  · exact p.removeEntries_keepsCars _

theorem Part.showDeadline_keepsCars (p : Part) (t : Nat) : p.KeepsCars (p.showDeadline t) :=
  .ite (.of_ledger_same (Part.onlyPrm_ledger ((Part.becomeHead_ledger _ t).trans (p.endShowing_ledger t)) rfl rfl)) (.refl p)

theorem Part.lifetime_keepsCars (p : Part) : p.KeepsCars p.lifetime :=
  .ite (.refl p) ((p.removeEntries_keepsCars _).trans (Part.onRpt_keepsCars _ _))

theorem Part.prmFlush_keepsCars (p : Part) (k : Nat) : p.KeepsCars (p.prmFlush k) :=
  Part.KeepsCars.trans (q := { p with prm := { p.prm with dropReported := p.prm.dropReported.set k false } })
    ⟨rfl, rfl, fun _ => id⟩ (Part.retireEntries_keepsCars _ _ _)

theorem Part.prmArrival_keepsCars (p : Part) (c d f : Nat) : p.KeepsCars (p.prmArrival c d f) := by
  refine ⟨rfl, rfl, fun c' hc' => ?_⟩
  simp only [Part.booked, Part.prmArrival, List.map_map, List.mem_map, Function.comp_apply] at hc' ⊢
  obtain ⟨a, ha, rfl⟩ := hc'
  refine ⟨a, ha, ?_⟩
  split <;> rfl

/-! ### OVR -/

theorem Part.activateChannel_keepsCars (p : Part) (k : Nat) : p.KeepsCars (p.activateChannel k) :=
  ((Part.KeepsCars.of_same (q := p.setChannel k _) rfl rfl).trans (Part.prmFlush_keepsCars _ k)).trans
    (.of_same rfl rfl)

theorem Part.sourceChange_keepsCars (p : Part) (k : Nat) : p.KeepsCars (p.sourceChange k) :=
  Part.KeepsCars.trans (.ite (p.activateChannel_keepsCars k) (.refl p)) (.of_same rfl rfl)

theorem Part.testLine_keepsCars (p : Part) (k : Nat) : p.KeepsCars (p.testLine k) := by
  unfold Part.testLine
  simp only
  split
  · exact .refl p
  · exact .ite (.of_same rfl rfl)
      ((Part.KeepsCars.of_same (q := p.setChannel k _) rfl rfl).trans (Part.sourceChange_keepsCars _ k))

theorem Part.memoryRequest_keepsCars (p : Part) (words : List Word) (k : Nat) : p.KeepsCars (p.memoryRequest words k) :=
  .ite (.refl p) ((Part.KeepsCars.of_same (q := p.setChannel k _) rfl rfl).trans (Part.sourceChange_keepsCars _ k))

theorem Part.ovrRecord_keepsCars (p : Part) (words : List Word) : p.KeepsCars (p.ovrRecord words) :=
  .ite (.of_same rfl rfl) (.foldl (fun q k => q.memoryRequest_keepsCars words k) _ p)

theorem Part.applyLines_keepsCars (p : Part) : p.KeepsCars p.applyLines :=
  .foldl (fun q k => .ite (q.sourceChange_keepsCars k) (.refl q)) _ p

/-! ### TRK -/

/-- A car replaced by one of the same service mode. -/
theorem Part.setCar_keepsCars (p : Part) (c : Nat) {x : Car} (h : x.mode = (p.car c).mode) : p.KeepsCars (p.setCar c x) :=
  ⟨by rw [Part.modes, Part.setCar_trk, map_set_of_same Car.mode (dflt := Car.fresh) h]; rfl, rfl, fun _ => id⟩

theorem Part.setVisit_keepsCars (p : Part) (c d : Nat) (visit : Option Nat) (opened : Bool) :
    p.KeepsCars (p.setVisit c d visit opened) := p.setCar_keepsCars c rfl

theorem Part.endVisit_keepsCars (p : Part) (c d : Nat) : p.KeepsCars (p.endVisit c d) := by
  have departed : ∀ g, p.KeepsCars (p.raiseDeparture c d g) := fun g =>
    (Part.KeepsCars.of_ledger_same (p.arrDeparture_ledger c d g)).trans (Part.removeEntries_keepsCars _ _)
  unfold Part.endVisit
  split
  · exact .refl p
  · exact Part.KeepsCars.trans (.ite (departed _) (.refl p)) (Part.setVisit_keepsCars _ c d _ _)

theorem Part.updateVisit_keepsCars (p : Part) (c d : Nat) : p.KeepsCars (p.updateVisit c d) := by
  have begun : ∀ f, p.KeepsCars (p.beginVisit c d f) := fun f =>
    .ite (.refl p) ((p.endVisit_keepsCars c d).trans (Part.setVisit_keepsCars _ c d _ _))
  have opened : ∀ (q : Part) f, q.KeepsCars (q.openVisit c d f) := fun q f =>
    .ite (((Part.KeepsCars.of_ledger_same (q.arrArrival_ledger c d f)).trans (Part.prmArrival_keepsCars _ c d f)).trans
      (Part.setVisit_keepsCars _ c d _ _)) (.refl q)
  unfold Part.updateVisit
  split
  · exact (begun _).trans (opened _ _)
  · exact .refl p
  · exact p.endVisit_keepsCars c d
  · exact p.endVisit_keepsCars c d
  all_goals exact .refl p

theorem Car.staled_mode (x : Car) (n : Nat) : (x.staled n).mode = x.mode :=
  foldl_keeps Car.mode (f := fun (y : Car) d => y.setDeck d { y.deck d with state := .stale }) (fun _ _ => rfl) _ _

theorem Part.staleExpiry_keepsCars (p : Part) (c : Nat) : p.KeepsCars (p.staleExpiry c) := by
  have staled := (p.setCar_keepsCars c ((p.car c).staled_mode (p.decksOf c).length)).trans
    (Part.onRpt_keepsCars _ (·.hand p.now (repCarStale c)))
  exact .ite ((staled.trans (.foldl (fun q d => .of_ledger_same (q.cmpDeckChange_ledger c d)) _ _)).trans
    ((Part.KeepsCars.of_ledger_same (Part.arrEvaluation_ledger _ c)).trans
      (.of_same (Part.noticeStatus_trk ..) (Part.noticeStatus_prm ..)))) (.refl p)

/-! ### Events -/

theorem PartEvent.keepsCars {f : Part → Part} (h : PartEvent f) (p : Part) : p.KeepsCars (f p) := by
  cases h with
  | carStale c => exact p.staleExpiry_keepsCars c
  | historyEmptied c => exact .ite (p.setCar_keepsCars c rfl) (.refl p)
  | showDeadline j => exact p.showDeadline_keepsCars j
  | lifetime => exact p.lifetime_keepsCars
  | messageExpired m => exact .of_same (p.msgExpire_trk m) (p.msgExpire_prm m)
  | dwellDeadline j r => exact .of_same rfl rfl
  | lineAccepted k => exact p.testLine_keepsCars k
  | lineSampling levels => exact .ite (.of_same rfl rfl) (.of_same rfl rfl)
  | sendFrame r => exact .of_same (p.sendFrame_trk r) (p.sendFrame_prm r)
  | frameReturn r port bytes => exact .of_same (p.frameReturn_trk r port bytes) (p.frameReturn_prm r port bytes)
  | returnTimeout r tag => exact .of_same (p.returnTimeout_trk r tag) (p.returnTimeout_prm r tag)
  | trailingTimeout r tag => exact .of_same (p.trailingTimeout_trk r tag) (p.trailingTimeout_prm r tag)
  | busyBackoff r position region =>
    exact .of_same (p.busyBackoff_trk r position region) (p.busyBackoff_prm r position region)
  | pollTimer r position => exact .of_same (p.pollTimer_trk r position) (p.pollTimer_prm r position)
  | joinTimer r position => exact .of_same (p.joinTimer_trk r position) (p.joinTimer_prm r position)
  | ringCheck r => exact .of_same (p.ringCheck_trk r) (p.ringCheck_prm r)
  | traceEnd r => exact .of_same (p.traceEnd_trk r) (p.traceEnd_prm r)


/-! ### NEW and REASSIGN (R62, R74) -/

/-- A car that passes the checks is not withdrawn (R62). -/
theorem Part.withdrawnLaw.mode_of_checkCar {p : Part} (h : p.withdrawnLaw) {car deck boarding destination : Nat}
    (hcheck : p.checkCar car deck boarding destination = none) : (p.car car).mode = .normal := by
  have hmark : p.prm.withdrawn.getD car false = false := by
    unfold Part.checkCar at hcheck
    split at hcheck
    · cases hcheck
    · split at hcheck
      · cases hcheck
      · split at hcheck
        · cases hcheck
        · next hmark => simpa using hmark
  obtain ⟨hcars, -, hagree, -⟩ := h
  by_cases hc : car < Config.maxCars
  · rw [hagree car hc] at hmark
    simpa [ServiceMode.withdrawn] using hmark
  · rw [Part.car, List.getD_eq_default _ _ (by omega)]
    rfl

/-- The law of a part with the modes and marks of another, whose booked cars are that one's or a car that is not
withdrawn. -/
theorem Part.withdrawnLaw.of_booked {p q : Part} (h : p.withdrawnLaw) {car : Nat} (hcar : (p.car car).mode = .normal)
    (hmodes : q.modes = p.modes) (hmarks : q.prm.withdrawn = p.prm.withdrawn)
    (hbooked : ∀ c ∈ q.booked, c ∈ p.booked ∨ c = car) : q.withdrawnLaw := by
  rw [Part.car_mode] at hcar
  rw [Part.withdrawnLaw_iff] at h ⊢
  obtain ⟨hcars, hlength, hagree, hnormal⟩ := h
  rw [hmodes, hmarks]
  refine ⟨hcars, hlength, hagree, fun c hc => ?_⟩
  obtain hc | rfl := hbooked c hc
  · exact hnormal c hc
  · exact hcar

theorem Part.createEntry_withdrawnLaw {p : Part} (h : p.withdrawnLaw) {car : Nat} (hcar : (p.car car).mode = .normal)
    (order number terminal boarding destination deck : Nat) (stepFree : Bool) :
    (p.createEntry order number terminal boarding destination car deck stepFree).withdrawnLaw := by
  have hledger := p.createEntry_ledger order number terminal boarding destination car deck stepFree
  refine h.of_booked hcar (congrArg (List.map Car.mode) (congrArg Ledger.cars hledger :))
    (congrArg Ledger.withdrawn hledger :) fun c hc => ?_
  rw [Part.booked_eq, hledger, ← Part.booked_eq] at hc
  simpa [Part.booked, Part.withEntry, Part.newEntry] using hc

theorem Part.prmNew_withdrawnLaw {p : Part} (h : p.withdrawnLaw) (words : List Word) : (p.prmNew words).withdrawnLaw := by
  have htaken : p.takeNew.withdrawnLaw := h
  rw [Part.prmNew]
  generalize p.takeNew = p at htaken
  simp only [Part.examineNew]
  split
  · exact (p.refuseAssign_keepsCars ..).law htaken
  · split
    · exact (p.dropNew_keepsCars ..).law htaken
    · split
      · exact (p.refuseAssign_keepsCars ..).law htaken
      · next hcheck =>
        have hcar := htaken.mode_of_checkCar hcheck
        split
        · exact (p.refuseAssign_keepsCars ..).law htaken
        · split
          · split
            · exact (p.refuseAssign_keepsCars ..).law htaken
            · next a _ =>
              refine Part.createEntry_withdrawnLaw ((p.displace_keepsCars a).law htaken) ?_ ..
              rw [Part.car_mode, (p.displace_keepsCars a).1, ← Part.car_mode]
              exact hcar
          · exact Part.createEntry_withdrawnLaw htaken hcar ..

/-- A REASSIGN books its entry's car anew and no other. -/
theorem Part.reassign_booked (p : Part) (a : Assignment) (car deck : Nat) :
    (p.reassign a car deck).modes = p.modes ∧ (p.reassign a car deck).prm.withdrawn = p.prm.withdrawn
      ∧ ∀ c ∈ (p.reassign a car deck).booked, c ∈ p.booked ∨ c = car := by
  have hledger := p.reassign_ledger a car deck
  refine ⟨(congrArg (List.map Car.mode) (congrArg Ledger.cars hledger :)), (congrArg Ledger.withdrawn hledger :),
    fun c hc => ?_⟩
  rw [Part.booked_eq, hledger, ← Part.booked_eq] at hc
  simp only [Part.booked, Part.moved, Part.setAssignment, List.map_map, List.mem_map, Function.comp_apply] at hc ⊢
  obtain ⟨b, hb, rfl⟩ := hc
  split
  · exact .inr rfl
  · exact .inl ⟨b, hb, rfl⟩

theorem Part.prmReassign_withdrawnLaw {p : Part} (h : p.withdrawnLaw) (words : List Word) :
    (p.prmReassign words).withdrawnLaw := by
  simp only [Part.prmReassign]
  split
  · exact (p.onRpt_keepsCars _).law h
  · split
    · exact (p.refuseAssign_keepsCars ..).law h
    · next hcheck =>
      split
      · exact h
      · obtain ⟨hmodes, hmarks, hbooked⟩ := p.reassign_booked _ _ _
        exact h.of_booked (h.mode_of_checkCar hcheck) hmodes hmarks hbooked

theorem Part.prmRecord_withdrawnLaw {p : Part} (h : p.withdrawnLaw) (slot : Nat) (words : List Word) :
    (p.prmRecord slot words).withdrawnLaw := by
  unfold Part.prmRecord
  split
  · exact Part.prmNew_withdrawnLaw h words
  · exact (p.prmCancel_keepsCars words).law h
  · exact Part.prmReassign_withdrawnLaw h words
  · exact Part.KeepsCars.law (.of_same rfl rfl) h

/-! ### The evaluation of a car (R35, R75) -/


theorem Part.arrWithdraw_keepsCars (p : Part) (c : Nat) : p.KeepsCars (p.arrWithdraw c) := by
  have hledger := p.arrWithdraw_ledger c
  refine ⟨(congrArg (List.map Car.mode) (congrArg Ledger.cars hledger :)), (congrArg Ledger.withdrawn hledger :),
    fun c hc => ?_⟩
  rwa [Part.booked_eq, hledger, ← Part.booked_eq] at hc

/-- PRM's withdrawn mark of one car. -/
def Part.prmMark (p : Part) (c : Nat) (b : Bool) : Part :=
  { p with prm := { p.prm with withdrawn := p.prm.withdrawn.set c b } }

/-- No assignment of a withdrawn car stays (R75). -/
theorem Part.prmWithdraw_booked {p : Part} {c c' : Nat} (h : c' ∈ (p.prmWithdraw c).booked) : c' ≠ c := by
  have kept : ∀ q : Part, c' ∈ ((q.prm.table.filter fun a => !decide (a.car = c)).map (·.core)).map (·.car) → c' ≠ c := by
    intro q hq
    simp only [List.map_map, List.mem_map, List.mem_filter, Bool.not_eq_true', decide_eq_false_iff_not] at hq
    obtain ⟨a, ⟨-, ha⟩, rfl⟩ := hq
    exact ha
  rw [show p.prmWithdraw c = (p.prmMark c true).retireEntries (fun a => a.car = c) (repRetiredWithdrawn c) from rfl,
    Part.retireEntries] at h
  split at h
  · next hnone =>
    obtain ⟨a, ha, rfl⟩ := List.mem_map.mp h
    simpa using List.countP_eq_zero.mp hnone a ha
  · have hbooked := (Part.onRpt_keepsCars _ _).2.2 c' h
    rw [Part.booked_eq, Part.removeEntries_ledger] at hbooked
    exact kept _ hbooked

theorem Part.prmWithdraw_keepsCars (p : Part) (c : Nat) : (p.prmMark c true).KeepsCars (p.prmWithdraw c) :=
  Part.retireEntries_keepsCars _ _ _

/-- What steps 1 to 5 leave of modes, marks and booked cars: the mode of car `c` alone may be another. -/
structure Part.Retuned (p q : Part) (c : Nat) : Prop where
  length : q.modes.length = p.modes.length
  others : ∀ c', c' ≠ c → q.modes.getD c' .normal = p.modes.getD c' .normal
  marks : q.prm.withdrawn = p.prm.withdrawn
  booked : ∀ c' ∈ q.booked, c' ∈ p.booked

/-- Step 6 restores the law: a withdrawal marks the car and retires its assignments, a return clears the mark (R35, R75). -/
theorem Part.noticeWithdrawal_withdrawnLaw {p q : Part} {c : Nat} (hp : p.withdrawnLaw) (h : p.Retuned q c) :
    (q.noticeWithdrawal c (p.car c)).withdrawnLaw := by
  rw [Part.withdrawnLaw_iff] at hp
  obtain ⟨hcars, hlength, hagree, hnormal⟩ := hp
  obtain ⟨hsame, hothers, hmarks, hbooked⟩ := h
  have withdrawn_iff : ∀ m : ServiceMode, m.withdrawn = false ↔ m = .normal := fun m => by
    simp [ServiceMode.withdrawn]
  have marked : ∀ b, (q.prm.withdrawn.set c b).length = Config.maxCars := fun b => by
    rw [List.length_set, hmarks, hlength]
  have agrees : ∀ b, (q.modes.getD c .normal).withdrawn = b → ∀ c' < Config.maxCars,
      (q.prm.withdrawn.set c b).getD c' false = (q.modes.getD c' .normal).withdrawn := by
    intro b hb c' hc'
    by_cases hne : c' = c
    · subst hne
      rw [hb, List.getD_eq_getElem?_getD, List.getElem?_set_self (by rw [hmarks, hlength]; exact hc'), Option.getD_some]
    · rw [hothers c' hne, ← hagree c' hc', ← hmarks, List.getD_eq_getElem?_getD, List.getElem?_set_ne (Ne.symm hne),
        ← List.getD_eq_getElem?_getD]
  have others : ∀ c' ∈ q.booked, c' ≠ c → q.modes.getD c' .normal = .normal := fun c' hc' hne =>
    (hothers c' hne).trans (hnormal c' (hbooked c' hc'))
  simp only [Part.noticeWithdrawal, Part.car_mode]
  rw [Part.withdrawnLaw_iff]
  split
  · next hwithdrawn =>
    simp only [Bool.and_eq_true] at hwithdrawn
    obtain ⟨hmodes', hmarks', hbooked'⟩ := (q.prmWithdraw_keepsCars c).trans ((q.prmWithdraw c).arrWithdraw_keepsCars c)
    rw [hmodes', hmarks']
    refine ⟨hsame.trans hcars, marked true, agrees true hwithdrawn.2, fun c' hc' => ?_⟩
    exact others c' (hbooked' c' hc') (Part.prmWithdraw_booked (((q.prmWithdraw c).arrWithdraw_keepsCars c).2.2 c' hc'))
  · split
    · next hreturned =>
      simp only [Bool.and_eq_true, Bool.not_eq_true'] at hreturned
      refine ⟨hsame.trans hcars, marked false, agrees false hreturned.2, fun c' hc' => ?_⟩
      by_cases hne : c' = c
      · subst hne
        exact (withdrawn_iff _).mp hreturned.2
      · exact others c' hc' hne
    · next hwithdrawn hreturned =>
      have hstays : (q.modes.getD c .normal).withdrawn = (p.modes.getD c .normal).withdrawn := by
        cases hbefore : (p.modes.getD c .normal).withdrawn <;> cases hafter : (q.modes.getD c .normal).withdrawn <;>
          simp_all
      refine ⟨hsame.trans hcars, by rw [hmarks, hlength], fun c' hc' => ?_, fun c' hc' => ?_⟩
      · rw [hmarks, hagree c' hc']
        by_cases hne : c' = c
        · rw [hne, hstays]
        · rw [hothers c' hne]
      · by_cases hne : c' = c
        · rw [hne, ← withdrawn_iff, hstays, withdrawn_iff, ← hne]
          exact hnormal c' (hbooked c' hc')
        · exact others c' hc' hne

/-- Steps 1 to 5 tune the mode of the one car. -/
theorem Part.retuned_visits {p q : Part} (htrk : q.trk = p.trk) (hprm : q.prm = p.prm) (c n : Nat) (x : Car) :
    p.Retuned ((List.range n).foldl (fun q d => q.updateVisit c d) (q.setCar c x)) c := by
  obtain ⟨hmodes, hmarks, hbooked⟩ :=
    Part.KeepsCars.foldl (fun (q : Part) d => q.updateVisit_keepsCars c d) (List.range n) (q.setCar c x)
  have hset : (q.setCar c x).modes = p.modes.set c x.mode := by
    rw [Part.modes, Part.setCar_trk, htrk, List.map_set, Part.modes]
  refine ⟨by rw [hmodes, hset, List.length_set], fun c' hne => ?_, hmarks.trans (congrArg Prm.withdrawn hprm),
    fun c' hc' => ?_⟩
  · rw [hmodes, hset, List.getD_eq_getElem?_getD, List.getElem?_set_ne (Ne.symm hne), ← List.getD_eq_getElem?_getD]
  · have hc := hbooked c' hc'
    rwa [Part.booked, Part.setCar_prm, hprm] at hc

theorem Part.evaluateCar_withdrawnLaw {p : Part} (h : p.withdrawnLaw) (c : Nat) (cfg : CarConfig) (words : List Word) :
    (p.evaluateCar c cfg words).withdrawnLaw := by
  have handed : ∀ q : Part, q.KeepsCars
      ((((q.trgHandOn c (words.take 15)).arrEvaluation c).noticeChanges c (p.car c)).noticeStatus c (p.car c)) := fun q =>
    (((Part.KeepsCars.of_same (q.trgHandOn_trk ..) (q.trgHandOn_prm ..)).trans
      (.of_ledger_same (Part.arrEvaluation_ledger _ c))).trans
      (.of_same (Part.noticeChanges_trk ..) (Part.noticeChanges_prm ..))).trans
      (.of_same (Part.noticeStatus_trk ..) (Part.noticeStatus_prm ..))
  refine (handed _).law (Part.noticeWithdrawal_withdrawnLaw h (Part.retuned_visits ?_ ?_ c _ _))
  · split <;> rfl
  · split <;> rfl

theorem Part.handRecord_withdrawnLaw {p : Part} (h : p.withdrawnLaw) (k slot : Nat) (words : List Word) :
    (p.handRecord k slot words).withdrawnLaw := by
  unfold Part.handRecord
  split
  · unfold Part.trkRecord
    split
    · exact Part.KeepsCars.law (.of_same rfl rfl) h
    · exact Part.evaluateCar_withdrawnLaw h slot _ words
  · exact Part.KeepsCars.law (.of_same (p.msgRecord_trk slot words) (p.msgRecord_prm slot words)) h
  · exact Part.prmRecord_withdrawnLaw h slot words
  · exact (p.ovrRecord_keepsCars words).law h

/-! ### Acceptances, RESET_N and steps -/

theorem Part.withdrawnLaw_of_fresh {p : Part} (htrk : p.trk = List.replicate Config.maxCars Car.fresh)
    (hmarks : p.prm.withdrawn = List.replicate Config.maxCars false) (htable : p.prm.table = []) : p.withdrawnLaw := by
  refine ⟨by rw [htrk, List.length_replicate], by rw [hmarks, List.length_replicate], fun c hc => ?_, ?_⟩
  · rw [Part.car, htrk, hmarks, getD_replicate_self, getD_replicate_self]
    rfl
  · rw [htable]
    exact nofun

theorem Part.acceptFull_withdrawnLaw (p : Part) (t : Take) : (p.acceptFull t).withdrawnLaw :=
  Part.KeepsCars.law ((Part.KeepsCars.of_same (p := p.replaced t) rfl rfl).trans (Part.applyLines_keepsCars _))
    (Part.withdrawnLaw_of_fresh rfl rfl rfl)

theorem Part.acceptParams_keepsCars (p : Part) (t : Take) : p.KeepsCars (p.acceptParams t) :=
  ((Part.KeepsCars.of_same
    (q := ({ p.endTake with params := readParams t.word } : Part).report (repTakeDone .params 0 0)) rfl rfl).trans
    (.foldl (fun q c => q.staleExpiry_keepsCars c) (List.range Config.maxCars) _)).trans (Part.lifetime_keepsCars _)

theorem withdrawnLaw_stepInvariant : StepInvariant Part.withdrawnLaw where
  reset _ _ := Part.withdrawnLaw_of_fresh rfl rfl rfl
  hostData _ _ h := h
  tick p h := Part.KeepsCars.law (.of_same p.tick_trk p.tick_prm) h
  onPath _ _ h := h
  onRpt _ _ h := h
  txfPump _ h := h
  textWrite _ _ h := h
  textData p w h := Part.KeepsCars.law (.of_same (p.textData_trk w) (p.textData_prm w)) h
  statistics _ h := h
  repaint _ h := h
  clearLatch p k h := Part.KeepsCars.law (.of_same (p.clearLatch_trk k) (p.clearLatch_prm k)) h
  handRecord _ k slot words h := Part.handRecord_withdrawnLaw h k slot words
  acceptFull p t _ := p.acceptFull_withdrawnLaw t
  acceptParams p t h := (p.acceptParams_keepsCars t).law h
  event p hf h := (hf.keepsCars p).law h

/-- Settles O10: a withdrawal retires the car's assignments and a NEW or REASSIGN of a withdrawn car is refused; no other
operation books a car or changes a service mode. -/
theorem stepKeepsWithdrawn : Obligations.StepKeepsWithdrawn := fun _ _ h hstep =>
  withdrawnLaw_stepInvariant.step hstep h

end Sys2Proof.Machine
end

section
/-! SUPPORT. What an accepted TAKE_PARAMS brings: waiting reports, stale cars (R30) and expired assignments (R78), said of
the ledger. -/

namespace Sys2Proof.Machine

/-! ### Reports that join the queue (R181) -/

/-- `q` has `p`'s ledger but for the cars and for reports that have joined the waiting ones. -/
def Part.Extends (p q : Part) : Prop :=
  q.ledger = { p.ledger with cars := q.trk, stock := { p.ledger.stock with waiting := q.disp.rpt.waiting } }
    ∧ p.disp.rpt.waiting <+: q.disp.rpt.waiting

theorem Part.Extends.of_ledger {p q : Part} (h : q.ledger = { p.ledger with cars := q.trk }) : p.Extends q := by
  have hwaiting : q.disp.rpt.waiting = p.disp.rpt.waiting := (congrArg (fun l : Ledger => l.stock.waiting) h :)
  refine ⟨?_, hwaiting ▸ List.prefix_refl _⟩
  rw [hwaiting, h]
  rfl

theorem Part.Extends.of_ledger_same {p q : Part} (h : q.ledger = p.ledger) : p.Extends q := by
  refine .of_ledger ?_
  rw [show q.trk = p.trk from congrArg Ledger.cars h, h]
  rfl

theorem Part.Extends.refl (p : Part) : p.Extends p := .of_ledger_same rfl

theorem Part.Extends.trans {p q r : Part} (h : p.Extends q) (h' : q.Extends r) : p.Extends r := by
  refine ⟨?_, h.2.trans h'.2⟩
  rw [h'.1, h.1]

theorem Part.Extends.entries {p q : Part} (h : p.Extends q) : q.prm.table.map (·.core) = p.prm.table.map (·.core) :=
  (congrArg Ledger.entries h.1 :)

theorem Part.Extends.counters {p q : Part} (h : p.Extends q) :
    q.disp.rpt.counters.length = p.disp.rpt.counters.length ∧ q.disp.rpt.counter .expired = p.disp.rpt.counter .expired :=
  ⟨(congrArg (fun l : Ledger => l.stock.counters) h.1 :), (congrArg (fun l : Ledger => l.stock.expired) h.1 :)⟩

theorem Part.Extends.foldl {β : Type} {f : Part → β → Part} (h : ∀ (q : Part) (x : β), q.Extends (f q x)) (l : List β)
    (p : Part) : p.Extends (l.foldl f p) := by
  induction l generalizing p with
  | nil => exact .refl p
  | cons x l ih => exact (h p x).trans (ih _)

theorem Rpt.hand_stock (r : Rpt) (now : Time) (w : Word × Word) :
    (r.hand now w).stock = { r.stock with waiting := (r.hand now w).waiting } ∧ r.waiting <+: (r.hand now w).waiting := by
  have dropped : ∀ x : Rpt, (x.count .reportDrop 1).stock = x.stock := fun x =>
    Rpt.count_stock x (c := .reportDrop) nofun 1
  have waiting : ∀ x : Rpt, (x.count .reportDrop 1).waiting = x.waiting := fun x => (congrArg Stock.waiting (dropped x) :)
  unfold Rpt.hand
  split
  · exact ⟨rfl, List.prefix_refl _⟩
  · split
    · exact ⟨rfl, List.prefix_append _ _⟩
    · rw [dropped, waiting]
      exact ⟨rfl, List.prefix_refl _⟩

theorem Rpt.hand_area (r : Rpt) (now : Time) (w : Word × Word) : (r.hand now w).area = r.area :=
  congrArg Stock.area (r.hand_stock now w).1

theorem Part.report_extends (p : Part) (w : Word × Word) : p.Extends (p.report w) := by
  obtain ⟨hstock, hprefix⟩ := p.disp.rpt.hand_stock p.now w
  exact ⟨congrArg (fun x => ({ p.ledger with stock := x } : Ledger)) hstock, hprefix⟩

/-! ### TXF and the end of a command -/

theorem Part.ownerNotice_extends (p : Part) (o : TextOwner) : p.Extends (p.ownerNotice o) := by
  cases o with
  | message m => exact .of_ledger_same (p.recomposeFor_ledger _)
  | line k => exact .of_ledger_same (p.recomposeFor_ledger _)
  | banner k => exact .of_ledger_same (p.recomposeFor_ledger _)

theorem Part.faultJob_extends (p : Part) (o : TextOwner) (cause : TextCause) : p.Extends (p.faultJob o cause) := by
  have marked : ∀ (q : Part) t, q.Extends (q.setOwnerText o t) := fun q t => by
    cases o <;> exact .of_ledger_same rfl
  unfold Part.faultJob
  refine Part.Extends.trans ?_ (Part.ownerNotice_extends _ o)
  refine Part.Extends.trans ?_ (Part.report_extends _ _)
  exact Part.Extends.trans (.of_ledger_same rfl) (marked _ _)

theorem Part.checkHeads_extends (fuel : Nat) (p : Part) : p.Extends (Part.checkHeads fuel p) := by
  induction fuel generalizing p with
  | zero => exact .refl p
  | succ fuel ih =>
    have checked : ∀ (q : Part) (j : Job), q.Extends
        (match q.checkJob j with
          | .error cause => Part.checkHeads fuel (q.faultJob j.owner cause)
          | .ok j' => q.setHead j') := by
      intro q j
      split
      · exact (q.faultJob_extends _ _).trans (ih _)
      · exact .of_ledger_same rfl
    have counted : ∀ b : Bool, p.Extends (if b then p.count .textTruncation 1 else p) := by
      intro b
      split
      · exact .of_ledger_same (p.count_ledger (c := .textTruncation) nofun 1)
      · exact .refl p
    unfold Part.checkHeads
    split
    · exact .refl p
    · split
      · exact (counted _).trans (checked _ _)
      · exact .refl p

theorem Part.txfPump_extends (p : Part) : p.Extends p.txfPump := by
  have issued : ∀ q : Part, q.Extends q.issueRead := fun q => by
    unfold Part.issueRead
    split
    · split <;> exact .of_ledger_same rfl
    · exact .refl q
  obtain ⟨hledger, hprefix⟩ := (p.checkHeads_extends (p.txf.jobs.length + 1)).trans (issued _)
  exact ⟨congrArg (fun l : Ledger => ({ p.ledger with stock := l.stock } : Ledger)) hledger, hprefix⟩

theorem Rpt.choose_stock (r : Rpt) : r.choose.stock = r.stock := by
  simp only [Rpt.stock, Rpt.counter, Rpt.choose_area, Rpt.choose_slots, Rpt.choose_producer, Rpt.choose_sequence,
    Rpt.choose_waiting, Rpt.choose_counters]

theorem Part.choose_ledger (p : Part) : ((p.onRpt (·.choose)).joinOwn).ledger = p.ledger :=
  p.onRpt_ledger (Rpt.choose_stock _)

theorem Part.settle_extends (p : Part) : p.Extends p.settle :=
  p.txfPump_extends.trans (.of_ledger_same (Part.choose_ledger _))

/-! ### Stale cars (R30) -/

theorem set_getD_self {α : Type} (l : List α) (i : Nat) (dflt : α) : l.set i (l.getD i dflt) = l := by
  simpa using map_set_of_same (l := l) id (dflt := dflt) (i := i) rfl

/-- A car after its stale timer has been looked at. -/
def Part.staleCar (p : Part) (c : Nat) : Car :=
  if p.staleDue c then (p.car c).staled (p.decksOf c).length else p.car c

/-- The tracker after the stale timer of one car has been looked at. -/
theorem Part.staleExpiry_trk (p : Part) (c : Nat) : (p.staleExpiry c).trk = p.trk.set c (p.staleCar c) := by
  unfold Part.staleExpiry Part.staleCar
  split
  · rw [Part.noticeStatus_trk, Part.arrEvaluation_trk, foldl_keeps Part.trk (fun q d => q.cmpDeckChange_trk c d)]
    rfl
  · exact (set_getD_self ..).symm


/-- A stale car is reported and nothing else of the ledger changes but the car (R30). -/
theorem Part.staleExpiry_ledger (p : Part) (c : Nat) :
    p.Extends (p.staleExpiry c)
      ∧ (p.staleExpiry c).disp.rpt.waiting
        = if p.staleDue c then (p.disp.rpt.hand p.now (repCarStale c)).waiting else p.disp.rpt.waiting := by
  have noticed : ∀ (q : Part) before, (q.noticeStatus c before).ledger = q.ledger := by
    intro q before
    unfold Part.noticeStatus
    simp only
    split <;> rfl
  unfold Part.staleExpiry
  split
  · next hdue =>
    have quiet : ∀ q : Part, ((((p.decksOf c).foldl (fun q d => q.cmpDeckChange c d) q).arrEvaluation c).noticeStatus c
        (p.car c)).ledger = q.ledger := fun q =>
      (noticed _ _).trans ((Part.arrEvaluation_ledger _ c).trans
        (foldl_keeps Part.ledger (fun q d => q.cmpDeckChange_ledger c d) _ q))
    have staled : p.Extends (p.setCar c ((p.car c).staled (p.decksOf c).length)) := .of_ledger rfl
    refine ⟨(staled.trans (Part.report_extends _ _)).trans (.of_ledger_same (quiet _)), ?_⟩
    exact (congrArg (fun l : Ledger => l.stock.waiting) (quiet _) :)
  · exact ⟨.refl p, rfl⟩

theorem Part.staleExpiry_car_other (p : Part) {c c' : Nat} (h : c' ≠ c) : (p.staleExpiry c').car c = p.car c := by
  rw [Part.car, Part.staleExpiry_trk, List.getD_eq_getElem?_getD, List.getElem?_set_ne h, ← List.getD_eq_getElem?_getD]
  rfl

/-- Whether a stale timer is due is a matter of the car, the parameters, the time and the configuration. -/
theorem Part.staleDue_congr {p q : Part} (hbase : q.base = p.base) {c : Nat} (hcar : q.car c = p.car c) :
    q.staleDue c = p.staleDue c := by
  unfold Part.staleDue Part.isStale Part.deck Part.since
  rw [hcar, params_of_base hbase, now_of_base hbase]

theorem Part.staleCar_congr {p q : Part} (hbase : q.base = p.base) {c : Nat} (hcar : q.car c = p.car c) :
    q.staleCar c = p.staleCar c := by
  simp only [Part.staleCar, Part.staleDue_congr hbase hcar, hcar, Part.decksOf, Part.carConfig, geo_of_base hbase]

theorem Part.staleNow_extends (p : Part) : p.Extends p.staleNow := .foldl (fun q c => (q.staleExpiry_ledger c).1) _ p

/-- Every car's stale timer is looked at once. -/
theorem Part.staleNow_car {p : Part} (hcars : p.trk.length = Config.maxCars) {c : Nat} (hc : c < Config.maxCars) :
    p.staleNow.car c = p.staleCar c := by
  obtain ⟨q, hq, hvisited⟩ := foldl_visits_once (fun q : Part => (q.base, q.trk.length, q.car c))
    (f := fun q c' => q.staleExpiry c') (List.mem_range.mpr hc) List.nodup_range
    (fun c' _ hne q => Prod.ext (q.staleExpiry_base c') (Prod.ext
      (by simp only [Part.staleExpiry_trk, List.length_set]) (q.staleExpiry_car_other hne))) p
  simp only [Prod.mk.injEq] at hq hvisited
  obtain ⟨hbase, hlength, hcar⟩ := hq
  refine hvisited.2.2.trans ?_
  rw [Part.car, Part.staleExpiry_trk, List.getD_eq_getElem?_getD, List.getElem?_set_self (by omega), Option.getD_some,
    Part.staleCar_congr hbase hcar]

/-- The stale cars are reported in ascending index. -/
theorem Part.staleNow_waiting (p : Part) :
    p.staleNow.disp.rpt.waiting
      = (((List.range Config.maxCars).filter p.staleDue).foldl (fun r c => r.hand p.now (repCarStale c))
          p.disp.rpt).waiting := by
  have reported : ∀ (l : List Nat), l.Nodup → ∀ (q : Part) (r : Rpt), q.base = p.base → (∀ c ∈ l, q.car c = p.car c) →
      q.disp.rpt.area = r.area → q.disp.rpt.waiting = r.waiting →
        (l.foldl (fun q c => q.staleExpiry c) q).disp.rpt.waiting
          = ((l.filter p.staleDue).foldl (fun r c => r.hand p.now (repCarStale c)) r).waiting := by
    intro l hl
    induction l with
    | nil => exact fun q r _ _ _ hwaiting => hwaiting
    | cons c l ih =>
      intro q r hbase hcars harea hwaiting
      obtain ⟨hnew, hrest⟩ := List.nodup_cons.mp hl
      obtain ⟨hextends, hlast⟩ := q.staleExpiry_ledger c
      rw [Part.staleDue_congr hbase (hcars c List.mem_cons_self), now_of_base hbase] at hlast
      have harea' : (q.staleExpiry c).disp.rpt.area = q.disp.rpt.area := (congrArg (fun l : Ledger => l.stock.area) hextends.1 :)
      have hcars' : ∀ c' ∈ l, (q.staleExpiry c).car c' = p.car c' := fun c' hc' =>
        (q.staleExpiry_car_other fun h => hnew (by rw [h]; exact hc')).trans (hcars c' (List.mem_cons_of_mem c hc'))
      have hbase' := (q.staleExpiry_base c).trans hbase
      rw [List.foldl_cons]
      by_cases hdue : p.staleDue c = true
      · rw [List.filter_cons_of_pos hdue, List.foldl_cons]
        rw [if_pos hdue, Rpt.hand_waiting_congr harea hwaiting] at hlast
        exact ih hrest (q.staleExpiry c) (r.hand p.now (repCarStale c)) hbase' hcars' (harea'.trans (harea.trans (r.hand_area ..).symm)) hlast
      · rw [List.filter_cons_of_neg hdue]
        rw [if_neg hdue] at hlast
        exact ih hrest _ _ hbase' hcars' (harea'.trans harea) (hlast.trans hwaiting)
  rw [Part.staleNow]
  generalize hrange : List.range Config.maxCars = cars
  have hcars : cars.Nodup := hrange ▸ List.nodup_range
  exact reported cars hcars p p.disp.rpt rfl (fun _ _ => rfl) rfl rfl

theorem Part.staleNow_of_not_due {p : Part} (h : ∀ c < Config.maxCars, p.staleDue c = false) : p.staleNow = p := by
  have still : ∀ (l : List Nat), (∀ c ∈ l, p.staleDue c = false) → l.foldl (fun q c => q.staleExpiry c) p = p := by
    intro l hl
    induction l with
    | nil => rfl
    | cons c l ih =>
      have hexpiry : p.staleExpiry c = p := by simp only [Part.staleExpiry, hl c List.mem_cons_self, Bool.false_eq_true, if_false]
      rw [List.foldl_cons, hexpiry, ih fun c' hc' => hl c' (List.mem_cons_of_mem c hc')]
  exact still _ fun c hc => h c (List.mem_range.mp hc)

/-! ### Expired assignments (R78) -/

theorem Rpt.count_expired_stock (r : Rpt) (n : Nat) :
    (r.count .expired n).stock = { r.stock with expired := (r.count .expired n).counter .expired } := by
  have hring := r.count_keeps (fun r => (r.area, r.slots, r.producer, r.sequence, r.waiting)) (fun _ _ _ => rfl) .expired n
  have hlength : (r.count .expired n).counters.length = r.counters.length := by simp [Rpt.count]
  simp only [Prod.mk.injEq] at hring
  simp only [Rpt.stock, hring, hlength]

theorem Part.count_expired_ledger (p : Part) (n : Nat) :
    (p.count .expired n).ledger =
      { p.ledger with stock := { p.ledger.stock with expired := (p.count .expired n).disp.rpt.counter .expired } } :=
  congrArg (fun x => ({ p.ledger with stock := x } : Ledger)) (p.disp.rpt.count_expired_stock n)

/-- The entries within their life leave nothing behind but the count of the others (R78). -/
theorem Part.lifetime_ledger (p : Part) :
    p.lifetime.ledger = { p.ledger with
      entries := (p.prm.table.filter fun a => !p.pastLife a).map (·.core)
      stock := { p.ledger.stock with expired := p.lifetime.disp.rpt.counter .expired } } := by
  simp only [Part.lifetime]
  split
  · next hnone =>
    have hall : p.prm.table.filter (fun a => !p.pastLife a) = p.prm.table :=
      List.filter_eq_self.mpr fun a ha => by simpa using List.countP_eq_zero.mp hnone a ha
    rw [hall]
    rfl
  · rw [Part.count_expired_ledger, Part.removeEntries_ledger]

/-- The expired assignments are counted (R78, R186). -/
theorem Part.lifetime_expired (p : Part) (h : p.disp.rpt.counters.length = 16) :
    (p.lifetime.disp.rpt.counter .expired).toNat
      = min 65535 ((p.disp.rpt.counter .expired).toNat + p.prm.table.countP p.pastLife) := by
  have hremoved := congrArg Ledger.stock (p.removeEntries_ledger p.pastLife)
  have hexpired : (p.removeEntries p.pastLife).disp.rpt.counter .expired = p.disp.rpt.counter .expired :=
    (congrArg Stock.expired hremoved :)
  have hlength : (p.removeEntries p.pastLife).disp.rpt.counters.length = 16 := (congrArg Stock.counters hremoved :).trans h
  simp only [Part.lifetime]
  split
  · next hnone =>
    rw [hnone, Nat.add_zero, Nat.min_eq_right]
    have := (p.disp.rpt.counter .expired).isLt
    omega
  · exact (Rpt.counter_count_same _ hlength .expired _).trans (by rw [hexpired])


/-! ### The decks of a stale car (R30) -/

theorem Car.staled_undecked (x : Car) (n : Nat) : (x.staled n).undecked = x.undecked :=
  foldl_keeps Car.undecked (f := fun (y : Car) d => y.setDeck d { y.deck d with state := .stale }) (fun _ _ => rfl) _ _

theorem Car.staled_deck {x : Car} {n d : Nat} (hd : d < n) (hlength : d < x.decks.length) :
    (x.staled n).deck d = { x.deck d with state := .stale } := by
  obtain ⟨y, hy, hvisited⟩ := foldl_visits_once (fun y : Car => (y.decks.length, y.deck d))
    (f := fun (y : Car) d' => y.setDeck d' { y.deck d' with state := .stale }) (List.mem_range.mpr hd) List.nodup_range
    (fun d' _ hne y => Prod.ext (y.setDeck_length ..) (by rw [Car.deck_setDeck, if_neg fun h => hne h.1.symm])) x
  simp only [Prod.mk.injEq] at hy hvisited
  refine hvisited.2.trans ?_
  rw [Car.deck_setDeck, if_pos ⟨rfl, by omega⟩, hy.2]

theorem Car.staled_deck_other (x : Car) {n d : Nat} (hd : n ≤ d) : (x.staled n).deck d = x.deck d := by
  have kept : ∀ (l : List Nat), d ∉ l → ∀ y : Car,
      (l.foldl (fun y d' => y.setDeck d' { y.deck d' with state := .stale }) y).deck d = y.deck d := by
    intro l
    induction l with
    | nil => exact fun _ _ => rfl
    | cons d' l ih =>
      intro hl y
      rw [List.foldl_cons, ih (fun h => hl (List.mem_cons_of_mem d' h)), Car.deck_setDeck,
        if_neg fun h : d = d' ∧ _ => hl (h.1 ▸ List.mem_cons_self)]
  exact kept _ (by simpa using hd) x

/-! ### The acceptance (R175) -/

/-- The part once the take has ended and the new parameters are in force. -/
def Part.paramsTaken (p : Part) (tk : Take) : Part := { p.endTake with params := readParams tk.word }

/-- The same with TAKE_DONE handed over. -/
def Part.paramsDone (p : Part) (tk : Take) : Part := (p.paramsTaken tk).report (repTakeDone .params 0 0)

theorem Part.acceptParams_eq (p : Part) (tk : Take) : p.acceptParams tk = (p.paramsDone tk).staleNow.lifetime := rfl

/-- A test of what a record sets of an assignment goes through to the ledger's entries. -/
theorem map_core_filter {f : Assignment → Bool} (hf : ∀ a, f a.core = f a) (l : List Assignment) :
    (l.filter f).map (·.core) = (l.map (·.core)).filter f := by
  rw [List.filter_map]
  exact congrArg _ (List.filter_congr fun a _ => (hf a).symm)

theorem countP_core {f : Assignment → Bool} (hf : ∀ a, f a.core = f a) (l : List Assignment) :
    l.countP f = (l.map (·.core)).countP f := by
  rw [List.countP_map]
  exact List.countP_congr fun a _ => by rw [Function.comp_apply, hf a]

theorem Part.acceptParams_base (p : Part) (tk : Take) : (p.acceptParams tk).base = (p.paramsTaken tk).base := by
  rw [Part.acceptParams_eq, Part.lifetime_base, Part.staleNow_base]
  rfl

theorem Part.acceptParams_text (p : Part) (tk : Take) : (p.acceptParams tk).text = p.text := by
  rw [Part.acceptParams_eq, Part.lifetime_text, Part.staleNow_text]
  rfl

theorem Part.acceptParams_trk (p : Part) (tk : Take) : (p.acceptParams tk).trk = (p.paramsDone tk).staleNow.trk := by
  rw [Part.acceptParams_eq, Part.lifetime_trk]

theorem Part.staled_extends (p : Part) (tk : Take) : p.Extends (p.paramsDone tk).staleNow :=
  Part.Extends.trans (q := p.paramsDone tk) (Part.report_extends (p.paramsTaken tk) _) (Part.staleNow_extends _)

theorem Part.pastLife_congr {p q : Part} (h : q.base = p.base) : q.pastLife = p.pastLife := by
  funext a
  unfold Part.pastLife Part.since
  rw [params_of_base h, now_of_base h]

theorem Part.staled_pastLife (p : Part) (tk : Take) :
    (p.paramsDone tk).staleNow.pastLife = (p.paramsTaken tk).pastLife :=
  (Part.pastLife_congr (Part.staleNow_base _)).trans (Part.pastLife_congr (Part.report_base _ _))

/-- What an accepted TAKE_PARAMS leaves of the ledger. -/
theorem Part.acceptParams_ledger (p : Part) (tk : Take) :
    (p.acceptParams tk).ledger = { p.ledger with
      cars := (p.paramsDone tk).staleNow.trk
      entries := (p.prm.table.filter fun a => !(p.paramsTaken tk).pastLife a).map (·.core)
      stock := { p.ledger.stock with
        waiting := (p.paramsDone tk).staleNow.disp.rpt.waiting
        expired := (p.acceptParams tk).disp.rpt.counter .expired } } := by
  have hstale := p.staled_extends tk
  have hlife := p.staled_pastLife tk
  have hentries : (p.paramsDone tk).staleNow.prm.table.map (·.core) = p.prm.table.map (·.core) := hstale.entries
  have hfilter : ((p.paramsDone tk).staleNow.prm.table.filter fun a => !(p.paramsDone tk).staleNow.pastLife a).map (·.core)
      = (p.prm.table.filter fun a => !(p.paramsTaken tk).pastLife a).map (·.core) := by
    rw [hlife, map_core_filter fun _ => rfl, map_core_filter fun _ => rfl, hentries]
  rw [Part.acceptParams_eq, Part.lifetime_ledger, hfilter, hstale.1]

/-- The expired assignments are counted (R78). -/
theorem Part.acceptParams_expired (p : Part) (tk : Take) (h : p.disp.rpt.counters.length = 16) :
    ((p.acceptParams tk).disp.rpt.counter .expired).toNat
      = min 65535 ((p.disp.rpt.counter .expired).toNat + p.prm.table.countP (p.paramsTaken tk).pastLife) := by
  have hstale := p.staled_extends tk
  have hlife := p.staled_pastLife tk
  have hentries : (p.paramsDone tk).staleNow.prm.table.map (·.core) = p.prm.table.map (·.core) := hstale.entries
  obtain ⟨hcounters, hexpired⟩ := hstale.counters
  rw [Part.acceptParams_eq, Part.lifetime_expired _ (hcounters.trans h), hexpired, hlife, countP_core fun _ => rfl, hentries,
    ← countP_core fun _ => rfl]


/-- What a command ends with leaves of the path: all but the own-access queue. -/
theorem Part.settle_path (p : Part) : p.settle.path.take = p.path.take ∧ p.settle.path.state = p.path.state
    ∧ p.settle.path.watch = p.path.watch ∧ p.settle.path.mirror = p.path.mirror
    ∧ p.settle.path.lastSeq = p.path.lastSeq := by
  have hpath := path_of_base p.txfPump_base
  unfold Part.settle
  rw [Part.joinOwn_take, Part.joinOwn_state, Part.joinOwn_watch, Part.joinOwn_mirror, Part.joinOwn_lastSeq,
    Part.onRpt_path, hpath]
  exact ⟨rfl, rfl, rfl, rfl, rfl⟩

/-- TAKE_RESULT_WRITE of an accepted TAKE_PARAMS: the part it leaves (R173, R175). -/
theorem exec_takeResultWrite_params {s : State} {tk : Take} (hwaits : s.part.path.waits .takeResult = true)
    (htake : s.part.path.take = some tk) (hkind : tk.kind = .params) (hresult : tk.result = some (0, 0)) :
    ∃ t x, exec .takeResultWrite s = .next t
      ∧ t.mem = writeWhole s.mem (wordAddr s.part.path.takeAddress) (takeResultWord 0 0)
      ∧ x.state = s.part.path.state ∧ x.watch = s.part.path.watch ∧ x.mirror = s.part.path.mirror
      ∧ x.lastSeq = s.part.path.lastSeq
      ∧ t.part = ((s.part.onPath fun _ => x).acceptParams tk).settle := by
  have hturn : s.part.path.ownNext = some .takeResult := by simp only [Path.ownNext, hwaits, if_true]
  have hleft : (s.onPart fun p => p.onPath (·.leave .takeResult)).part.path.take = some tk := htake
  have hwritten : ∀ p : Part, p.takeResult tk (0, 0) = (0, 0) := fun p => by simp only [Part.takeResult, hkind]
  refine ⟨s.performOwn .takeResult,
    { s.part.path.leave .takeResult with takeWord := some (takeResultWord 0 0) }, ?_, ?_, rfl, rfl, rfl, rfl, ?_⟩
  · show Host.Outcome.next (s.ownTurn .takeResult) = _
    rw [State.ownTurn, if_pos hturn]
  · show (s.onPart fun p => p.onPath (·.leave .takeResult)).writeTakeResult.mem = _
    simp only [State.writeTakeResult, hleft, hresult, hwritten _]
    rfl
  · have hperform : (s.performOwn .takeResult).part = (State.writeTakeResult _).part.settle := rfl
    rw [hperform, State.writeTakeResult_of_due hleft hresult, hwritten, Part.finishTake, if_pos rfl, hkind]
    rfl

end Sys2Proof.Machine
end

section
/-! PROOFS. TAKE_RESULT_WRITE of an accepted TAKE_PARAMS (R30, R78, R173, R175). -/

namespace Sys2Proof.Machine

theorem Part.waiting_eq (p : Part) : p.disp.rpt.waiting = p.ledger.stock.waiting := rfl

section
variable (p : Part) (tk : Take)

/-- The base an accepted TAKE_PARAMS leaves at the command's end. -/
theorem Part.paramsSettled_base :
    (p.acceptParams tk).settle.sameConfig (p.paramsTaken tk) ∧ (p.acceptParams tk).settle.sameClock p := by
  obtain ⟨hconfig, hclock⟩ := (p.acceptParams tk).settle_same
  obtain ⟨hconfig', hclock'⟩ := Part.same_of_base (p.acceptParams_base tk)
  exact ⟨hconfig.trans hconfig', hclock.trans hclock'⟩

theorem Part.paramsSettled_path :
    (p.acceptParams tk).settle.path.take = none ∧ (p.acceptParams tk).settle.path.state = p.path.state.afterTake
      ∧ (p.acceptParams tk).settle.path.watch = p.path.watch ∧ (p.acceptParams tk).settle.path.mirror = p.path.mirror
      ∧ (p.acceptParams tk).settle.path.lastSeq = p.path.lastSeq := by
  obtain ⟨htake, hstate, hwatch, hmirror, hseq⟩ := (p.acceptParams tk).settle_path
  have hpath := path_of_base (p.acceptParams_base tk)
  rw [hpath] at htake hstate hwatch hmirror hseq
  exact ⟨htake, hstate, hwatch, hmirror, hseq⟩

/-- The ledger an accepted TAKE_PARAMS leaves at the command's end. -/
theorem Part.paramsSettled_ledger :
    (p.acceptParams tk).settle.ledger = { p.ledger with
      cars := (p.acceptParams tk).settle.trk
      entries := (p.prm.table.filter fun a => !(p.paramsTaken tk).pastLife a).map (·.core)
      stock := { p.ledger.stock with
        waiting := (p.acceptParams tk).settle.disp.rpt.waiting
        expired := (p.acceptParams tk).disp.rpt.counter .expired } } := by
  rw [(p.acceptParams tk).settle_extends.1, Part.acceptParams_ledger]

theorem Part.acceptParams_waiting :
    (p.acceptParams tk).disp.rpt.waiting = (p.paramsDone tk).staleNow.disp.rpt.waiting := by
  rw [Part.waiting_eq, Part.acceptParams_ledger]

/-- The reports that wait after an accepted TAKE_PARAMS and before the command's end (R30, R175). -/
theorem Part.acceptParams_reports {p : Part} {tk : Take} {due : Nat → Bool}
    (hdue : ∀ c, due c = (p.paramsTaken tk).staleDue c) :
    (p.acceptParams tk).disp.rpt.waiting
      = (((List.range Config.maxCars).filter due).foldl (fun r c => r.hand p.now (repCarStale c))
          (p.disp.rpt.hand p.now (repTakeDone .params 0 0))).waiting := by
  have hfun : due = (p.paramsDone tk).staleDue := funext fun c =>
    (hdue c).trans (Part.staleDue_congr (p := p.paramsTaken tk) (q := p.paramsDone tk) (Part.report_base _ _) rfl).symm
  rw [Part.acceptParams_waiting, Part.staleNow_waiting, hfun]
  rfl

/-- A car after an accepted TAKE_PARAMS (R30). -/
theorem Part.paramsSettled_car {p : Part} (hcars : p.trk.length = Config.maxCars) {c : Nat} (hc : c < Config.maxCars) :
    (p.acceptParams tk).settle.car c = (p.paramsTaken tk).staleCar c := by
  rw [Part.car_congr (Part.settle_trk _), Part.car_congr (p.acceptParams_trk tk)]
  exact (Part.staleNow_car (p := p.paramsDone tk) hcars hc).trans (Part.staleCar_congr (Part.report_base _ _) rfl)

/-- With no car stale and no assignment expired, the new parameters bring nothing else. -/
theorem Part.acceptParams_quiet {p : Part} {tk : Take} (hcars : ∀ c < Config.maxCars, (p.paramsTaken tk).staleDue c = false)
    (hlife : ∀ a ∈ p.prm.table, (p.paramsTaken tk).pastLife a = false) : p.acceptParams tk = p.paramsDone tk := by
  have hstale : (p.paramsDone tk).staleNow = p.paramsDone tk :=
    Part.staleNow_of_not_due fun c hc => (Part.staleDue_congr (Part.report_base _ _) rfl).trans (hcars c hc)
  have hnone : (p.paramsDone tk).prm.table.countP (p.paramsDone tk).pastLife = 0 := by
    rw [Part.pastLife_congr (p := p.paramsTaken tk) (q := p.paramsDone tk) (Part.report_base _ _)]
    exact List.countP_eq_zero.mpr fun a ha => by simp [hlife a ha]
  rw [Part.acceptParams_eq, hstale, Part.lifetime, hnone]
  rfl

end

/-- A stale car: its configured decks STALE, everything else as it was (R30). -/
theorem Part.staleCar_spec {p : Part} {c : Nat} (hlength : 1 < (p.car c).decks.length) :
    (p.staleCar c).undecked = (p.car c).undecked ∧ (p.staleDue c = false → p.staleCar c = p.car c)
      ∧ (p.staleDue c = true →
          (∀ d ∈ p.decksOf c, d < 2 → (p.staleCar c).deck d = { p.deck c d with state := .stale })
            ∧ ∀ d, d ∉ p.decksOf c → (p.staleCar c).deck d = p.deck c d) := by
  have hrange : ∃ n, p.decksOf c = List.range n := by
    unfold Part.decksOf
    split
    · exact ⟨0, rfl⟩
    · exact ⟨_, rfl⟩
  obtain ⟨n, hn⟩ := hrange
  unfold Part.staleCar
  rw [hn, List.length_range]
  cases hdue : p.staleDue c with
  | false => exact ⟨rfl, fun _ => rfl, nofun⟩
  | true =>
    refine ⟨(p.car c).staled_undecked n, nofun, fun _ => ⟨fun d hd htwo => ?_, fun d hd => ?_⟩⟩
    · exact Car.staled_deck (List.mem_range.mp hd) (by omega)
    · exact (p.car c).staled_deck_other (by simpa using hd)

theorem Part.trk_length_of_shaped {p : Part} (h : p.shaped = true) : p.trk.length = Config.maxCars := by
  simp only [Part.shaped, Bool.and_eq_true, decide_eq_true_eq] at h
  tauto

theorem Part.sameTexts_of_text {p q : Part} (h : p.text = q.text) : p.sameTexts q := by
  simp only [Part.text, Prod.mk.injEq] at h
  exact h

/-- What a command from rest ends with leaves of texts, waiting reports, traffic, regions and links. -/
theorem Part.settle_of_reading {p : Part} (h : p.txf.headReading = true) :
    p.settle.text = p.text ∧ p.settle.disp.rpt.waiting = p.disp.rpt.waiting ∧ p.settle.sameTraffic p
      ∧ p.settle.sameLinks p := by
  obtain ⟨⟨hmsg, htxf, htrg, hovr⟩, hdisp⟩ := Part.settle_sameTexts h
  refine ⟨?_, ?_, p.settle_sameTraffic, (congrArg Disp.cmp hdisp :), (congrArg Disp.lnk hdisp :)⟩
  · rw [Part.text, hmsg, htxf, htrg, hovr, Part.text]
  · rw [hdisp]
    exact Rpt.choose_waiting _

/-- An accepted TAKE_PARAMS while TXF reads: the texts stay, the reports are TAKE_DONE and the stale cars, and with no car stale
and no assignment expired nothing else changes. -/
theorem Part.paramsSettled_reading {p : Part} {tk : Take} {due : Nat → Bool} (hreading : p.txf.headReading = true)
    (hdue : ∀ c, due c = (p.paramsTaken tk).staleDue c) :
    (p.acceptParams tk).settle.sameTexts p
      ∧ (p.acceptParams tk).settle.disp.rpt.waiting
        = (((List.range Config.maxCars).filter due).foldl (fun r c => r.hand p.now (repCarStale c))
          (p.disp.rpt.hand p.now (repTakeDone .params 0 0))).waiting
      ∧ ((∀ c < Config.maxCars, due c = false) → (∀ a ∈ p.prm.table, (p.paramsTaken tk).pastLife a = false) →
        (p.acceptParams tk).settle.sameTraffic p ∧ (p.acceptParams tk).settle.sameLinks p) := by
  have htext := p.acceptParams_text tk
  have hreports := Part.acceptParams_reports hdue
  have hquiet : (∀ c < Config.maxCars, due c = false) → (∀ a ∈ p.prm.table, (p.paramsTaken tk).pastLife a = false) →
      p.acceptParams tk = p.paramsDone tk := fun hcars =>
    Part.acceptParams_quiet fun c hc => (hdue c).symm.trans (hcars c hc)
  generalize p.acceptParams tk = q at htext hreports hquiet ⊢
  have htxf : q.txf = p.txf := congrArg (fun y => y.2.1) htext
  obtain ⟨hsettled, hwaiting, ⟨htrk, harr, hprm⟩, hcmp, hlnk⟩ := Part.settle_of_reading (p := q) (htxf ▸ hreading)
  refine ⟨Part.sameTexts_of_text (hsettled.trans htext), hwaiting.trans hreports, fun hcars hlife => ?_⟩
  rw [hquiet hcars hlife] at htrk harr hprm hcmp hlnk ⊢
  exact ⟨⟨htrk, harr, hprm⟩, hcmp, hlnk⟩

/-- Settles O28: the acceptance in four steps, the take's end under the new parameters, TAKE_DONE, the stale cars and the expired
assignments; what each leaves is read off the base, the texts and the ledger. -/
theorem paramsAcceptanceCompletes : Obligations.ParamsAcceptanceCompletes := by
  intro s tk hwaits htake hkind hresult
  obtain ⟨t, x, hexec, hmem, hstate, hwatch, hmirror, hseq, hpart⟩ :=
    exec_takeResultWrite_params hwaits htake hkind hresult
  have hbase := (s.part.onPath fun _ => x).paramsSettled_base tk
  have hpath := (s.part.onPath fun _ => x).paramsSettled_path tk
  have hledger := (s.part.onPath fun _ => x).paramsSettled_ledger tk
  have hsettled := ((s.part.onPath fun _ => x).acceptParams tk).settle_extends
  have hexpired := (s.part.onPath fun _ => x).acceptParams_expired tk
  rw [← hpart] at hbase hpath hledger hsettled
  obtain ⟨⟨hparams, hgeo, hnodes, -, -⟩, hclock⟩ := hbase
  obtain ⟨hnone, hafter, hwatch', hmirror', hseq'⟩ := hpath
  have hpast : ∀ a, (((s.part.onPath fun _ => x).paramsTaken tk).pastLife a) = decide
      ((readParams tk.word).assignLifeS * 1000 ≤ s.part.since a.created) := fun _ => rfl
  refine ⟨t, hexec, hmem, hnone, hafter.trans (congrArg _ hstate), hparams, hgeo, hnodes, hwatch'.trans hwatch,
    hmirror'.trans hmirror, hseq'.trans hseq, ?_, fun due hdue => ⟨fun hshaped c hc => ?_, fun hrest => ?_⟩, ?_, fun hlength => ?_,
    (congrArg Ledger.nextOrder hledger :), (congrArg Ledger.withdrawn hledger :), (congrArg Ledger.dropReported hledger :),
    (congrArg Ledger.arrWithdrawn hledger :), (congrArg (fun l : Ledger => l.stock.area) hledger :),
    (congrArg (fun l : Ledger => l.stock.slots) hledger :), (congrArg (fun l : Ledger => l.stock.producer) hledger :),
    (congrArg (fun l : Ledger => l.stock.sequence) hledger :), hclock⟩
  · have hdone := ((s.part.onPath fun _ => x).paramsDone tk).staleNow_extends.2
    rw [← Part.acceptParams_waiting] at hdone
    exact hdone.trans hsettled.2
  · have hcar : t.part.car c = ((s.part.onPath fun _ => x).paramsTaken tk).staleCar c := by
      rw [hpart]
      exact Part.paramsSettled_car (p := s.part.onPath fun _ => x) tk (Part.trk_length_of_shaped (p := s.part) hshaped) hc
    obtain ⟨hundecked, hfresh, hstale⟩ := Part.staleCar_spec (p := (s.part.onPath fun _ => x).paramsTaken tk)
      (Part.hasDeck_of_shaped (p := s.part) hshaped hc Nat.one_lt_two).2
    simp only [Part.deck, hcar]
    exact ⟨hundecked, fun h => hfresh ((hdue c).symm.trans h), fun h => hstale ((hdue c).symm.trans h)⟩
  · have hreading := Part.paramsSettled_reading (p := s.part.onPath fun _ => x) (tk := tk) hrest.1 hdue
    rw [← hpart] at hreading
    obtain ⟨⟨hmsg, htxf, htrg, hovr⟩, hreports, hquiet⟩ := hreading
    refine ⟨⟨hmsg, htxf, htrg, hovr⟩, hreports, fun hcars hlife => ?_⟩
    obtain ⟨⟨htrk, harr, hprm⟩, hcmp, hlnk⟩ := hquiet hcars fun a ha => by
      rw [hpast]
      exact decide_eq_false (Nat.not_le.mpr (hlife a ha))
    exact ⟨⟨htrk, harr, hprm⟩, hcmp, hlnk⟩
  · refine (congrArg Ledger.entries hledger :).trans (congrArg _ (List.filter_congr fun a _ => ?_))
    rw [hpast, ← decide_not]
    exact decide_eq_decide.mpr (by omega)
  · have hcounted : t.part.disp.rpt.counter .expired
        = ((s.part.onPath fun _ => x).acceptParams tk).disp.rpt.counter .expired := hsettled.counters.2
    rw [hcounted, hexpired hlength]
    exact congrArg (fun n => min 65535 ((s.part.disp.rpt.counter .expired).toNat + n)) (List.countP_congr fun a _ => by rw [hpast])

end Sys2Proof.Machine
end

section
/-! SUPPORT. When a region stands as its sources give it (R110, R119): what recomposing does to it, and which changes of the
sources it does not see. -/

namespace Sys2Proof.Machine

/-! ### Standing regions -/

/-- A region can be recomposed: it has a record, and a shown message has a dwell deadline. -/
def Ready (d : Disp) (j : Nat) (r : Region) : Prop :=
  ∃ x, d.cmp.region j r = some x ∧ (isMessageRegion r = true → x.shown.isSome = true → x.dwell.isSome = true)

/-- What `Part.composedAt` asks, of a display side and its sources apart. -/
def Stands (p : Part) (d : Disp) (j : Nat) (n : NodeConfig) (r : Region) : Prop :=
  ∃ x, d.cmp.region j r = some x
    ∧ x.content = (composed p j n r x.shown).1.1 ∧ x.source = (composed p j n r x.shown).2
    ∧ (isMessageRegion r = true →
        (x.shown = none ↔ rotationList p n r = []) ∧ (∀ m, x.shown = some m → m ∈ rotationList p n r)
          ∧ x.level = x.shown.map (fun _ => topLevel p (rotationList p n r)) ∧ x.dwell.isSome = x.shown.isSome)

/-- The law asks of every region that it stands on the part's own display side. -/
theorem Part.composedAt_iff (p : Part) (j : Nat) (n : NodeConfig) (r : Region) :
    p.composedAt j n r ↔ Stands p p.disp j n r := Iff.rfl

theorem Stands.ready {p : Part} {d : Disp} {j : Nat} {n : NodeConfig} {r : Region} (h : Stands p d j n r) : Ready d j r := by
  obtain ⟨x, hx, -, -, hmessage⟩ := h
  exact ⟨x, hx, fun hr hshown => (hmessage hr).2.2.2.trans hshown⟩

theorem Ready.of_region {d d' : Disp} {j : Nat} {r : Region} (h : Ready d j r)
    (hregion : d'.cmp.region j r = d.cmp.region j r) : Ready d' j r := by
  unfold Ready
  rwa [hregion]

theorem Stands.of_region {p : Part} {d d' : Disp} {j : Nat} {n : NodeConfig} {r : Region} (h : Stands p d j n r)
    (hregion : d'.cmp.region j r = d.cmp.region j r) : Stands p d' j n r := by
  unfold Stands
  rwa [hregion]

theorem nextAfter_mem {l : List Nat} {m k : Nat} (h : nextAfter l m = some k) : k ∈ l := by
  unfold nextAfter at h
  split at h
  · next hfound => exact Option.some.inj h ▸ List.mem_of_find?_eq_some hfound
  · exact List.mem_of_head? h

theorem nextAfter_isSome {l : List Nat} (h : l ≠ []) (m : Nat) : (nextAfter l m).isSome = true := by
  unfold nextAfter
  split
  · rfl
  · cases l with
    | nil => exact absurd rfl h
    | cons x l => rfl

/-! ### Recomposition (R119) -/

/-- A recomposed region stands. -/
theorem recompose_stands {p : Part} {d : Disp} {j : Nat} {n : NodeConfig} {r : Region} (hn : p.node j = some n)
    (h : Ready d j r) (mode : RecomposeMode) : Stands p (recompose p d j r mode) j n r := by
  obtain ⟨x, hx, hready⟩ := h
  obtain ⟨y, hy, hcontent, hsource, -, -, hrotate, -⟩ := recompose_spec mode hn hx rfl
  refine ⟨y, hy, hcontent, hsource, fun hr => ?_⟩
  obtain ⟨hempty, hnew, hstays⟩ := hrotate hr
  by_cases hlist : rotationList p n r = []
  · obtain ⟨hshown, hlevel, hdwell⟩ := hempty hlist
    simp [hshown, hlevel, hdwell, hlist]
  · by_cases hfirst : x.shown = none ∨ x.level ≠ some (topLevel p (rotationList p n r))
    · obtain ⟨hshown, hlevel, hdwell⟩ := hnew hlist hfirst
      obtain ⟨first, rest, hcons⟩ := List.exists_cons_of_ne_nil hlist
      simp [hshown, hlevel, hdwell, hcons]
    · rw [not_or, not_not] at hfirst
      obtain ⟨m, hm⟩ := Option.ne_none_iff_exists'.mp hfirst.1
      obtain ⟨hlevel, hin, hout⟩ := hstays m hm hfirst.2 hlist
      by_cases hmem : m ∈ rotationList p n r
      · obtain ⟨hshown, hdwell⟩ := hin hmem
        have hsome := hready hr (by rw [hm]; rfl)
        rw [hshown, hm, hlevel, hfirst.2, hdwell, hsome]
        simp [hlist, hmem]
      · obtain ⟨hshown, hdwell⟩ := hout hmem
        obtain ⟨k, hk⟩ := Option.isSome_iff_exists.mp (nextAfter_isSome hlist m)
        rw [hshown, hk, hlevel, hfirst.2, hdwell]
        simp [hlist, nextAfter_mem hk]

/-- From display side `d` to `d'` no region loses its record or stops standing on the sources `p`. -/
structure Carried (p : Part) (d d' : Disp) : Prop where
  ready : ∀ {j n r}, p.node j = some n → Ready d j r → Ready d' j r
  stands : ∀ {j n r}, p.node j = some n → Stands p d j n r → Stands p d' j n r

theorem Carried.refl (p : Part) (d : Disp) : Carried p d d := ⟨fun _ => id, fun _ => id⟩

theorem Carried.trans {p : Part} {d₁ d₂ d₃ : Disp} (h : Carried p d₁ d₂) (h' : Carried p d₂ d₃) : Carried p d₁ d₃ :=
  ⟨fun hn => h'.ready hn ∘ h.ready hn, fun hn => h'.stands hn ∘ h.stands hn⟩

/-- Region records the same. -/
theorem Carried.of_region {p : Part} {d d' : Disp} (h : ∀ j r, d'.cmp.region j r = d.cmp.region j r) : Carried p d d' :=
  ⟨fun _ hd => hd.of_region (h _ _), fun _ hd => hd.of_region (h _ _)⟩

theorem Carried.of_cmp {p : Part} {d d' : Disp} (h : d'.cmp = d.cmp) : Carried p d d' := .of_region fun _ _ => by rw [h]

theorem Carried.foldl {β : Type} {p : Part} {f : Disp → β → Disp} (h : ∀ d x, Carried p d (f d x)) (l : List β) (d : Disp) :
    Carried p d (l.foldl f d) := by
  induction l generalizing d with
  | nil => exact .refl p d
  | cons x l ih => exact (h d x).trans (ih _)

/-- One region made to stand, every other record the same. -/
theorem Carried.of_one {p : Part} {d d' : Disp} {j : Nat} {r : Region}
    (hone : ∀ {n}, p.node j = some n → Ready d j r → Stands p d' j n r)
    (hother : ∀ {j' r'}, (j' = j → r' ≠ r) → d'.cmp.region j' r' = d.cmp.region j' r') : Carried p d d' := by
  have each : ∀ {j' n r'}, p.node j' = some n →
      (Ready d j' r' → Ready d' j' r') ∧ (Stands p d j' n r' → Stands p d' j' n r') := by
    intro j' n r' hn
    by_cases hsame : j' = j ∧ r' = r
    · obtain ⟨rfl, rfl⟩ := hsame
      exact ⟨fun h => (hone hn h).ready, fun h => hone hn h.ready⟩
    · have hregion := hother fun hj hr => hsame ⟨hj, hr⟩
      exact ⟨fun h => h.of_region hregion, fun h => h.of_region hregion⟩
  exact ⟨fun hn => (each hn).1, fun hn => (each hn).2⟩

theorem recompose_carried (p : Part) (d : Disp) (j : Nat) (r : Region) (mode : RecomposeMode) :
    Carried p d (recompose p d j r mode) :=
  .of_one (fun hn h => recompose_stands hn h mode) fun h => recompose_region_other mode h

theorem recomposeAll_carried (p : Part) (d : Disp) (l : List Target) : Carried p d (recomposeAll p d l) :=
  .foldl (f := fun d (t : Target) => recompose p d t.1 t.2.1 t.2.2) (fun d t => recompose_carried p d t.1 t.2.1 t.2.2) l d

/-- Every target of a recomposition stands. -/
theorem recomposeAll_stands {p : Part} {j : Nat} {n : NodeConfig} {r : Region} (hn : p.node j = some n) {l : List Target}
    {mode : RecomposeMode} (ht : (j, r, mode) ∈ l) {d : Disp} (h : Ready d j r) : Stands p (recomposeAll p d l) j n r := by
  obtain ⟨front, back, rfl⟩ := List.append_of_mem ht
  have hfront := (recomposeAll_carried p d front).ready hn h
  simp only [recomposeAll, List.foldl_append, List.foldl_cons]
  exact (recomposeAll_carried p _ back).stands hn (recompose_stands hn hfront mode)

theorem reissueIn_carried (p : Part) (d : Disp) (j : Nat) : Carried p d (reissueIn p d j) := by
  unfold reissueIn
  split
  · exact .refl p d
  · exact recomposeAll_carried ..

theorem setReachable_carried (p : Part) (d : Disp) (j : Nat) (on : Bool) : Carried p d (setReachable d j on) := by
  refine .of_region fun j' r => ?_
  simp only [setReachable, Cmp.region, List.getElem?_modify]
  cases d.cmp.nodes[j']? with
  | none => simp
  | some n => by_cases hj : j = j' <;> simp [hj]

theorem nodeJoined_carried (p : Part) (d : Disp) (j : Nat) : Carried p d (nodeJoined p d j) :=
  (setReachable_carried p d j true).trans (reissueIn_carried ..)

theorem repaintIn_carried (p : Part) (d : Disp) : Carried p d (repaintIn p d) := by
  refine .foldl (fun d j => ?_) _ d
  split
  · exact reissueIn_carried p d j
  · exact .refl p d

/-- A dwell deadline leaves its region standing and the others as they were (R117). -/
theorem dwellDeadline_carried (p : Part) (d : Disp) (j : Nat) (r : Region) : Carried p d (dwellDeadline p d j r) := by
  unfold dwellDeadline
  split
  · next n x hn hx =>
    split
    · next t m hdwell hshown =>
      split
      · have hr := Cmp.region_eq_some hx
        subst hr
        generalize hx' : ({ x with
          shown := nextAfter (rotationList p n x.region) m, dwell := some (p.after p.params.rotateMs) } : RegionRecord) = x'
        have hregion : x'.region = x.region := hx' ▸ rfl
        have hset : (d.cmp.setRegion j x').region j x.region = some x' := by
          rw [← hregion] at hx ⊢
          exact Cmp.setRegion_region_same hx
        have hready : Ready { d with cmp := d.cmp.setRegion j x' } j x.region :=
          ⟨x', hset, fun _ _ => by rw [← hx']; rfl⟩
        refine .of_one (j := j) (r := x.region) (fun hn' _ => recompose_stands hn' hready .plain) fun hother => ?_
        rw [recompose_region_other .plain hother]
        exact Cmp.setRegion_region_other (hregion ▸ hother)
      · exact .refl p d
    · exact .refl p d
  · exact .refl p d

end Sys2Proof.Machine
end

section
/-! SUPPORT. What the composition of a region reads of the part, piece by piece (R58, R80, R82, R112 to R115, R122). -/

namespace Sys2Proof.Machine

/-! ### The pieces -/

/-- What CMP reads of a deck and its car. -/
structure Face where
  state : Indication
  accepted : Option Nat
  mode : ServiceMode
  drive : Direction
  moving : Bool

def Car.face (x : Car) (d : Nat) : Face where
  state := (x.deck d).state
  accepted := (x.deck d).accepted
  mode := x.mode
  drive := x.drive
  moving := decide (x.motion ≠ .still)

def Part.face (p : Part) (c d : Nat) : Face := (p.car c).face d

/-- What CMP reads of the lantern of (car, deck, floor). -/
def Part.lamp (p : Part) (c d f : Nat) : Option (LanternState × Direction) :=
  (p.lantern c d f).map fun l => (l.state, l.shown)

/-- What CMP reads of an assignment at the head of its queue. -/
def Assignment.prompted (a : Assignment) : Nat × Nat × Nat × Bool × Option Estimate :=
  (a.car, a.deck, a.destination, a.stepFree, a.estimate)

/-- What CMP reads of a terminal's head. -/
def Part.promptHead (p : Part) (j : Nat) : Option (Nat × Nat × Nat × Bool × Option Estimate) :=
  (p.headOf j).map Assignment.prompted

/-- What CMP reads of a message entry. -/
def Message.glimpse (m : Message) : MessageState × Option MessageFields × List Nat × Option TextStatus × List Byte :=
  (m.state, m.fields, m.cars, m.text.status, m.text.buffer)

/-- What decides which channel governs. -/
def Channel.rule (c : Channel) : Option ChannelConfig × Bool := (c.config, c.latch)

/-- What a trip list reads of a live assignment. -/
def Assignment.leg (a : Assignment) : Nat × Nat × Nat × Nat := (a.car, a.deck, a.boarding, a.destination)

/-- What the trip lists read of the table. -/
def Part.legs (p : Part) : List (Nat × Nat × Nat × Nat) := p.prm.table.map Assignment.leg

theorem insertByDistance_congr {p q : Part} (h : q.geo = p.geo) (board x : Nat) (l : List Nat) :
    insertByDistance q board x l = insertByDistance p board x l := by
  have hlevel : ∀ k, q.level k = p.level k := fun k => by rw [Part.level, h, Part.level]
  induction l with
  | nil => rfl
  | cons y l ih => simp only [insertByDistance, hlevel, ih]

/-- The destinations of the legs of a key. -/
def destinationsOf (legs : List (Nat × Nat × Nat × Nat)) (c d f : Nat) : List Nat :=
  (legs.filter fun x => x.1 = c && x.2.1 = d && x.2.2.1 = f).map (·.2.2.2)

theorem Part.tripMembers_eq (p : Part) (c d f : Nat) :
    p.tripMembers c d f = (destinationsOf p.legs c d f).foldl (fun acc x => insertByDistance p f x acc) [] := by
  unfold Part.tripMembers destinationsOf Part.legs
  rw [List.filter_map, List.map_map]
  rfl

theorem tripShown_congr {p q : Part} (hgeo : q.geo = p.geo) {c d f : Nat}
    (h : destinationsOf q.legs c d f = destinationsOf p.legs c d f) : q.tripShown c d f = p.tripShown c d f := by
  unfold Part.tripShown
  rw [Part.tripMembers_eq, Part.tripMembers_eq, h]
  simp only [insertByDistance_congr hgeo]

theorem tripShown_of_legs {p q : Part} (hgeo : q.geo = p.geo) (h : q.legs = p.legs) (c d f : Nat) :
    q.tripShown c d f = p.tripShown c d f := tripShown_congr hgeo (by rw [h])

/-- The sources of region `r` of node `n`, of index `j`, read the same in `p` and in `q`. -/
structure Alike (p q : Part) (j : Nat) (n : NodeConfig) (r : Region) : Prop where
  geo : q.geo = p.geo := by rfl
  face : n.type = .carPanel ∨ r = .floor → q.face n.car n.deck = p.face n.car n.deck := by exact fun _ => rfl
  lamp : n.type = .hallLantern → r = .arrow ∨ r = .trip → q.lamp n.car n.deck n.floor = p.lamp n.car n.deck n.floor := by
    exact fun _ _ => rfl
  trip : r = .trip → q.tripShown n.car n.deck n.floor = p.tripShown n.car n.deck n.floor := by
    exact fun _ => tripShown_of_legs (by rfl) (by rfl) ..
  head : r = .prompt → q.promptHead j = p.promptHead j := by exact fun _ => rfl
  messages : isMessageRegion r = true → q.msg.map Message.glimpse = p.msg.map Message.glimpse := by exact fun _ => rfl
  rules : q.ovr.map Channel.rule = p.ovr.map Channel.rule := by rfl
  lineText : r = .line → ∀ k, p.governing n = some k →
    overrideContent (q.channel k).lineText = overrideContent (p.channel k).lineText := by exact fun _ _ _ => rfl
  bannerText : r = .banner → ∀ k, p.governing n = some k →
    overrideContent (q.channel k).bannerText = overrideContent (p.channel k).bannerText := by exact fun _ _ _ => rfl

/-! ### Each source from its piece -/

section
variable {p q : Part}

theorem getD_of_map_eq {α β : Type} {f : α → β} {l l' : List α} (h : l'.map f = l.map f) (i : Nat) (dflt : α) :
    f (l'.getD i dflt) = f (l.getD i dflt) := by
  have hi := congrArg (fun m => m[i]?) h
  simp only [List.getElem?_map] at hi
  simp only [List.getD_eq_getElem?_getD]
  cases hl : l[i]? <;> cases hl' : l'[i]? <;> simp_all

theorem floorText_of_face (hgeo : q.geo = p.geo) {c d : Nat} (h : q.face c d = p.face c d) :
    q.floorText c d = p.floorText c d := by
  have hstate : (q.deck c d).state = (p.deck c d).state := congrArg Face.state h
  have haccepted : (q.deck c d).accepted = (p.deck c d).accepted := congrArg Face.accepted h
  have hmode : (q.car c).mode = (p.car c).mode := congrArg Face.mode h
  unfold Part.floorText Part.floorBody Part.floorLabel Part.carConfig
  rw [hgeo, haccepted, hstate, hmode]

theorem floorContent_of_face (hgeo : q.geo = p.geo) {c d : Nat} (h : q.face c d = p.face c d) :
    floorContent q c d = floorContent p c d := by
  have hstate : (q.deck c d).state = (p.deck c d).state := congrArg Face.state h
  unfold floorContent
  rw [hstate, floorText_of_face hgeo h]

theorem carArrow_of_face {c d : Nat} (h : q.face c d = p.face c d) : carArrow q c d = carArrow p c d := by
  have hstate : (q.deck c d).state = (p.deck c d).state := congrArg Face.state h
  have hdrive : (q.car c).drive = (p.car c).drive := congrArg Face.drive h
  have hmoving : decide ((q.car c).motion ≠ .still) = decide ((p.car c).motion ≠ .still) := congrArg Face.moving h
  unfold carArrow
  rw [hstate, hdrive, hmoving]

theorem nodeFloor_of_face {n : NodeConfig} (h : n.type = .carPanel → q.face n.car n.deck = p.face n.car n.deck) :
    q.nodeFloor n = p.nodeFloor n := by
  unfold Part.nodeFloor
  cases htype : n.type with
  | carPanel =>
    have hface := h htype
    have hstate : (q.deck n.car n.deck).state = (p.deck n.car n.deck).state := congrArg Face.state hface
    have haccepted : (q.deck n.car n.deck).accepted = (p.deck n.car n.deck).accepted := congrArg Face.accepted hface
    simp only [hstate, haccepted]
  | hallLantern | terminal | lobbyBoard => rfl

theorem lanternArrow_of_lamp {c d f : Nat} (h : q.lamp c d f = p.lamp c d f) :
    lanternArrow q c d f = lanternArrow p c d f := by
  unfold Part.lamp at h
  unfold lanternArrow
  cases hq : q.lantern c d f <;> cases hp : p.lantern c d f <;> simp_all

theorem lanternLit_of_lamp {c d f : Nat} (h : q.lamp c d f = p.lamp c d f) : q.lanternLit c d f = p.lanternLit c d f := by
  unfold Part.lamp at h
  unfold Part.lanternLit
  cases hq : q.lantern c d f <;> cases hp : p.lantern c d f <;> simp_all

theorem channel_rule (h : q.ovr.map Channel.rule = p.ovr.map Channel.rule) (k : Nat) :
    (q.channel k).config = (p.channel k).config ∧ (q.channel k).latch = (p.channel k).latch := by
  have hk : (q.channel k).rule = (p.channel k).rule := getD_of_map_eq h k _
  exact Prod.mk.inj hk

theorem Channel.state_ne_off (c : Channel) : c.state ≠ .off ↔ c.latch = true := by
  unfold Channel.state
  split
  · next h => split <;> simp [h]
  · next h => simp [h]

theorem governing_of_rules (h : q.ovr.map Channel.rule = p.ovr.map Channel.rule) {n : NodeConfig}
    (hfloor : q.nodeFloor n = p.nodeFloor n) : q.governing n = p.governing n := by
  have each : ∀ k, (q.channelOn k && q.inScope k n) = (p.channelOn k && p.inScope k n) := by
    intro k
    obtain ⟨hconfig, hlatch⟩ := channel_rule h k
    have hon : q.channelOn k = p.channelOn k := by
      simp only [Part.channelOn, Channel.state_ne_off, hlatch]
    rw [hon]
    unfold Part.inScope
    rw [hconfig, hfloor]
  unfold Part.governing
  simp only [each]

end

/-! ### The composition from its pieces -/

theorem NodeConfig.hallLantern_of_trip {n : NodeConfig} (h : .trip ∈ n.regions) : n.type = .hallLantern := by
  unfold NodeConfig.regions at h
  cases htype : n.type with
  | hallLantern => rfl
  | carPanel | terminal | lobbyBoard =>
    rw [htype] at h
    simp at h

theorem promptText_of_prompted {p q : Part} (hgeo : q.geo = p.geo) {a b : Assignment} (h : b.prompted = a.prompted)
    (n : NodeConfig) : q.promptText n b = p.promptText n a := by
  simp only [Assignment.prompted, Prod.mk.injEq] at h
  obtain ⟨hcar, hdeck, hdestination, hstepFree, hestimate⟩ := h
  unfold Part.promptText Part.carConfig Part.floorLabel
  rw [hgeo, hcar, hdeck, hdestination, hstepFree, hestimate]

section
variable {p q : Part} {j : Nat} {n : NodeConfig} {r : Region} (h : Alike p q j n r)
include h

theorem Alike.nodeFloor : q.nodeFloor n = p.nodeFloor n := nodeFloor_of_face fun hn => h.face (.inl hn)

theorem Alike.governing : q.governing n = p.governing n := governing_of_rules h.rules h.nodeFloor

theorem Alike.message (hr : isMessageRegion r = true) (m : Nat) : (q.message m).glimpse = (p.message m).glimpse :=
  getD_of_map_eq (h.messages hr) m _

theorem Alike.messageContent (hr : isMessageRegion r = true) (shown : Option Nat) :
    Machine.normalContent q j n r shown = Machine.normalContent p j n r shown := by
  have hbuffer : ∀ m, (q.message m).text.buffer = (p.message m).text.buffer := fun m =>
    congrArg (fun g => g.2.2.2.2) (h.message hr m)
  cases r with
  | line | banner =>
    unfold Machine.normalContent
    cases shown with
    | none => rfl
    | some m => simp only [hbuffer]
  | floor | arrow | trip | prompt => cases hr

theorem Alike.promptContent (hr : r = .prompt) (shown : Option Nat) :
    Machine.normalContent q j n r shown = Machine.normalContent p j n r shown := by
  have hhead := h.head hr
  subst hr
  unfold Part.promptHead at hhead
  unfold Machine.normalContent
  cases hp : p.headOf j with
  | none =>
    rw [hp, Option.map_none, Option.map_eq_none_iff] at hhead
    rw [hhead]
  | some a =>
    rw [hp, Option.map_some, Option.map_eq_some_iff] at hhead
    obtain ⟨b, hb, hprompted⟩ := hhead
    simp only [hb, promptText_of_prompted h.geo hprompted]

theorem Alike.normalContent (hr : r ∈ n.regions) (shown : Option Nat) :
    Machine.normalContent q j n r shown = Machine.normalContent p j n r shown := by
  cases r with
  | floor => simp only [Machine.normalContent, floorContent_of_face h.geo (h.face (.inr rfl))]
  | arrow =>
    unfold Machine.normalContent
    cases htype : n.type with
    | carPanel => simp only [carArrow_of_face (h.face (.inl htype))]
    | hallLantern => simp only [lanternArrow_of_lamp (h.lamp htype (.inl rfl))]
    | terminal | lobbyBoard => rfl
  | trip =>
    have hlit := lanternLit_of_lamp (h.lamp (NodeConfig.hallLantern_of_trip hr) (.inr rfl))
    unfold Machine.normalContent Part.tripText Part.floorLabel
    rw [hlit, h.trip rfl, h.geo]
  | prompt => exact h.promptContent rfl shown
  | line => exact h.messageContent rfl shown
  | banner => exact h.messageContent rfl shown

theorem Alike.composed (hr : r ∈ n.regions) (shown : Option Nat) :
    Machine.composed q j n r shown = Machine.composed p j n r shown := by
  unfold Machine.composed
  rw [h.governing, h.normalContent hr]
  cases hk : p.governing n with
  | none => rfl
  | some k =>
    have hconfig := (channel_rule h.rules k).1
    cases r with
    | floor | arrow => simp only [hconfig]
    | trip | prompt => rfl
    | line => simp only [h.lineText rfl k hk]
    | banner => simp only [h.bannerText rfl k hk]

theorem Alike.rotation (hr : isMessageRegion r = true) :
    rotationList q n r = rotationList p n r ∧ ∀ l, topLevel q l = topLevel p l := by
  have hpriority : ∀ m, q.priorityOf m = p.priorityOf m := fun m =>
    congrArg (fun g => (g.2.1.map (·.priority)).getD 0) (h.message hr m)
  have htop : ∀ l, topLevel q l = topLevel p l := fun l => by
    simp only [topLevel, funext hpriority]
  have heligible : ∀ m, eligible q n r (q.message m) = eligible p n r (p.message m) := by
    intro m
    have hm := h.message hr m
    simp only [Message.glimpse, Prod.mk.injEq] at hm
    obtain ⟨hstate, hfields, hcars, hstatus, -⟩ := hm
    unfold eligible filterMatches
    rw [hstate, hfields, hcars, hstatus, h.nodeFloor]
  have hlength : q.msg.length = p.msg.length := by simpa using congrArg List.length (h.messages hr)
  have hset : eligibleSet q n r = eligibleSet p n r := by
    simp only [eligibleSet, heligible, hlength]
  refine ⟨?_, htop⟩
  simp only [rotationList, hset, htop]
  exact List.filter_congr fun m _ => by rw [hpriority]

/-- A region whose sources read the same stands on. -/
theorem Alike.stands (hmem : r ∈ n.regions) {d : Disp} (hp : Stands p d j n r) : Stands q d j n r := by
  obtain ⟨x, hx, hcontent, hsource, hmessage⟩ := hp
  refine ⟨x, hx, by rw [h.composed hmem, hcontent], by rw [h.composed hmem, hsource], fun hr => ?_⟩
  rw [(h.rotation hr).1, (h.rotation hr).2]
  exact hmessage hr

end


/-! ### Operations that leave every standing region standing -/

/-- Region `r` of node `j` is one the law speaks of (R9, R110). -/
structure Part.Applies (p : Part) (j : Nat) (n : NodeConfig) (r : Region) : Prop where
  node : p.node j = some n
  bound : n.type = .carPanel ∨ n.type = .hallLantern → p.isDeck n.car n.deck = true
  mem : r ∈ n.regions

theorem Part.compositionLaw_iff (p : Part) : p.compositionLaw ↔ ∀ {j n r}, p.Applies j n r → p.composedAt j n r :=
  ⟨fun h _ _ _ hr => h _ _ hr.node hr.bound _ hr.mem, fun h _ _ hn hbound _ hr => h ⟨hn, hbound, hr⟩⟩

theorem Part.node_of_nodes {p q : Part} (h : q.nodes = p.nodes) (j : Nat) : q.node j = p.node j := by
  rw [Part.node, h, Part.node]

theorem Part.decksOf_of_geo {p q : Part} (h : q.geo = p.geo) (c : Nat) : q.decksOf c = p.decksOf c := by
  unfold Part.decksOf Part.carConfig
  rw [h]

theorem Part.Applies.congr {p q : Part} (hgeo : q.geo = p.geo) (hnodes : q.nodes = p.nodes) {j : Nat} {n : NodeConfig}
    {r : Region} (h : p.Applies j n r) : q.Applies j n r := by
  refine ⟨(Part.node_of_nodes hnodes j).trans h.node, fun hn => ?_, h.mem⟩
  rw [Part.isDeck, Part.decksOf_of_geo hgeo]
  exact h.bound hn

/-- A set of regions. -/
abbrev Regions := Nat → NodeConfig → Region → Prop

/-- Every region keeps its record, and one that stands in `p` stands in `q` unless it is among those that `q` still owes a
recomposition. -/
structure Part.Owes (owed : Regions) (p q : Part) : Prop where
  geo : q.geo = p.geo
  nodes : q.nodes = p.nodes
  ready : ∀ {j n r}, p.node j = some n → Ready p.disp j r → Ready q.disp j r
  stands : ∀ {j n r}, p.Applies j n r → p.composedAt j n r → owed j n r ∨ q.composedAt j n r

/-- No region that stands in `p` falls. -/
def Part.Carries (p q : Part) : Prop := Part.Owes (fun _ _ _ => False) p q

section
variable {owed : Regions} {p q r : Part}

theorem Part.Owes.carries (h : Part.Owes owed p q) (hsettled : ∀ {j n r}, p.Applies j n r → owed j n r →
    Ready q.disp j r → q.composedAt j n r) : p.Carries q where
  geo := h.geo
  nodes := h.nodes
  ready := h.ready
  stands hr hp := .inr ((h.stands hr hp).elim (fun howed => hsettled hr howed (h.ready hr.node (Stands.ready hp))) id)

theorem Part.Carries.keeps (h : p.Carries q) {j : Nat} {n : NodeConfig} {r : Region} (hr : p.Applies j n r)
    (hp : p.composedAt j n r) : q.composedAt j n r := (h.stands hr hp).resolve_left id

theorem Part.Owes.applies (h : Part.Owes owed p q) {j : Nat} {n : NodeConfig} {r : Region} (hr : p.Applies j n r) :
    q.Applies j n r := hr.congr h.geo h.nodes

theorem Part.Carries.refl (p : Part) : p.Carries p := ⟨rfl, rfl, fun _ => id, fun _ => .inr⟩

/-- What is owed stays owed. -/
theorem Part.Owes.trans (h : Part.Owes owed p q) (h' : q.Carries r) : Part.Owes owed p r where
  geo := h'.geo.trans h.geo
  nodes := h'.nodes.trans h.nodes
  ready hn hp := h'.ready ((Part.node_of_nodes h.nodes _).trans hn) (h.ready hn hp)
  stands hr hp := (h.stands hr hp).imp_right (h'.keeps (h.applies hr))

theorem Part.Carries.trans (h : p.Carries q) (h' : q.Carries r) : p.Carries r := Part.Owes.trans h h'

/-- Later changes owe their own regions. -/
theorem Part.Carries.owes (h : p.Carries q) (h' : Part.Owes owed q r) : Part.Owes owed p r where
  geo := h'.geo.trans h.geo
  nodes := h'.nodes.trans h.nodes
  ready hn hp := h'.ready ((Part.node_of_nodes h.nodes _).trans hn) (h.ready hn hp)
  stands hr hp := h'.stands (Part.Owes.applies h hr) (h.keeps hr hp)

/-- Debts that what follows settles, or leaves as other debts. -/
theorem Part.Owes.partly {left : Regions} (h : Part.Owes owed p q) (h' : q.Carries r) (hsettled : ∀ {j n s}, q.Applies j n s →
    owed j n s → Ready q.disp j s → left j n s ∨ r.composedAt j n s) : Part.Owes left p r where
  geo := h'.geo.trans h.geo
  nodes := h'.nodes.trans h.nodes
  ready hn hp := h'.ready ((Part.node_of_nodes h.nodes _).trans hn) (h.ready hn hp)
  stands hr hp := (h.stands hr hp).elim
    (fun howed => hsettled (h.applies hr) howed (h.ready hr.node (Stands.ready hp))) fun hq => .inr (h'.keeps (h.applies hr) hq)

/-- Debts settled by what follows. -/
theorem Part.Owes.settle (h : Part.Owes owed p q) (h' : q.Carries r) (hsettled : ∀ {j n s}, q.Applies j n s →
    owed j n s → Ready q.disp j s → r.composedAt j n s) : p.Carries r :=
  h.partly h' fun hr howed hready => .inr (hsettled hr howed hready)

end

/-- Other sources and the same records: a region whose sources read the same. -/
theorem Part.composedAt_of_alike {p q : Part} {j : Nat} {n : NodeConfig} {r : Region} (hp : p.composedAt j n r)
    (hr : r ∈ n.regions) (h : Alike p q j n r) (hcmp : q.disp.cmp = p.disp.cmp) : q.composedAt j n r :=
  (h.stands hr hp).of_region (by rw [hcmp])

/-- Other sources and the same records: every region is owed or its sources read the same. -/
theorem Part.Owes.of_alike {owed : Regions} {p q : Part} (hnodes : q.nodes = p.nodes) (hcmp : q.disp.cmp = p.disp.cmp)
    (hgeo : q.geo = p.geo) (h : ∀ {j n r}, p.Applies j n r → p.composedAt j n r → owed j n r ∨ Alike p q j n r) :
    Part.Owes owed p q where
  geo := hgeo
  nodes := hnodes
  ready _ hp := hp.of_region (by rw [hcmp])
  stands hr hp := (h hr hp).imp_right fun halike => Part.composedAt_of_alike hp hr.mem halike hcmp

/-- Sources that read the same everywhere, and the same records. -/
theorem Part.Carries.of_alike {p q : Part} (hnodes : q.nodes = p.nodes) (hcmp : q.disp.cmp = p.disp.cmp)
    (hgeo : q.geo = p.geo) (h : ∀ {j n r}, p.Applies j n r → p.composedAt j n r → Alike p q j n r) : p.Carries q :=
  Part.Owes.of_alike hnodes hcmp hgeo fun hr hp => .inr (h hr hp)

/-- Another display side over the same sources. -/
theorem Part.Carries.disp {p : Part} {d : Disp} (h : Carried p p.disp d) : p.Carries { p with disp := d } where
  geo := rfl
  nodes := rfl
  ready hn hp := h.ready hn hp
  stands hr hp := .inr (Alike.stands (p := p) {} hr.mem (h.stands hr.node hp))

theorem Part.recomposeFor_carries (p : Part) (f : Nat → NodeConfig → List Region) : p.Carries (p.recomposeFor f) :=
  .disp (recomposeAll_carried ..)

theorem mem_targetsOf {p : Part} {f : Nat → NodeConfig → List Region} {j : Nat} {n : NodeConfig} {r : Region}
    (hn : p.node j = some n) (hr : r ∈ f j n) : (j, r, RecomposeMode.plain) ∈ targetsOf p f := by
  refine List.mem_flatMap.mpr ⟨j, List.mem_range.mpr (node_lt_of_some hn), ?_⟩
  rw [hn]
  exact List.mem_map_of_mem (f := fun r => (j, r, RecomposeMode.plain)) hr

/-- What an input of Table 6-4 selects stands afterwards. -/
theorem Part.recomposeFor_stands {p : Part} {f : Nat → NodeConfig → List Region} {j : Nat} {n : NodeConfig} {r : Region}
    (hr : p.Applies j n r) (hin : r ∈ f j n) (h : Ready p.disp j r) : (p.recomposeFor f).composedAt j n r :=
  Alike.stands (p := p) {} hr.mem (recomposeAll_stands hr.node (mem_targetsOf hr.node hin) h)

/-- A change of sources, and the recomposition of every region that reads them otherwise. -/
theorem Part.Carries.of_change {p q : Part} {f : Nat → NodeConfig → List Region} (hnodes : q.nodes = p.nodes)
    (hgeo : q.geo = p.geo) (hcmp : q.disp.cmp = p.disp.cmp)
    (h : ∀ {j n r}, p.Applies j n r → p.composedAt j n r → r ∈ f j n ∨ Alike p q j n r) : p.Carries (q.recomposeFor f) :=
  Part.Owes.settle (owed := fun j n r => r ∈ f j n) (.of_alike hnodes hcmp hgeo h) (q.recomposeFor_carries f)
    Part.recomposeFor_stands

end Sys2Proof.Machine
end

section
/-! SUPPORT. Lookups in the assignment table and the terminal queues (R61, R66), and what of the law of the queues the heads of
the queues need. -/

namespace Sys2Proof.Machine

/-! ### Lookups -/

theorem Part.assignment_mem {p : Part} {n : Nat} {a : Assignment} (h : p.assignment n = some a) : a ∈ p.prm.table :=
  List.mem_of_find?_eq_some h

theorem Part.assignment_number {p : Part} {n : Nat} {a : Assignment} (h : p.assignment n = some a) : a.number = n := by
  simpa using List.find?_some h

theorem Part.assignment_isSome_of_mem {p : Part} {a : Assignment} (h : a ∈ p.prm.table) :
    (p.assignment a.number).isSome = true := by
  rw [Part.assignment, List.find?_isSome]
  exact ⟨a, h, by simp⟩

theorem Part.assignment_of_mem {p : Part} (hnumbers : (p.prm.table.map (·.number)).Nodup) {a : Assignment}
    (h : a ∈ p.prm.table) : p.assignment a.number = some a := by
  obtain ⟨b, hb⟩ := Option.isSome_iff_exists.mp (Part.assignment_isSome_of_mem h)
  rw [hb, List.inj_on_of_nodup_map hnumbers (Part.assignment_mem hb) h (Part.assignment_number hb)]

theorem Part.setAssignment_assignment (p : Part) (n m : Nat) {f : Assignment → Assignment}
    (hf : ∀ a, (f a).number = a.number) :
    (p.setAssignment n f).assignment m = if m = n then (p.assignment m).map f else p.assignment m := by
  have hnumber : ∀ a : Assignment, (if a.number = n then f a else a).number = a.number := fun a => by
    split <;> simp [hf]
  simp only [Part.assignment, Part.setAssignment, List.find?_map, Function.comp_def, hnumber]
  cases hfind : p.prm.table.find? (·.number = m) with
  | none => simp
  | some a =>
    have ha : a.number = m := by simpa using List.find?_some hfind
    by_cases hm : m = n <;> simp [ha, hm]

@[simp] theorem Part.setAssignment_queueOf (p : Part) (n : Nat) (f : Assignment → Assignment) (t : Nat) :
    (p.setAssignment n f).queueOf t = p.queueOf t := rfl

@[simp] theorem Part.setQueue_assignment (p : Part) (t : Nat) (l : List Nat) (n : Nat) :
    (p.setQueue t l).assignment n = p.assignment n := rfl

theorem Part.setQueue_queueOf_other (p : Part) {t j : Nat} (l : List Nat) (h : j ≠ t) :
    (p.setQueue t l).queueOf j = p.queueOf j := by
  have hterminal : ∀ q : PromptQueue, (if q.terminal = t then { q with refs := l } else q).terminal = q.terminal := fun q => by
    split <;> rfl
  simp only [Part.queueOf, Part.setQueue, List.find?_map, Function.comp_def, hterminal]
  cases hfind : p.prm.queues.find? (·.terminal = j) with
  | none => rfl
  | some q =>
    have hq : q.terminal = j := by simpa using List.find?_some hfind
    simp [hq, h]

/-- A queue that is not empty has a terminal of its own to be set. -/
theorem Part.setQueue_queueOf_same (p : Part) (t : Nat) (l : List Nat) :
    (p.setQueue t l).queueOf t = l ∨ (p.setQueue t l).queueOf t = [] ∧ p.queueOf t = [] := by
  have hterminal : ∀ q : PromptQueue, (if q.terminal = t then { q with refs := l } else q).terminal = q.terminal := fun q => by
    split <;> rfl
  simp only [Part.queueOf, Part.setQueue, List.find?_map, Function.comp_def, hterminal]
  cases hfind : p.prm.queues.find? (·.terminal = t) with
  | none => exact .inr ⟨rfl, rfl⟩
  | some q =>
    have hq : q.terminal = t := by simpa using List.find?_some hfind
    simp [hq]

/-! ### The prompt of a terminal's head -/

/-- What an entry shows as head. -/
def Assignment.shownPrompt (a : Assignment) : Option (Nat × Nat × Nat × Bool × Option Estimate) :=
  if a.prompt = .showing then some a.prompted else none

theorem Part.promptHead_eq (p : Part) (j : Nat) :
    p.promptHead j = ((p.queueOf j).head?.bind p.assignment).bind Assignment.shownPrompt := by
  unfold Part.promptHead Part.headOf
  cases p.queueOf j with
  | nil => rfl
  | cons n l =>
    simp only [List.head?_cons, Option.bind_some]
    cases p.assignment n with
    | none => rfl
    | some a =>
      simp only [Option.bind_some, Assignment.shownPrompt]
      split <;> rfl

/-- The same first reference, and an entry that shows the same. -/
theorem promptHead_congr {p q : Part} {j : Nat} (hqueue : (q.queueOf j).head? = (p.queueOf j).head?)
    (h : ∀ m, (p.queueOf j).head? = some m →
      (q.assignment m).bind Assignment.shownPrompt = (p.assignment m).bind Assignment.shownPrompt) :
    q.promptHead j = p.promptHead j := by
  rw [Part.promptHead_eq, Part.promptHead_eq, hqueue]
  cases hhead : (p.queueOf j).head? with
  | none => rfl
  | some m => exact h m hhead

theorem Part.headOf_eq_some {p : Part} {j : Nat} {a : Assignment} (hhead : (p.queueOf j).head? = some a.number)
    (ha : p.assignment a.number = some a) (hshowing : a.prompt = .showing) : p.headOf j = some a := by
  unfold Part.headOf
  cases hqueue : p.queueOf j with
  | nil => simp [hqueue] at hhead
  | cons n l =>
    obtain rfl : n = a.number := by simpa [hqueue] using hhead
    simp [ha, hshowing]

/-! ### Seated references -/

/-- What the queues read of an entry. -/
def Assignment.seat (a : Assignment) : Nat × Nat × PromptState := (a.number, a.terminal, a.prompt)

/-- Numbers are unique, no queue holds a reference twice, and every reference is that of a live entry of the queue's terminal,
QUEUED or, at the head, SHOWING (R61, R66). -/
structure Part.Seated (p : Part) : Prop where
  numbers : (p.prm.table.map (·.number)).Nodup
  once : ∀ t, (p.queueOf t).Nodup
  seat : ∀ {t n}, n ∈ p.queueOf t → ∃ a ∈ p.prm.table, a.number = n ∧ a.terminal = t ∧ a.prompt ≠ .none
    ∧ (a.prompt = .showing → (p.queueOf t).head? = some n)

theorem Part.Seated.congr {p q : Part} (h : p.Seated) (hseats : q.prm.table.map (·.seat) = p.prm.table.map (·.seat))
    (hqueues : ∀ t, q.queueOf t = p.queueOf t) : q.Seated where
  numbers := by
    have hnumbers := congrArg (List.map Prod.fst) hseats
    simp only [List.map_map] at hnumbers
    exact hnumbers ▸ h.numbers
  once t := hqueues t ▸ h.once t
  seat {t n} hn := by
    rw [hqueues] at hn ⊢
    obtain ⟨a, ha, hnumber, hterminal, hprompt, hshowing⟩ := h.seat hn
    have hseat : a.seat ∈ q.prm.table.map (·.seat) := hseats ▸ List.mem_map_of_mem ha
    obtain ⟨b, hb, heq⟩ := List.mem_map.mp hseat
    simp only [Assignment.seat, Prod.mk.injEq] at heq
    obtain ⟨hn', ht', hp'⟩ := heq
    exact ⟨b, hb, hn'.trans hnumber, ht'.trans hterminal, hp' ▸ hprompt, hp' ▸ hshowing⟩

theorem Part.Seated.of_prm {p q : Part} (h : p.Seated) (hprm : q.prm = p.prm) : q.Seated :=
  h.congr (by rw [hprm]) fun t => by rw [Part.queueOf, hprm, Part.queueOf]

/-- The entry of a reference. -/
theorem Part.Seated.entry {p : Part} (h : p.Seated) {t n : Nat} (hn : n ∈ p.queueOf t) :
    ∃ a, p.assignment n = some a ∧ a.terminal = t ∧ a.prompt ≠ .none
      ∧ (a.prompt = .showing → (p.queueOf t).head? = some n) := by
  obtain ⟨a, ha, rfl, hterminal, hprompt, hshowing⟩ := h.seat hn
  exact ⟨a, Part.assignment_of_mem h.numbers ha, hterminal, hprompt, hshowing⟩

/-- An entry without a prompt stands in no queue. -/
theorem Part.Seated.not_mem {p : Part} (h : p.Seated) {a : Assignment} (ha : p.assignment a.number = some a)
    (hprompt : a.prompt = .none) (t : Nat) : a.number ∉ p.queueOf t := by
  intro hn
  obtain ⟨b, hb, -, hsome, -⟩ := h.entry hn
  rw [ha, Option.some.injEq] at hb
  exact hsome (hb ▸ hprompt)

/-- A change of one entry's other items. -/
theorem Part.Seated.setAssignment {p : Part} (h : p.Seated) (n : Nat) {f : Assignment → Assignment}
    (hf : ∀ a, (f a).seat = a.seat) : (p.setAssignment n f).Seated := by
  refine h.congr ?_ fun t => rfl
  simp only [Part.setAssignment, List.map_map]
  refine List.map_congr_left fun a _ => ?_
  simp only [Function.comp_apply]
  split
  · exact hf a
  · rfl

/-- The law of the queues seats every reference. -/
theorem Part.queueLaw.seated {p : Part} (h : p.queueLaw) : p.Seated := by
  obtain ⟨hnumbers, -, -, -, hqueues⟩ := h
  have found : ∀ {t}, p.queueOf t = [] ∨ ∃ q ∈ p.prm.queues, q.terminal = t ∧ p.queueOf t = q.refs := by
    intro t
    unfold Part.queueOf
    cases hfind : p.prm.queues.find? (·.terminal = t) with
    | none => exact .inl rfl
    | some q => exact .inr ⟨q, List.mem_of_find?_eq_some hfind, by simpa using List.find?_some hfind, rfl⟩
  refine ⟨hnumbers, fun t => ?_, fun {t n} hn => ?_⟩
  · obtain hnil | ⟨q, hq, -, hrefs⟩ := found (t := t)
    · rw [hnil]
      exact List.nodup_nil
    · rw [hrefs]
      exact (hqueues q hq).2.1
  · obtain hnil | ⟨q, hq, rfl, hrefs⟩ := found (t := t)
    · simp [hnil] at hn
    · obtain ⟨-, -, hprompts, hlive, hshows⟩ := hqueues q hq
      rw [hrefs] at hn ⊢
      obtain ⟨a, ha, rfl, hterminal⟩ := hlive n hn
      exact ⟨a, ha, rfl, hterminal, (hprompts a ha hterminal).mpr hn, (hshows a ha hterminal).mp⟩

end Sys2Proof.Machine
end

section
/-! SUPPORT. Which operations of RPT, CMP and ARR leave every standing region standing (R41 to R58, R119). -/

namespace Sys2Proof.Machine

/-! ### Relations between the part before and after an operation -/

/-- Seated references stay seated, and no standing region falls. -/
def Part.Upholds (p q : Part) : Prop := p.Seated → q.Seated ∧ p.Carries q

theorem Part.Upholds.refl (p : Part) : p.Upholds p := fun h => ⟨h, .refl p⟩

theorem Part.Upholds.trans {p q r : Part} (h : p.Upholds q) (h' : q.Upholds r) : p.Upholds r := fun hp =>
  have ⟨hq, hcarries⟩ := h hp
  have ⟨hr, hcarries'⟩ := h' hq
  ⟨hr, hcarries.trans hcarries'⟩

theorem Part.Upholds.foldl {β : Type} {f : Part → β → Part} (h : ∀ (q : Part) (x : β), q.Upholds (f q x)) (l : List β)
    (p : Part) : p.Upholds (l.foldl f p) := by
  induction l generalizing p with
  | nil => exact .refl p
  | cons x l ih => exact (h p x).trans (ih _)

theorem Part.Upholds.ite {p q r : Part} {c : Prop} [Decidable c] (hq : p.Upholds q) (hr : p.Upholds r) :
    p.Upholds (if c then q else r) := by
  split
  · exact hq
  · exact hr

/-- An operation that leaves PRM. -/
theorem Part.Carries.upholds {p q : Part} (h : p.Carries q) (hprm : q.prm = p.prm) : p.Upholds q := fun hp =>
  ⟨hp.of_prm hprm, h⟩

/-- It upholds, and leaves what `frame` names. -/
structure Part.Serves {φ : Type} (frame : Part → φ) (p q : Part) : Prop where
  frame : frame q = frame p
  upholds : p.Upholds q

theorem Part.Serves.refl {φ : Type} (frame : Part → φ) (p : Part) : Part.Serves frame p p := ⟨rfl, .refl p⟩

theorem Part.Serves.trans {φ : Type} {frame : Part → φ} {p q r : Part} (h : Part.Serves frame p q)
    (h' : Part.Serves frame q r) : Part.Serves frame p r := ⟨h'.frame.trans h.frame, h.upholds.trans h'.upholds⟩

theorem Part.Serves.foldl {φ β : Type} {frame : Part → φ} {f : Part → β → Part}
    (h : ∀ (q : Part) (x : β), Part.Serves frame q (f q x)) (l : List β) (p : Part) : Part.Serves frame p (l.foldl f p) :=
  ⟨foldl_keeps frame (fun q x => (h q x).frame) l p, .foldl (fun q x => (h q x).upholds) l p⟩

theorem Part.Serves.ite {φ : Type} {frame : Part → φ} {p q r : Part} {c : Prop} [Decidable c] (hq : Part.Serves frame p q)
    (hr : Part.Serves frame p r) : Part.Serves frame p (if c then q else r) := by
  split
  · exact hq
  · exact hr

/-- What ARR may not change. -/
def Part.arrFrame (p : Part) := (p.base, p.trk, p.text)

/-- What PRM may not change. -/
def Part.prmFrame (p : Part) := (p.arrFrame, p.arr)

theorem Part.onlyArr_of_frame {p q : Part} (h : q.arrFrame = p.arrFrame) : p.onlyArr q = q := by
  cases p
  cases q
  simp only [Part.arrFrame, Part.base, Part.text, Prod.mk.injEq] at h
  simp [Part.onlyArr, h]

theorem Part.onlyPrm_of_frame {p q : Part} (h : q.prmFrame = p.prmFrame) : p.onlyPrm q = q := by
  cases p
  cases q
  simp only [Part.prmFrame, Part.arrFrame, Part.base, Part.text, Prod.mk.injEq] at h
  simp [Part.onlyPrm, h]

theorem Part.Serves.arr {p q : Part} (h : Part.Serves Part.prmFrame p q) : Part.Serves Part.arrFrame p q :=
  ⟨congrArg Prod.fst h.frame, h.upholds⟩

theorem Part.Serves.onlyArr {p q : Part} (h : Part.Serves Part.arrFrame p q) : Part.Serves Part.arrFrame p (p.onlyArr q) := by
  rwa [Part.onlyArr_of_frame h.frame]

/-- An operation of ARR that PRM calls. -/
theorem Part.Serves.onlyHeld {p q : Part} (h : Part.Serves Part.prmFrame p q) : Part.Serves Part.prmFrame p (p.onlyArr q) := by
  rwa [Part.onlyArr_of_frame h.arr.frame]

theorem Part.Serves.onlyPrm {p q : Part} (h : Part.Serves Part.prmFrame p q) : Part.Serves Part.prmFrame p (p.onlyPrm q) := by
  rwa [Part.onlyPrm_of_frame h.frame]

/-! ### RPT and CMP -/

theorem Part.onRpt_carries (p : Part) (f : Rpt → Rpt) : p.Carries (p.onRpt f) := .disp (.of_cmp rfl)

theorem Part.onRpt_upholds (p : Part) (f : Rpt → Rpt) : p.Upholds (p.onRpt f) := (p.onRpt_carries f).upholds rfl

theorem Part.report_upholds (p : Part) (w : Word × Word) : p.Upholds (p.report w) := p.onRpt_upholds _

theorem Part.count_upholds (p : Part) (c : CounterId) (n : Nat) : p.Upholds (p.count c n) := p.onRpt_upholds _

theorem Part.status_upholds (p : Part) (i : Nat) (f : List Word) : p.Upholds (p.status i f) := p.onRpt_upholds _

theorem Part.recomposeFor_upholds (p : Part) (f : Nat → NodeConfig → List Region) : p.Upholds (p.recomposeFor f) :=
  (p.recomposeFor_carries f).upholds rfl

theorem NodeConfig.terminal_of_prompt {n : NodeConfig} (h : .prompt ∈ n.regions) : n.type = .terminal := by
  unfold NodeConfig.regions at h
  cases htype : n.type with
  | terminal => rfl
  | hallLantern =>
    rw [htype] at h
    simp only at h
    split at h <;> simp at h
  | carPanel | lobbyBoard =>
    rw [htype] at h
    simp at h

theorem Part.cmpHeadChange_stands {q : Part} {j : Nat} {n : NodeConfig} (hr : q.Applies j n .prompt)
    (h : Ready q.disp j .prompt) : (q.cmpHeadChange j).composedAt j n .prompt :=
  Part.recomposeFor_stands hr (by simp [NodeConfig.terminal_of_prompt hr.mem]) h

theorem Part.cmpEstimateChange_eq {p : Part} {n : Nat} {a : Assignment} (ha : p.assignment n = some a)
    (hhead : p.headOf a.terminal = some a) : p.cmpEstimateChange n = p.cmpHeadChange a.terminal := by
  simp [Part.cmpEstimateChange, ha, hhead, Part.assignment_number ha]

theorem Part.cmpEstimateChange_carries (p : Part) (n : Nat) : p.Carries (p.cmpEstimateChange n) := by
  unfold Part.cmpEstimateChange
  split
  · exact .refl p
  · split
    · exact p.recomposeFor_carries _
    · exact .refl p

/-! ### Prompts and trip lists owed -/

/-- The PROMPT regions whose head reads otherwise in `q`. -/
def Part.promptOwed (p q : Part) : Regions := fun j _ r => r = .prompt ∧ q.promptHead j ≠ p.promptHead j

/-- The TRIP regions whose list reads otherwise in `q`. -/
def Part.tripOwed (p q : Part) : Regions := fun _ n r =>
  r = .trip ∧ q.tripShown n.car n.deck n.floor ≠ p.tripShown n.car n.deck n.floor

/-- What a change of PRM owes. -/
theorem Part.owes_of_prm {p q : Part} (h : { p with prm := q.prm } = q) :
    Part.Owes (fun j n r => p.promptOwed q j n r ∨ p.tripOwed q j n r) p q := by
  generalize q.prm = x at h
  subst h
  refine .of_alike rfl rfl rfl fun {j n r} _ _ => ?_
  by_cases hprompt : p.promptOwed { p with prm := x } j n r
  · exact .inl (.inl hprompt)
  · by_cases htrip : p.tripOwed { p with prm := x } j n r
    · exact .inl (.inr htrip)
    · exact .inr {
        head := fun hr => by_contra fun h => hprompt ⟨hr, h⟩
        trip := fun hr => by_contra fun h => htrip ⟨hr, h⟩ }

/-- A change of PRM that leaves the trip lists. -/
theorem Part.owes_of_legs {p q : Part} (h : { p with prm := q.prm } = q) (hlegs : q.legs = p.legs) :
    Part.Owes (p.promptOwed q) p q where
  geo := (Part.owes_of_prm h).geo
  nodes := (Part.owes_of_prm h).nodes
  ready := (Part.owes_of_prm h).ready
  stands {j n r} hr hp := by
    obtain (hprompt | htrip) | hstands := (Part.owes_of_prm h).stands hr hp
    · exact .inl hprompt
    · exact absurd (tripShown_of_legs (Part.owes_of_prm h).geo hlegs ..) htrip.2
    · exact .inr hstands

theorem Part.setAssignment_legs (p : Part) (n : Nat) {f : Assignment → Assignment} (hf : ∀ a, (f a).leg = a.leg) :
    (p.setAssignment n f).legs = p.legs := by
  simp only [Part.legs, Part.setAssignment, List.map_map]
  refine List.map_congr_left fun a _ => ?_
  simp only [Function.comp_apply]
  split
  · exact hf a
  · rfl

/-- A change of one entry shows in the prompt of the terminal whose queue it heads. -/
theorem Part.setAssignment_promptHead_ne {p : Part} {n j : Nat} {f : Assignment → Assignment}
    (hf : ∀ a, (f a).number = a.number) (h : (p.setAssignment n f).promptHead j ≠ p.promptHead j) :
    (p.queueOf j).head? = some n ∧ ∃ a, p.assignment n = some a ∧ (f a).shownPrompt ≠ a.shownPrompt := by
  by_contra hnot
  refine h (promptHead_congr rfl fun m hm => ?_)
  rw [p.setAssignment_assignment n m hf]
  split
  · next heq =>
    subst heq
    cases ha : p.assignment m with
    | none => rfl
    | some a => exact by_contra fun hne => hnot ⟨hm, a, ha, hne⟩
  · rfl

/-! ### Held values (R43, R48, R49) -/

/-- The entry with a held value. -/
def Assignment.holding (e : Estimate) (a : Assignment) : Assignment := { a with estimate := some e }

theorem Part.setHeld_eq (p : Part) (n : Nat) (old : Option Estimate) (new : Estimate) :
    p.setHeld n old new = if old = some new then p.setAssignment n (·.holding new)
      else (p.setAssignment n (·.holding new)).cmpEstimateChange n := rfl

theorem Assignment.shownPrompt_holding_ne {a : Assignment} {e : Estimate} (h : (a.holding e).shownPrompt ≠ a.shownPrompt) :
    a.prompt = .showing ∧ a.estimate ≠ some e := by
  refine ⟨by_contra fun hprompt => h ?_, fun he => h ?_⟩
  · simp [Assignment.shownPrompt, Assignment.holding, hprompt]
  · rw [Assignment.holding, ← he]

/-- A held value that changes is handed to CMP (R49). -/
theorem Part.setHeld_serves (p : Part) (n : Nat) {old : Option Estimate} {new : Estimate}
    (hold : old = some new → ∀ a, p.assignment n = some a → a.estimate = some new) :
    Part.Serves Part.prmFrame p (p.setHeld n old new) := by
  have hnumber : ∀ a : Assignment, (a.holding new).number = a.number := fun _ => rfl
  have hset := Part.owes_of_legs (p := p) (q := p.setAssignment n (·.holding new)) rfl (p.setAssignment_legs n fun _ => rfl)
  have hseated := fun hp : p.Seated => hp.setAssignment n (f := (·.holding new)) fun _ => rfl
  rw [Part.setHeld_eq]
  split
  · next hsame =>
    refine ⟨rfl, fun hp => ⟨hseated hp, hset.carries fun hr howed _ => ?_⟩⟩
    obtain ⟨-, a, ha, hne⟩ := Part.setAssignment_promptHead_ne hnumber howed.2
    exact absurd (hold hsame a ha) (Assignment.shownPrompt_holding_ne hne).2
  · refine ⟨by simp [Part.prmFrame, Part.arrFrame], fun hp =>
      ⟨(hseated hp).of_prm (Part.cmpEstimateChange_prm ..),
        hset.settle (Part.cmpEstimateChange_carries _ n) fun {j m r} hr howed hready => ?_⟩⟩
    obtain ⟨rfl, hne⟩ := howed
    obtain ⟨hhead, a, ha, hne⟩ := Part.setAssignment_promptHead_ne hnumber hne
    obtain ⟨hshowing, -⟩ := Assignment.shownPrompt_holding_ne hne
    obtain ⟨b, hb, rfl, -⟩ := hp.entry (List.mem_of_head? hhead)
    obtain rfl : a = b := Option.some.inj (ha.symm.trans hb)
    obtain rfl := Part.assignment_number ha
    have ha' : (p.setAssignment a.number (·.holding new)).assignment a.number = some (a.holding new) := by
      rw [p.setAssignment_assignment _ _ hnumber, if_pos rfl, ha, Option.map_some]
    rw [Part.cmpEstimateChange_eq ha' (Part.headOf_eq_some hhead ha' hshowing)]
    exact Part.cmpHeadChange_stands hr hready

theorem Part.promptEstimate_serves (p : Part) (n : Nat) (fresh : Bool) :
    Part.Serves Part.prmFrame p (p.promptEstimate n fresh) := by
  refine Part.Serves.onlyHeld ?_
  split
  · exact .refl _ p
  · next a ha =>
    split
    · exact .refl _ p
    · have hold : ∀ new, (if fresh then none else a.estimate) = some new →
          ∀ b, p.assignment n = some b → b.estimate = some new := by
        intro new hnew b hb
        obtain rfl : a = b := Option.some.inj (ha.symm.trans hb)
        cases fresh with
        | false => exact hnew
        | true => cases hnew
      simp only
      split
      · exact Part.Serves.trans (q := p.count .estimateClamp 1) ⟨rfl, p.onRpt_upholds _⟩ (Part.setHeld_serves _ n (hold _))
      · exact p.setHeld_serves n (hold _)

/-! ### Lanterns (R51 to R57) -/

/-- What CMP reads of a lantern, and the key it is found by. -/
def Lantern.glow (l : Lantern) : (Nat × Nat × Nat) × LanternState × Direction := ((l.car, l.deck, l.floor), l.state, l.shown)

/-- The first glow of a key. -/
def lampOf (glows : List ((Nat × Nat × Nat) × LanternState × Direction)) (c d f : Nat) : Option (LanternState × Direction) :=
  (glows.find? fun g => g.1.1 = c && g.1.2.1 = d && g.1.2.2 = f).map (·.2)

theorem Part.lamp_eq (p : Part) (c d f : Nat) : p.lamp c d f = lampOf (p.arr.lanterns.map Lantern.glow) c d f := by
  unfold Part.lamp Part.lantern lampOf
  rw [List.find?_map, Option.map_map]
  rfl

theorem find?_set_of_false {α : Type} {P : α → Bool} {x y : α} (hx : P x = false) (hy : P y = false) {l : List α} {i : Nat}
    (hi : l[i]? = some y) : (l.set i x).find? P = l.find? P := by
  induction l generalizing i with
  | nil => rfl
  | cons z l ih =>
    cases i with
    | zero =>
      obtain rfl : z = y := by simpa using hi
      simp [hx, hy]
    | succ i => simp [List.find?_cons, ih (by simpa using hi)]

/-- A lantern replaced by one of the same glow. -/
theorem Part.setLantern_carries {p : Part} {i : Nat} {l x : Lantern} (hi : p.arr.lanterns[i]? = some l)
    (h : x.glow = l.glow) : p.Carries (p.setLantern i x) := by
  have hglows : (p.arr.lanterns.set i x).map Lantern.glow = p.arr.lanterns.map Lantern.glow := by
    refine map_set_of_same Lantern.glow (dflt := x) ?_
    rw [List.getD_eq_getElem?_getD, hi, Option.getD_some, h]
  exact .of_alike rfl rfl rfl fun _ _ => { lamp := fun _ _ => by rw [Part.lamp_eq, Part.lamp_eq, Part.setLantern, hglows] }

theorem Part.cmpLanternChange_stands {q : Part} {c d f : Nat} {j : Nat} {n : NodeConfig} {r : Region} (hr : q.Applies j n r)
    (hn : n.isLanternOf c d f = true) (hregion : r = .arrow ∨ r = .trip) (chime : Nat) (h : Ready q.disp j r) :
    (q.cmpLanternChange c d f chime).composedAt j n r := by
  have hin : (j, r, RecomposeMode.plain) ∈ targetsOf q fun _ n => if n.isLanternOf c d f then [.arrow, .trip] else [] :=
    mem_targetsOf hr.node (by simpa [hn] using hregion)
  have hmapped := List.mem_map_of_mem (f := fun t : Target =>
    if t.2.1 = .arrow then (t.1, t.2.1, { RecomposeMode.plain with chime := chime }) else t) hin
  simp only at hmapped
  split at hmapped
  · exact Alike.stands (p := q) {} hr.mem (recomposeAll_stands hr.node hmapped h)
  · exact Alike.stands (p := q) {} hr.mem (recomposeAll_stands hr.node hmapped h)

/-- A lantern changed under its key, its ARROW and TRIP recomposed (R53, R57). -/
theorem Part.changeLantern_serves {p : Part} {i : Nat} {l x : Lantern} (hi : p.arr.lanterns[i]? = some l)
    (hkey : x.glow.1 = l.glow.1) (chime : Nat) : Part.Serves Part.arrFrame p (p.changeLantern i x chime) := by
  have howes : Part.Owes (fun _ n r => n.isLanternOf x.car x.deck x.floor = true ∧ (r = .arrow ∨ r = .trip)) p
      (p.setLantern i x) := by
    refine .of_alike rfl rfl rfl fun {j n r} _ _ => ?_
    by_cases howed : n.isLanternOf x.car x.deck x.floor = true ∧ (r = .arrow ∨ r = .trip)
    · exact .inl howed
    · refine .inr { lamp := fun hn hr => ?_ }
      have hother : ¬(x.car = n.car ∧ x.deck = n.deck ∧ x.floor = n.floor) := fun hx =>
        howed ⟨by simp [NodeConfig.isLanternOf, hn, hx], hr⟩
      simp only [Lantern.glow, Prod.mk.injEq] at hkey
      refine congrArg (Option.map fun l => (l.state, l.shown)) (find?_set_of_false (y := l) ?_ ?_ hi)
      · simpa [and_assoc] using hother
      · simpa [and_assoc, ← hkey] using hother
  refine ⟨rfl, Part.Carries.upholds (howes.settle (.disp (recomposeAll_carried ..)) fun hr howed hready => ?_) rfl⟩
  exact Part.cmpLanternChange_stands hr howed.1 howed.2 chime hready

/-- A lantern's hold or estimate. -/
theorem Part.setLantern_serves {p : Part} {i : Nat} {l x : Lantern} (hi : p.arr.lanterns[i]? = some l)
    (h : x.glow = l.glow) : Part.Serves Part.arrFrame p (p.setLantern i x) :=
  ⟨rfl, (Part.setLantern_carries hi h).upholds rfl⟩

theorem Part.lanternDarken_serves (p : Part) (i : Nat) : Part.Serves Part.arrFrame p (p.lanternDarken i) := by
  unfold Part.lanternDarken
  split
  · exact .refl _ p
  · next l hi => exact .ite (Part.changeLantern_serves hi (by rfl) 0) (.refl _ p)

theorem Part.lanternTurn_serves (p : Part) (i : Nat) : Part.Serves Part.arrFrame p (p.lanternTurn i) := by
  unfold Part.lanternTurn
  split
  · exact .refl _ p
  · next l hi => exact .ite (Part.changeLantern_serves hi (by rfl) 0) (.refl _ p)

theorem Part.lanternLight_serves (p : Part) (i : Nat) : Part.Serves Part.arrFrame p (p.lanternLight i) := by
  unfold Part.lanternLight
  split
  · exact .refl _ p
  · next l hi =>
    have lit : ∀ st, Part.Serves Part.arrFrame p (p.lightLantern i l st) := fun st => Part.changeLantern_serves hi (by rfl) _
    exact .ite (Part.setLantern_serves hi (by rfl)) (.ite (.ite (lit _) (.ite (lit _) (.refl _ p))) (.refl _ p))

/-- Lanterns of the same glow. -/
theorem Part.lanterns_carries {p : Part} {x : Arr} (h : x.lanterns.map Lantern.glow = p.arr.lanterns.map Lantern.glow) :
    p.Carries { p with arr := x } :=
  .of_alike rfl rfl rfl fun _ _ => { lamp := fun _ _ => by rw [Part.lamp_eq, Part.lamp_eq, h] }

theorem Part.lanternConsumer_serves (p : Part) (c d : Nat) : Part.Serves Part.arrFrame p (p.lanternConsumer c d) := by
  have mapped : ∀ (q : Part) (g : Lantern → Lantern), (∀ l, (g l).glow = l.glow) →
      Part.Serves Part.arrFrame q { q with arr := { q.arr with lanterns := q.arr.lanterns.map g } } := fun q g hg =>
    ⟨rfl, (Part.lanterns_carries (by simp [Function.comp_def, hg])).upholds rfl⟩
  unfold Part.lanternConsumer
  split
  · refine mapped p _ fun l => ?_
    split <;> rfl
  · have counted : Part.Serves Part.arrFrame p (p.count .estimateClamp 1) := ⟨rfl, p.onRpt_upholds _⟩
    refine (Part.Serves.ite counted (.refl _ p)).trans (mapped _ _ fun l => ?_)
    split
    · split <;> rfl
    · rfl

theorem Part.evaluateDeckLanterns_serves (p : Part) (c d : Nat) :
    Part.Serves Part.arrFrame p (p.evaluateDeckLanterns c d) :=
  (p.lanternConsumer_serves c d).trans (.foldl (fun q i => ((q.lanternDarken_serves i).trans
    (Part.lanternTurn_serves _ i)).trans (Part.lanternLight_serves _ i)) _ _)

theorem Part.arrEvaluation_serves (p : Part) (c : Nat) : Part.Serves Part.arrFrame p (p.arrEvaluation c) :=
  .onlyArr ((Part.Serves.foldl (fun q d => q.evaluateDeckLanterns_serves c d) _ p).trans
    (.foldl (fun q n => (q.promptEstimate_serves n false).arr) _ _))

theorem Part.arrArrival_serves (p : Part) (c d f : Nat) : Part.Serves Part.arrFrame p (p.arrArrival c d f) := by
  refine .onlyArr (.foldl (fun q i => ?_) _ p)
  split
  · exact .refl _ q
  · next l hi =>
    simp only
    split
    · exact .ite (Part.changeLantern_serves hi (by rfl) _) (Part.setLantern_serves hi (by rfl))
    · exact Part.changeLantern_serves hi (by rfl) _
    · exact Part.setLantern_serves hi (by rfl)

theorem Part.arrDeparture_serves (p : Part) (c d f : Nat) : Part.Serves Part.arrFrame p (p.arrDeparture c d f) := by
  refine .onlyArr (.foldl (fun q i => ?_) _ p)
  split
  · exact .refl _ q
  · next l hi => exact .ite (Part.setLantern_serves hi (by rfl)) (Part.changeLantern_serves hi (by rfl) _)

/-! ### A withdrawn car's estimates (R50) -/

theorem Part.withdrawLantern_serves (q : Part) (i : Nat) : Part.Serves Part.arrFrame q (q.withdrawLantern i) := by
  unfold Part.withdrawLantern
  split
  · exact .refl _ q
  · next l hi => exact .ite (Part.setLantern_serves hi (by rfl)) (Part.changeLantern_serves hi (by rfl) _)

theorem Part.withdrawLanterns_serves (p : Part) (c : Nat) : Part.Serves Part.arrFrame p (p.withdrawLanterns c) :=
  Part.Serves.trans (q := { p with arr := { p.arr with withdrawn := p.arr.withdrawn.set c true } })
    ⟨rfl, Part.Carries.upholds (Part.lanterns_carries rfl) rfl⟩ (.foldl (fun q i => q.withdrawLantern_serves i) _ _)

/-- A held value is set in the entry of its number alone. -/
theorem Part.setHeld_assignment (p : Part) (n m : Nat) (old : Option Estimate) (new : Estimate) :
    (p.setHeld n old new).assignment m = if m = n then (p.assignment m).map (·.holding new) else p.assignment m := by
  rw [← p.setAssignment_assignment n m (f := (·.holding new)) fun _ => rfl, Part.setHeld_eq]
  split
  · rfl
  · rw [Part.assignment, Part.cmpEstimateChange_prm, Part.assignment]

/-- Estimates that become NONE, one entry after the other. -/
theorem Part.setHeld_none_serves {l : List Assignment} {p : Part}
    (h : ∀ a ∈ l, a.estimate = some .none → ∀ b, p.assignment a.number = some b → b.estimate = some .none) :
    Part.Serves Part.prmFrame p (l.foldl (fun q a => q.setHeld a.number a.estimate .none) p) := by
  induction l generalizing p with
  | nil => exact .refl _ p
  | cons a l ih =>
    refine (p.setHeld_serves a.number (h a (List.mem_cons_self ..))).trans (ih fun x hx hnone b hb => ?_)
    rw [Part.setHeld_assignment] at hb
    split at hb
    · obtain ⟨y, -, rfl⟩ := Option.map_eq_some_iff.mp hb
      rfl
    · exact h x (List.mem_cons_of_mem _ hx) hnone b hb

theorem Part.arrWithdraw_upholds (p : Part) (c : Nat) : p.Upholds (p.arrWithdraw c) := by
  have hlanterns := p.withdrawLanterns_serves c
  intro hp
  obtain ⟨hseated, -⟩ := hlanterns.upholds hp
  have hheld := Part.setHeld_none_serves (p := p.withdrawLanterns c)
    (l := (p.withdrawLanterns c).prm.table.filter fun a => a.car = c && a.prompt ≠ .none) fun a ha hnone b hb => by
      rw [Part.assignment_of_mem hseated.numbers (List.mem_of_mem_filter ha), Option.some.injEq] at hb
      exact hb ▸ hnone
  rw [Part.arrWithdraw_eq]
  exact (hlanterns.trans hheld.arr).onlyArr.upholds hp

theorem Part.arrReturn_upholds (p : Part) (c : Nat) : p.Upholds (p.arrReturn c) :=
  Part.Carries.upholds (Part.lanterns_carries rfl) rfl

end Sys2Proof.Machine
end

section
/-! SUPPORT. A new head and the end of a showing leave every standing region standing, or have it recomposed (R66 to R70). -/

namespace Sys2Proof.Machine

/-! ### Seated references from entries -/

/-- Every reference has its entry. -/
theorem Part.Seated.of_entries {q : Part} (hnumbers : (q.prm.table.map (·.number)).Nodup) (honce : ∀ t, (q.queueOf t).Nodup)
    (h : ∀ {t n}, n ∈ q.queueOf t → ∃ a, q.assignment n = some a ∧ a.terminal = t ∧ a.prompt ≠ .none
      ∧ (a.prompt = .showing → (q.queueOf t).head? = some n)) : q.Seated :=
  ⟨hnumbers, honce, fun hn =>
    have ⟨a, ha, hrest⟩ := h hn
    ⟨a, Part.assignment_mem ha, Part.assignment_number ha, hrest⟩⟩

theorem Part.setAssignment_numbers (p : Part) (n : Nat) {f : Assignment → Assignment} (hf : ∀ a, (f a).number = a.number) :
    (p.setAssignment n f).prm.table.map (·.number) = p.prm.table.map (·.number) := by
  simp only [Part.setAssignment, List.map_map]
  refine List.map_congr_left fun a _ => ?_
  simp only [Function.comp_apply]
  split
  · exact hf a
  · rfl

/-- A reference stands in the queue of its entry's terminal. -/
theorem Part.Seated.terminal_unique {p : Part} (h : p.Seated) {n j t : Nat} (hj : n ∈ p.queueOf j) (ht : n ∈ p.queueOf t) :
    j = t := by
  obtain ⟨a, ha, rfl, -⟩ := h.entry hj
  obtain ⟨b, hb, rfl, -⟩ := h.entry ht
  rw [Option.some.inj (ha.symm.trans hb)]

theorem Part.promptHead_eq_none {q : Part} {t : Nat}
    (h : ∀ m a, (q.queueOf t).head? = some m → q.assignment m = some a → a.prompt ≠ .showing) : q.promptHead t = none := by
  rw [Part.promptHead_eq]
  cases hhead : (q.queueOf t).head? with
  | none => rfl
  | some m =>
    cases ha : q.assignment m with
    | none => simp [ha]
    | some a => simp [ha, Assignment.shownPrompt, h m a hhead ha]

theorem Part.promptHead_of_prm {p q : Part} (h : q.prm = p.prm) (j : Nat) : q.promptHead j = p.promptHead j := by
  unfold Part.promptHead Part.headOf Part.queueOf Part.assignment
  rw [h]

/-! ### A new head (R69) -/

/-- The entry as head. -/
def Assignment.heading (until' : Time) (a : Assignment) : Assignment := { a with prompt := .showing, deadline := some until' }

theorem Part.becomeHead_of_queued {p : Part} {t n : Nat} {rest : List Nat} {a : Assignment} (hqueue : p.queueOf t = n :: rest)
    (ha : p.assignment n = some a) (hqueued : a.prompt = .queued) :
    ∃ time, p.becomeHead t = (p.setAssignment n (·.heading time)).cmpHeadChange t := by
  unfold Part.becomeHead
  simp only [hqueue, ha, hqueued]
  exact ⟨_, rfl⟩

/-- A head that becomes SHOWING shows at its own terminal. -/
theorem Part.Seated.heading_promptHead {p : Part} (h : p.Seated) {t n : Nat} (ht : n ∈ p.queueOf t) (time : Time) {j : Nat}
    (hj : j ≠ t) : (p.setAssignment n (·.heading time)).promptHead j = p.promptHead j := by
  by_contra hne
  obtain ⟨hhead, -⟩ := Part.setAssignment_promptHead_ne (f := (·.heading time)) (fun _ => rfl) hne
  exact hj (h.terminal_unique (List.mem_of_head? hhead) ht)

theorem Part.Seated.heading {p : Part} (h : p.Seated) {t n : Nat} (ht : (p.queueOf t).head? = some n) (time : Time) :
    (p.setAssignment n (·.heading time)).Seated := by
  have hnumbers := p.setAssignment_numbers n (f := (·.heading time)) fun _ => rfl
  refine .of_entries (hnumbers ▸ h.numbers) h.once fun {j m} hm => ?_
  obtain ⟨a, ha, hterminal, hprompt, hshowing⟩ := h.entry hm
  rw [p.setAssignment_assignment n m (f := (·.heading time)) fun _ => rfl, ha]
  split
  · next heq =>
    subst heq
    obtain rfl := h.terminal_unique hm (List.mem_of_head? ht)
    exact ⟨_, rfl, hterminal, nofun, fun _ => ht⟩
  · exact ⟨a, rfl, hterminal, hprompt, hshowing⟩

theorem Part.becomeHead_serves (p : Part) (t : Nat) : Part.Serves Part.prmFrame p (p.becomeHead t) := by
  cases hqueue : p.queueOf t with
  | nil =>
    have heq : p.becomeHead t = p.cmpHeadChange t := by simp [Part.becomeHead, hqueue]
    rw [heq]
    exact ⟨rfl, p.recomposeFor_upholds _⟩
  | cons n rest =>
    have hhead : (p.queueOf t).head? = some n := by rw [hqueue, List.head?_cons]
    by_cases hqueued : (p.assignment n).map (·.prompt) = some .queued
    · obtain ⟨a, ha, hprompt⟩ := Option.map_eq_some_iff.mp hqueued
      obtain ⟨time, heq⟩ := Part.becomeHead_of_queued hqueue ha hprompt
      rw [heq]
      refine ⟨rfl, fun hp => ⟨(hp.heading hhead time).of_prm rfl,
        (Part.owes_of_legs rfl (p.setAssignment_legs n (f := (·.heading time)) fun _ => rfl)).settle
          (Part.recomposeFor_carries _ _) fun {j m r} hr howed hready => ?_⟩⟩
      obtain ⟨rfl, hne⟩ := howed
      obtain rfl : j = t := by_contra fun hj => hne (hp.heading_promptHead (List.mem_of_head? hhead) time hj)
      exact Part.cmpHeadChange_stands hr hready
    · have heq : p.becomeHead t = p := by
        unfold Part.becomeHead
        rw [hqueue]
        cases ha : p.assignment n with
        | none => simp [ha]
        | some a => simp_all
      rw [heq]
      exact .refl _ p

/-- A queue without a head shows its new one, or none, afterwards. -/
theorem Part.Seated.becomeHead_stands {p : Part} (h : p.Seated) {t : Nat} (hnone : p.promptHead t = none) {n : NodeConfig}
    (hr : p.Applies t n .prompt) (hready : Ready p.disp t .prompt) : (p.becomeHead t).composedAt t n .prompt := by
  cases hqueue : p.queueOf t with
  | nil =>
    have heq : p.becomeHead t = p.cmpHeadChange t := by simp [Part.becomeHead, hqueue]
    rw [heq]
    exact Part.cmpHeadChange_stands hr hready
  | cons m rest =>
    obtain ⟨a, ha, -, hprompt, -⟩ := h.entry (t := t) (n := m) (by simp [hqueue])
    have hqueued : a.prompt = .queued := by
      rw [Part.promptHead_eq, hqueue] at hnone
      cases hp : a.prompt with
      | queued => rfl
      | none => exact absurd hp hprompt
      | showing => simp [ha, Assignment.shownPrompt, hp] at hnone
    obtain ⟨time, heq⟩ := Part.becomeHead_of_queued hqueue ha hqueued
    rw [heq]
    exact Part.cmpHeadChange_stands (q := p.setAssignment m (·.heading time)) (hr.congr (by rfl) (by rfl)) hready

/-- No other terminal's head changes. -/
theorem Part.Seated.becomeHead_promptHead {p : Part} (h : p.Seated) {t j : Nat} (hj : j ≠ t) :
    (p.becomeHead t).promptHead j = p.promptHead j := by
  unfold Part.becomeHead
  split
  · rfl
  · next n rest hqueue =>
    split
    · rfl
    · simp only
      split
      · exact h.heading_promptHead (t := t) (by simp [hqueue]) _ hj
      · rfl

/-! ### The end of a showing (R68, R70) -/

/-- The entry without a prompt and without a held value. -/
def Assignment.ended (a : Assignment) : Assignment := { a with prompt := .none, deadline := none, estimate := none }

/-- The head of a queue leaves it, its prompt and held value gone. -/
theorem Part.endShowing_cons {p : Part} {t n : Nat} {rest : List Nat} (h : p.queueOf t = n :: rest) :
    p.endShowing t = (p.setAssignment n Assignment.ended).setQueue t rest := by
  have htable : ((p.setAssignment n fun x => { x with prompt := .none, deadline := none }).setAssignment n
      fun x => { x with estimate := none }).prm.table = (p.setAssignment n Assignment.ended).prm.table := by
    simp only [Part.setAssignment, List.map_map]
    refine List.map_congr_left fun a _ => ?_
    by_cases ha : a.number = n <;> simp [ha, Assignment.ended]
  unfold Part.endShowing
  rw [h]
  exact congrArg (fun l => (({ p with prm := { p.prm with table := l } } : Part).setQueue t rest)) htable

theorem Part.endShowing_frame (p : Part) (t : Nat) : { p with prm := (p.endShowing t).prm } = p.endShowing t := by
  unfold Part.endShowing
  split <;> rfl

theorem Part.endShowing_legs (p : Part) (t : Nat) : (p.endShowing t).legs = p.legs := by
  cases hqueue : p.queueOf t with
  | nil => simp [Part.endShowing, hqueue]
  | cons n rest =>
    rw [Part.endShowing_cons hqueue]
    exact p.setAssignment_legs n fun _ => rfl

theorem Part.endShowing_queueOf (p : Part) (t j : Nat) :
    (p.endShowing t).queueOf j = if j = t then (p.queueOf t).tail else p.queueOf j := by
  cases hqueue : p.queueOf t with
  | nil =>
    split
    · next heq => simp [Part.endShowing, hqueue, heq]
    · simp [Part.endShowing, hqueue]
  | cons n rest =>
    rw [Part.endShowing_cons hqueue]
    split
    · next heq =>
      subst heq
      obtain hset | ⟨-, hnil⟩ := (p.setAssignment n Assignment.ended).setQueue_queueOf_same j rest
      · exact hset
      · simp [hqueue] at hnil
    · next hne => exact (p.setAssignment n Assignment.ended).setQueue_queueOf_other rest hne

theorem Part.endShowing_assignment {p : Part} {t m : Nat} (hm : (p.queueOf t).head? ≠ some m) :
    (p.endShowing t).assignment m = p.assignment m := by
  cases hqueue : p.queueOf t with
  | nil => simp [Part.endShowing, hqueue]
  | cons n rest =>
    have hne : m ≠ n := fun heq => hm (by simp [hqueue, heq])
    rw [Part.endShowing_cons hqueue, Part.setQueue_assignment,
      p.setAssignment_assignment n m (f := Assignment.ended) fun _ => rfl, if_neg hne]

section
variable {p : Part} (h : p.Seated)
include h

/-- The references that stay are QUEUED, but for the heads of other terminals. -/
theorem Part.Seated.endShowing_entry {t j m : Nat} (hm : m ∈ (p.endShowing t).queueOf j) :
    m ∈ p.queueOf j ∧ (p.endShowing t).assignment m = p.assignment m
      ∧ (j = t → ∀ a, p.assignment m = some a → a.prompt ≠ .showing) := by
  rw [p.endShowing_queueOf] at hm
  split at hm
  · next heq =>
    subst heq
    cases hqueue : p.queueOf j with
    | nil => simp [hqueue] at hm
    | cons n rest =>
      rw [hqueue, List.tail_cons] at hm
      have hne : n ≠ m := fun heq => (List.nodup_cons.mp (hqueue ▸ h.once j)).1 (heq ▸ hm)
      have hhead : (p.queueOf j).head? ≠ some m := by simpa [hqueue] using hne
      refine ⟨List.mem_cons_of_mem n hm, Part.endShowing_assignment hhead, fun _ a ha hshowing => ?_⟩
      obtain ⟨b, hb, -, -, hb'⟩ := h.entry (t := j) (n := m) (by rw [hqueue]; exact List.mem_cons_of_mem n hm)
      obtain rfl : a = b := Option.some.inj (ha.symm.trans hb)
      exact hhead (hb' hshowing)
  · next hne =>
    exact ⟨hm, Part.endShowing_assignment fun hhead => hne (h.terminal_unique hm (List.mem_of_head? hhead)),
      fun heq => absurd heq hne⟩

theorem Part.Seated.endShowing (t : Nat) : (p.endShowing t).Seated := by
  refine .of_entries ?_ (fun j => ?_) fun {j m} hm => ?_
  · cases hqueue : p.queueOf t with
    | nil => simpa [Part.endShowing, hqueue] using h.numbers
    | cons n rest =>
      rw [Part.endShowing_cons hqueue]
      exact (p.setAssignment_numbers n (f := Assignment.ended) fun _ => rfl) ▸ h.numbers
  · rw [p.endShowing_queueOf]
    split
    · exact (h.once t).sublist (List.tail_sublist _)
    · exact h.once j
  · obtain ⟨hin, hsame, hqueued⟩ := h.endShowing_entry hm
    obtain ⟨a, ha, hterminal, hprompt, hshowing⟩ := h.entry hin
    refine ⟨a, hsame.trans ha, hterminal, hprompt, fun hs => ?_⟩
    by_cases hj : j = t
    · exact absurd hs (hqueued hj a ha)
    · rw [p.endShowing_queueOf, if_neg hj]
      exact hshowing hs

/-- The terminal has no head any more. -/
theorem Part.Seated.endShowing_headless (t : Nat) : (p.endShowing t).promptHead t = none :=
  Part.promptHead_eq_none fun _ a hhead ha => by
    obtain ⟨-, hsame, hqueued⟩ := h.endShowing_entry (List.mem_of_head? hhead)
    exact hqueued rfl a (hsame ▸ ha)

theorem Part.Seated.endShowing_promptHead {t j : Nat} (hj : j ≠ t) : (p.endShowing t).promptHead j = p.promptHead j := by
  have hqueue : (p.endShowing t).queueOf j = p.queueOf j := by rw [p.endShowing_queueOf, if_neg hj]
  refine promptHead_congr (by rw [hqueue]) fun m hm => ?_
  rw [(h.endShowing_entry (t := t) (hqueue ▸ List.mem_of_head? hm)).2.1]

/-- The end of a showing owes the terminal's PROMPT. -/
theorem Part.Seated.endShowing_owes (t : Nat) :
    Part.Owes (fun j _ r => r = .prompt ∧ j = t) p (p.endShowing t) where
  geo := (Part.owes_of_prm (p.endShowing_frame t)).geo
  nodes := (Part.owes_of_prm (p.endShowing_frame t)).nodes
  ready := (Part.owes_of_prm (p.endShowing_frame t)).ready
  stands hr hp := ((Part.owes_of_legs (p.endShowing_frame t) (p.endShowing_legs t)).stands hr hp).imp_left fun howed =>
    ⟨howed.1, by_contra fun hj => howed.2 (h.endShowing_promptHead hj)⟩

end

/-- A show deadline (R70). -/
theorem Part.showDeadline_upholds (p : Part) (t : Nat) : p.Upholds (p.showDeadline t) := by
  have hframe : ((p.endShowing t).becomeHead t).prmFrame = p.prmFrame :=
    (Part.becomeHead_serves _ t).frame.trans (by rw [← p.endShowing_frame t]; rfl)
  refine .ite ?_ (.refl p)
  rw [Part.onlyPrm_of_frame hframe]
  intro hp
  have hended := hp.endShowing t
  obtain ⟨hseated, hcarries⟩ := (Part.becomeHead_serves _ t).upholds hended
  refine ⟨hseated, (hp.endShowing_owes t).settle hcarries fun hr howed hready => ?_⟩
  obtain ⟨rfl, rfl⟩ := howed
  exact hended.becomeHead_stands (hp.endShowing_headless _) hr hready

end Sys2Proof.Machine
end

section
/-! SUPPORT. PRM's operations leave every standing region standing, or have it recomposed (R60 to R83). -/

namespace Sys2Proof.Machine

/-! ### A new reference (R66 to R68) -/

theorem Part.mem_joined (p : Part) (refs : List Nat) (n m : Nat) (stepFree : Bool) :
    m ∈ p.joined refs n stepFree ↔ m = n ∨ m ∈ refs := by
  unfold Part.joined
  split
  · simp only [List.mem_append, List.mem_cons]
    conv_rhs => rw [← List.takeWhile_append_dropWhile (p := fun m => p.isShowing m || p.isStepFree m) (l := refs),
      List.mem_append]
    tauto
  · simp [or_comm]

theorem Part.nodup_joined (p : Part) {refs : List Nat} {n : Nat} (stepFree : Bool) (hrefs : refs.Nodup) (hn : n ∉ refs) :
    (p.joined refs n stepFree).Nodup := by
  have hcons : (n :: refs).Nodup := List.nodup_cons.mpr ⟨hn, hrefs⟩
  refine (List.Perm.nodup_iff ?_).mpr hcons
  unfold Part.joined
  split
  · refine List.perm_middle.trans (List.Perm.cons n ?_)
    rw [List.takeWhile_append_dropWhile]
  · exact List.perm_append_singleton n refs

/-- A SHOWING head stays the first reference. -/
theorem Part.joined_head (p : Part) {h : Nat} {refs : List Nat} (n : Nat) (stepFree : Bool)
    (hhead : refs.head? = some h) :
    (p.joined refs n stepFree).head? = some h
      ∨ (p.joined refs n stepFree).head? = some n ∧ p.isShowing h = false := by
  obtain ⟨rest, rfl⟩ : ∃ rest, refs = h :: rest := by
    cases refs with
    | nil => cases hhead
    | cons x l => exact ⟨l, by simpa using hhead⟩
  unfold Part.joined
  split
  · by_cases hshowing : p.isShowing h = true
    · simp [hshowing]
    · by_cases hfree : p.isStepFree h = true
      · simp [hfree]
      · simp [hshowing, hfree]
  · simp

/-- The entry with a reference in its queue. -/
def Assignment.waiting (a : Assignment) : Assignment := { a with prompt := .queued }

/-- A reference in its ordered place of the queue (R66, R67). -/
def Part.referred (p : Part) (n t : Nat) (stepFree : Bool) : Part :=
  p.queued n t (p.joined (p.queueOf t) n stepFree)

theorem Part.referred_assignment (p : Part) (n t : Nat) (stepFree : Bool) (m : Nat) :
    (p.referred n t stepFree).assignment m
      = if m = n then (p.assignment m).map Assignment.waiting else p.assignment m :=
  (p.setQueue t _).setAssignment_assignment n m (f := Assignment.waiting) fun _ => rfl

section
variable {p : Part} (h : p.Seated) {n t : Nat} {a : Assignment} (ha : p.assignment n = some a)
  (hterminal : a.terminal = t) (hprompt : a.prompt = .none) (stepFree : Bool)
include h ha hprompt

theorem Part.Seated.not_referenced (j : Nat) : n ∉ p.queueOf j := by
  obtain rfl := Part.assignment_number ha
  exact h.not_mem ha hprompt j

/-- A head keeps its place and its entry, or an entry that is not SHOWING takes the place of another. -/
theorem Part.Seated.referred_promptHead (j : Nat) :
    (p.referred n t stepFree).promptHead j = p.promptHead j := by
  have hentry : ∀ m, m ∈ p.queueOf j →
      (p.referred n t stepFree).assignment m = p.assignment m := fun m hm => by
    rw [Part.referred_assignment, if_neg fun heq : m = n => h.not_referenced ha hprompt j (heq ▸ hm)]
  have hnew : ∀ b, (p.referred n t stepFree).assignment n = some b → b.prompt ≠ .showing := by
    intro b hb
    rw [Part.referred_assignment, if_pos rfl, ha, Option.map_some, Option.some.injEq] at hb
    subst hb
    exact nofun
  by_cases hj : j = t
  · subst hj
    obtain hset | ⟨hset, hnil⟩ := p.setQueue_queueOf_same j (p.joined (p.queueOf j) n stepFree)
    · have hset : (p.referred n j stepFree).queueOf j = p.joined (p.queueOf j) n stepFree := hset
      cases hhead : (p.queueOf j).head? with
      | none =>
        have hnil : p.queueOf j = [] := List.head?_eq_none_iff.mp hhead
        rw [Part.promptHead_eq_none (q := p) fun m b hm => by simp [hnil] at hm]
        refine Part.promptHead_eq_none fun m b hm hb => ?_
        rw [hset, hnil] at hm
        obtain rfl : n = m := by cases stepFree <;> simpa [Part.joined] using hm
        exact hnew b hb
      | some m =>
        obtain hstays | ⟨hnext, hshowing⟩ := p.joined_head n stepFree hhead
        · refine promptHead_congr (by rw [hset, hstays, hhead]) fun m' hm' => ?_
          rw [hentry m' (List.mem_of_head? hm')]
        · rw [Part.promptHead_eq_none (q := p) fun m' b hm' hb hs => by
            rw [hhead, Option.some.injEq] at hm'
            subst hm'
            simp [Part.isShowing, hb, hs] at hshowing]
          refine Part.promptHead_eq_none fun m' b hm' hb => ?_
          rw [hset, hnext, Option.some.injEq] at hm'
          subst hm'
          exact hnew b hb
    · refine promptHead_congr (by rw [show (p.referred n j stepFree).queueOf j = [] from hset, hnil]) fun m hm => ?_
      rw [hentry m (List.mem_of_head? hm)]
  · refine promptHead_congr (by rw [show (p.referred n t stepFree).queueOf j = p.queueOf j from p.setQueue_queueOf_other _ hj])
      fun m hm => ?_
    rw [hentry m (List.mem_of_head? hm)]

include hterminal

theorem Part.Seated.referred : (p.referred n t stepFree).Seated := by
  have hnot := h.not_referenced ha hprompt
  have hqueue : ∀ j, (p.referred n t stepFree).queueOf j = p.queueOf j
      ∨ j = t ∧ (p.referred n t stepFree).queueOf j = p.joined (p.queueOf t) n stepFree := by
    intro j
    by_cases hj : j = t
    · subst hj
      obtain hset | ⟨hset, hnil⟩ := p.setQueue_queueOf_same j (p.joined (p.queueOf j) n stepFree)
      · exact .inr ⟨rfl, hset⟩
      · exact .inl (Eq.trans hset hnil.symm)
    · exact .inl (p.setQueue_queueOf_other _ hj)
  have hold : ∀ {j m}, m ∈ p.queueOf j → ∃ b, (p.referred n t stepFree).assignment m = some b
      ∧ b.terminal = j ∧ b.prompt ≠ .none ∧ (b.prompt = .showing → (p.queueOf j).head? = some m ∧ p.isShowing m = true) := by
    intro j m hm
    obtain ⟨b, hb, hb', hsome, hshowing⟩ := h.entry hm
    rw [Part.referred_assignment, if_neg fun heq : m = n => hnot j (heq ▸ hm)]
    exact ⟨b, hb, hb', hsome, fun hs => ⟨hshowing hs, by simp [Part.isShowing, hb, hs]⟩⟩
  refine .of_entries ?_ (fun j => ?_) fun {j m} hm => ?_
  · exact ((p.setQueue t _).setAssignment_numbers n (f := Assignment.waiting) fun _ => rfl) ▸ h.numbers
  · obtain hsame | ⟨rfl, hset⟩ := hqueue j
    · rw [hsame]
      exact h.once j
    · rw [hset]
      exact p.nodup_joined stepFree (h.once j) (hnot j)
  · obtain hsame | ⟨rfl, hset⟩ := hqueue j
    · rw [hsame] at hm ⊢
      obtain ⟨b, hb, hb', hsome, hshowing⟩ := hold hm
      exact ⟨b, hb, hb', hsome, fun hs => (hshowing hs).1⟩
    · rw [hset, Part.mem_joined] at hm
      rw [hset]
      obtain rfl | hm := hm
      · exact ⟨a.waiting, by rw [Part.referred_assignment, if_pos rfl, ha, Option.map_some], hterminal, nofun, nofun⟩
      · obtain ⟨b, hb, hb', hsome, hshowing⟩ := hold hm
        refine ⟨b, hb, hb', hsome, fun hs => ?_⟩
        obtain ⟨hhead, hs⟩ := hshowing hs
        exact (p.joined_head n stepFree hhead).resolve_right fun hnext => by simp [hs] at hnext

end

/-- A reference joins its queue with nothing owed. -/
theorem Part.Seated.referred_carries {p : Part} (h : p.Seated) {n t : Nat} {a : Assignment} (ha : p.assignment n = some a)
    (hprompt : a.prompt = .none) (stepFree : Bool) : p.Carries (p.referred n t stepFree) :=
  (Part.owes_of_legs (p := p) (q := p.referred n t stepFree) rfl
    ((p.setQueue t _).setAssignment_legs n (f := Assignment.waiting) fun _ => rfl)).carries fun _ howed _ => absurd (h.referred_promptHead ha hprompt stepFree _) howed.2

/-- An estimate of an entry that is not SHOWING shows nowhere. -/
theorem Part.promptEstimate_promptHead {p : Part} {n : Nat} {a : Assignment} (ha : p.assignment n = some a)
    (hprompt : a.prompt ≠ .showing) (fresh : Bool) (j : Nat) : (p.promptEstimate n fresh).promptHead j = p.promptHead j := by
  have held : ∀ (q : Part) old new, q.prm = p.prm → (q.setHeld n old new).promptHead j = p.promptHead j := by
    intro q old new hq
    have hset : (q.setAssignment n (·.holding new)).promptHead j = q.promptHead j := by
      by_contra hne
      obtain ⟨-, b, hb, hne⟩ := Part.setAssignment_promptHead_ne (f := (·.holding new)) (fun _ => rfl) hne
      rw [Part.assignment, hq, ← Part.assignment, ha, Option.some.injEq] at hb
      subst hb
      exact hprompt (Assignment.shownPrompt_holding_ne hne).1
    rw [Part.setHeld_eq, ← Part.promptHead_of_prm hq j]
    split
    · exact hset
    · exact (Part.promptHead_of_prm (Part.cmpEstimateChange_prm ..) j).trans hset
  unfold Part.promptEstimate
  rw [Part.promptHead_of_prm (Part.onlyArr_prm p _)]
  simp only [ha]
  split
  · rfl
  · split
    · exact held _ _ _ rfl
    · exact held _ _ _ rfl

theorem Part.madeRoom_frame (p : Part) (t : Nat) : (p.madeRoom t).prmFrame = p.prmFrame := by
  unfold Part.madeRoom
  split
  · rw [← p.endShowing_frame t]
    rfl
  · rfl

theorem Part.inQueue_frame (p : Part) (n t : Nat) (stepFree : Bool) : (p.inQueue n t stepFree).prmFrame = p.prmFrame :=
  (Part.promptEstimate_serves _ n true).frame.trans (p.madeRoom_frame t)

theorem Part.enterQueue_frame (p : Part) (n t : Nat) (stepFree : Bool) : (p.enterQueue n t stepFree).prmFrame = p.prmFrame := by
  rw [Part.enterQueue_eq]
  split
  · exact (Part.becomeHead_serves _ t).frame.trans (p.inQueue_frame n t stepFree)
  · exact p.inQueue_frame n t stepFree

/-- From a queue with room on, an entry's reference joins with nothing owed and no head changed. -/
theorem Part.Seated.joinQueue {p : Part} (h : p.Seated) {n t : Nat} {a : Assignment} (ha : p.assignment n = some a)
    (hterminal : a.terminal = t) (hprompt : a.prompt = .none) (stepFree : Bool) :
    ((p.referred n t stepFree).promptEstimate n true).Seated
      ∧ p.Carries ((p.referred n t stepFree).promptEstimate n true)
      ∧ ∀ j, ((p.referred n t stepFree).promptEstimate n true).promptHead j = p.promptHead j := by
  obtain ⟨hseated, hcarries⟩ := (Part.promptEstimate_serves _ n true).upholds (h.referred ha hterminal hprompt stepFree)
  have hqueued : (p.referred n t stepFree).assignment n = some a.waiting := by
    rw [Part.referred_assignment, if_pos rfl, ha, Option.map_some]
  exact ⟨hseated, (h.referred_carries ha hprompt stepFree).trans hcarries, fun j =>
    (Part.promptEstimate_promptHead hqueued nofun true j).trans (h.referred_promptHead ha hprompt stepFree j)⟩

/-- A live entry without a prompt enters its terminal's queue (R67, R68). -/
theorem Part.Seated.enterQueue {p : Part} (h : p.Seated) {n t : Nat} {a : Assignment} (ha : p.assignment n = some a)
    (hterminal : a.terminal = t) (hprompt : a.prompt = .none) (stepFree : Bool) :
    (p.enterQueue n t stepFree).Seated ∧ p.Carries (p.enterQueue n t stepFree) := by
  rw [Part.enterQueue_eq]
  by_cases hfull : Config.queueLimit ≤ (p.queueOf t).length
  · have hroom : p.madeRoom t = p.endShowing t := by simp [Part.madeRoom, hfull]
    have hkept : (p.endShowing t).assignment n = some a := by
      rw [Part.endShowing_assignment fun hhead => h.not_referenced ha hprompt t (List.mem_of_head? hhead), ha]
    have hended := h.endShowing t
    obtain ⟨hseated, hjoined, hheads⟩ := hended.joinQueue hkept hterminal hprompt stepFree
    simp only [hfull, decide_true, Bool.true_or, if_true, Part.inQueue, hroom]
    obtain ⟨hseated', hcarries⟩ := (Part.becomeHead_serves _ t).upholds hseated
    refine ⟨hseated', ((h.endShowing_owes t).trans hjoined).settle hcarries fun hr howed hready => ?_⟩
    obtain ⟨rfl, rfl⟩ := howed
    exact hseated.becomeHead_stands ((hheads _).trans (h.endShowing_headless _)) hr hready
  · have hroom : p.madeRoom t = p := by simp [Part.madeRoom, hfull]
    obtain ⟨hseated, hjoined, -⟩ := h.joinQueue ha hterminal hprompt stepFree
    simp only [Part.inQueue, hroom]
    split
    · obtain ⟨hseated', hcarries⟩ := (Part.becomeHead_serves _ t).upholds hseated
      exact ⟨hseated', hjoined.trans hcarries⟩
    · exact ⟨hseated, hjoined⟩

end Sys2Proof.Machine
end

section
/-! SUPPORT. Removals, creations, reassignments and the tracking events in PRM (R60 to R83). -/

namespace Sys2Proof.Machine

/-! ### Recompositions one after the other -/

/-- A region that one round of a fold recomposes stands after the fold. -/
theorem Part.foldl_stands {β : Type} {f : Part → β → Part} (hcarries : ∀ (q : Part) (x : β), q.Carries (f q x))
    {l : List β} {x : β} (hx : x ∈ l) {j : Nat} {n : NodeConfig} {r : Region}
    (hstands : ∀ q : Part, q.Applies j n r → Ready q.disp j r → (f q x).composedAt j n r) {p : Part} (hr : p.Applies j n r)
    (hready : Ready p.disp j r) : (l.foldl f p).composedAt j n r := by
  have fold : ∀ (l : List β) (p : Part), p.Carries (l.foldl f p) := by
    intro l
    induction l with
    | nil => exact .refl
    | cons y l ih => exact fun p => (hcarries p y).trans (ih _)
  obtain ⟨front, back, rfl⟩ := List.append_of_mem hx
  rw [List.foldl_append, List.foldl_cons]
  have hr' := (fold front p).applies hr
  exact (fold back _).keeps ((hcarries _ x).applies hr')
    (hstands _ hr' ((fold front p).ready hr.node hready))

theorem Part.Carries.foldl {β : Type} {f : Part → β → Part} (h : ∀ (q : Part) (x : β), q.Carries (f q x)) (l : List β)
    (p : Part) : p.Carries (l.foldl f p) := by
  induction l generalizing p with
  | nil => exact .refl p
  | cons x l ih => exact (h p x).trans (ih _)

/-! ### Trip list notices (R81) -/

theorem Part.tripNotices_frame (p before : Part) (keys : List TripKey) :
    (p.tripNotices before keys).prmFrame = p.prmFrame ∧ (p.tripNotices before keys).prm = p.prm :=
  ⟨foldl_keeps Part.prmFrame (f := fun q (k : TripKey) => q.cmpTripNotice k.1 k.2.1 k.2.2) (fun _ _ => rfl) _ p,
    foldl_keeps Part.prm (f := fun q (k : TripKey) => q.cmpTripNotice k.1 k.2.1 k.2.2) (fun _ _ => rfl) _ p⟩

theorem Part.tripNotices_carries (p before : Part) (keys : List TripKey) : p.Carries (p.tripNotices before keys) :=
  .foldl (f := fun q (k : TripKey) => q.cmpTripNotice k.1 k.2.1 k.2.2) (fun q _ => q.recomposeFor_carries _) _ p

theorem Part.tripNotices_stands {q before : Part} {keys : List TripKey} {j : Nat} {n : NodeConfig}
    (hr : q.Applies j n .trip) (hkey : (n.car, n.deck, n.floor) ∈ keys)
    (hne : q.tripShown n.car n.deck n.floor ≠ before.tripShown n.car n.deck n.floor) (hready : Ready q.disp j .trip) :
    (q.tripNotices before keys).composedAt j n .trip := by
  refine Part.foldl_stands (f := fun q (k : TripKey) => q.cmpTripNotice k.1 k.2.1 k.2.2)
    (fun q _ => q.recomposeFor_carries _) (x := (n.car, n.deck, n.floor))
    (List.mem_filter.mpr ⟨hkey, decide_eq_true hne⟩) (fun q hr hready => ?_) hr hready
  exact Part.recomposeFor_stands hr (by simp [NodeConfig.isLanternOf, NodeConfig.hallLantern_of_trip hr.mem]) hready

theorem Part.legs_of_ledger {p q : Part} (h : q.ledger.entries = p.ledger.entries) : q.legs = p.legs := by
  have hlegs := congrArg (List.map Assignment.leg) h
  simp only [Part.ledger, List.map_map] at hlegs
  exact hlegs

/-- The trip lists that differ have their keys among the given ones. -/
def Part.tripKeyed (p q : Part) (keys : List TripKey) : Prop :=
  ∀ c d f, q.tripShown c d f ≠ p.tripShown c d f → (c, d, f) ∈ keys

/-- What an operation owes of the trip lists, its notices settle. -/
theorem Part.Carries.of_tripNotices {p q : Part} (h : Part.Owes (p.tripOwed q) p q) {keys : List TripKey}
    (hkeys : p.tripKeyed q keys) : p.Carries (q.tripNotices p keys) := by
  refine h.settle (q.tripNotices_carries p keys) fun hr howed hready => ?_
  obtain ⟨rfl, hne⟩ := howed
  exact Part.tripNotices_stands hr (hkeys _ _ _ hne) hne hready

/-- A key whose legs are the same. -/
theorem Part.tripKeyed_of_legs {p q : Part} (hgeo : q.geo = p.geo) {keys : List TripKey}
    (h : ∀ c d f, (c, d, f) ∉ keys → destinationsOf q.legs c d f = destinationsOf p.legs c d f) : p.tripKeyed q keys :=
  fun c d f hne => by_contra fun hkey => hne (tripShown_congr hgeo (h c d f hkey))

/-! ### Removal (R72, R83) -/

theorem mem_uniqueKeys {k : TripKey} {keys : List TripKey} : k ∈ uniqueKeys keys ↔ k ∈ keys := by
  have fold : ∀ acc : List TripKey, k ∈ keys.foldl (fun acc k => if acc.contains k then acc else acc ++ [k]) acc ↔
      k ∈ acc ∨ k ∈ keys := by
    induction keys with
    | nil => simp
    | cons y keys ih =>
      intro acc
      rw [List.foldl_cons, ih]
      by_cases hy : acc.contains y = true
      · have hmem : y ∈ acc := by simpa using hy
        rw [if_pos hy, List.mem_cons]
        constructor
        · tauto
        · rintro (hk | rfl | hk)
          · exact .inl hk
          · exact .inl hmem
          · exact .inr hk
      · rw [if_neg hy]
        simp only [List.mem_append, List.mem_cons, List.not_mem_nil, or_false]
        tauto
  simpa [uniqueKeys] using fold []

/-- The next references become heads (R72): a terminal without a head shows its new one. -/
theorem Part.Seated.becomeHeads_stands {t : Nat} {n : NodeConfig} {l : List Nat} {q : Part} (hq : q.Seated) (ht : t ∈ l)
    (hnone : q.promptHead t = none) (hr : q.Applies t n .prompt) (hready : Ready q.disp t .prompt) :
    (l.foldl (fun q t => q.becomeHead t) q).composedAt t n .prompt := by
  induction l generalizing q with
  | nil => cases ht
  | cons x l ih =>
    obtain ⟨hseated, hcarries⟩ := (q.becomeHead_serves x).upholds hq
    by_cases hx : t = x
    · subst hx
      have hrest := (Part.Serves.foldl (fun q t => q.becomeHead_serves t) l (q.becomeHead t)).upholds hseated
      exact hrest.2.keeps (hcarries.applies hr) (hq.becomeHead_stands hnone hr hready)
    · exact ih hseated ((List.mem_cons.mp ht).resolve_left hx) ((hq.becomeHead_promptHead hx).trans hnone)
        (hcarries.applies hr) (hcarries.ready hr.node hready)

section
variable (p : Part) (gone : Assignment → Bool)

/-- The numbers that leave. -/
def Part.goneNumbers : List Nat := (p.prm.table.filter gone).map (·.number)

theorem Part.struck_assignment {m : Nat} (hm : m ∉ p.goneNumbers gone) : (p.struck gone).assignment m = p.assignment m := by
  unfold Part.assignment Part.struck
  rw [List.find?_filter]
  refine List.find?_congr fun a ha => ?_
  by_cases hnumber : a.number = m
  · have hstays : gone a = false := by
      by_contra hgone
      exact hm (List.mem_map.mpr ⟨a, List.mem_filter.mpr ⟨ha, by simpa using hgone⟩, hnumber⟩)
    simp [hstays, hnumber]
  · simp [hnumber]

theorem Part.struck_queueOf (j : Nat) :
    (p.struck gone).queueOf j = (p.queueOf j).filter fun n => !(p.goneNumbers gone).contains n := by
  unfold Part.queueOf Part.struck
  simp only [List.find?_map, Function.comp_def]
  cases p.prm.queues.find? (·.terminal = j) with
  | none => rfl
  | some q => rfl

theorem Part.mem_struck_queueOf {j m : Nat} :
    m ∈ (p.struck gone).queueOf j ↔ m ∈ p.queueOf j ∧ m ∉ p.goneNumbers gone := by
  simp [Part.struck_queueOf, List.mem_filter]

/-- A head that stays is the head. -/
theorem Part.struck_head {j m : Nat} (hhead : (p.queueOf j).head? = some m) (hm : m ∉ p.goneNumbers gone) :
    ((p.struck gone).queueOf j).head? = some m := by
  rw [Part.struck_queueOf]
  cases hqueue : p.queueOf j with
  | nil => simp [hqueue] at hhead
  | cons x l =>
    obtain rfl : x = m := by simpa [hqueue] using hhead
    simp [hm]

theorem Part.mem_headless {j m : Nat} (hhead : (p.queueOf j).head? = some m) (hm : m ∈ p.goneNumbers gone) :
    j ∈ p.headless gone := by
  unfold Part.queueOf at hhead
  cases hfind : p.prm.queues.find? (·.terminal = j) with
  | none => simp [hfind] at hhead
  | some q =>
    have hj : q.terminal = j := by simpa using List.find?_some hfind
    refine List.mem_map.mpr ⟨q, List.mem_filter.mpr ⟨List.mem_of_find?_eq_some hfind, ?_⟩, hj⟩
    rw [hfind] at hhead
    cases hrefs : q.refs with
    | nil => simp [hrefs] at hhead
    | cons x l =>
      obtain rfl : x = m := by simpa [hrefs] using hhead
      simpa [Part.goneNumbers] using hm

variable {p} (h : p.Seated)
include h

theorem Part.Seated.struck : (p.struck gone).Seated := by
  refine .of_entries (h.numbers.sublist (List.filter_sublist.map _)) (fun j => ?_) fun {j m} hm => ?_
  · rw [Part.struck_queueOf]
    exact (h.once j).filter _
  · rw [Part.mem_struck_queueOf] at hm
    obtain ⟨a, ha, hterminal, hprompt, hshowing⟩ := h.entry hm.1
    exact ⟨a, (p.struck_assignment gone hm.2).trans ha, hterminal, hprompt, fun hs =>
      p.struck_head gone (hshowing hs) hm.2⟩

/-- The prompts that change are those of heads that leave; their terminals show none until the next becomes head. -/
theorem Part.Seated.struck_promptHead {j : Nat} (hne : (p.struck gone).promptHead j ≠ p.promptHead j) :
    j ∈ p.headless gone ∧ (p.struck gone).promptHead j = none := by
  cases hhead : (p.queueOf j).head? with
  | none =>
    have hnil : p.queueOf j = [] := List.head?_eq_none_iff.mp hhead
    refine absurd (promptHead_congr ?_ fun m hm => ?_) hne
    · rw [Part.struck_queueOf, hnil]
      rfl
    · rw [hhead] at hm
      cases hm
  | some m =>
    by_cases hm : m ∈ p.goneNumbers gone
    · refine ⟨p.mem_headless gone hhead hm, Part.promptHead_eq_none fun m' a hm' ha hs => ?_⟩
      obtain ⟨hin, hstays⟩ := (p.mem_struck_queueOf gone).mp (List.mem_of_head? hm')
      rw [p.struck_assignment gone hstays] at ha
      obtain ⟨b, hb, -, -, hshowing⟩ := h.entry hin
      obtain rfl : a = b := Option.some.inj (ha.symm.trans hb)
      rw [hshowing hs, Option.some.injEq] at hhead
      exact hstays (hhead ▸ hm)
    · refine absurd (promptHead_congr ((p.struck_head gone hhead hm).trans hhead.symm) fun m' hm' => ?_) hne
      rw [hhead, Option.some.injEq] at hm'
      subst hm'
      rw [p.struck_assignment gone hm]

omit h in
theorem Part.struck_tripKeyed : p.tripKeyed (p.struck gone) (uniqueKeys ((p.prm.table.filter gone).map (·.tripKey))) := by
  refine Part.tripKeyed_of_legs (by rfl) fun c d f hkey => ?_
  rw [mem_uniqueKeys, List.mem_map] at hkey
  unfold destinationsOf Part.legs Part.struck
  simp only [List.filter_map, List.filter_filter]
  refine congrArg _ (congrArg _ (List.filter_congr fun a ha => ?_))
  simp only [Function.comp_apply, Assignment.leg]
  by_cases hgone : gone a = true
  · have hother : ¬((a.car = c ∧ a.deck = d) ∧ a.boarding = f) := by
      rintro ⟨⟨rfl, rfl⟩, rfl⟩
      exact hkey ⟨a, List.mem_filter.mpr ⟨ha, hgone⟩, rfl⟩
    simp only [hgone, Bool.not_true, Bool.and_false]
    show false = (decide (a.car = c) && decide (a.deck = d) && decide (a.boarding = f))
    exact Eq.symm (by simpa using hother)
  · simp [hgone]

/-- A removal, with the new heads and the trip lists recomposed (R72). -/
theorem Part.Seated.removeEntries : (p.removeEntries gone).Seated ∧ p.Carries (p.removeEntries gone) := by
  have hstruck := h.struck gone
  have hheads := Part.Serves.foldl (fun q t => q.becomeHead_serves t) (p.headless gone) (p.struck gone)
  have hlegs : ((p.headless gone).foldl (fun q t => q.becomeHead t) (p.struck gone)).legs = (p.struck gone).legs :=
    Part.legs_of_ledger (congrArg Ledger.entries
      (foldl_keeps Part.ledger (fun q t => q.becomeHead_ledger t) (p.headless gone) (p.struck gone)))
  rw [Part.removeEntries_eq]
  generalize hq : (p.headless gone).foldl (fun q t => q.becomeHead t) (p.struck gone) = q at hheads hlegs
  obtain ⟨hseated, hcarries⟩ := hheads.upholds hstruck
  have hgeo : q.geo = (p.struck gone).geo := hcarries.geo
  have htrip : ∀ c d f, q.tripShown c d f = (p.struck gone).tripShown c d f := tripShown_of_legs hgeo hlegs
  have howes : Part.Owes (p.tripOwed q) p q := by
    refine (Part.owes_of_prm (p := p) (q := p.struck gone) rfl).partly hcarries fun hr howed hready => ?_
    obtain ⟨rfl, hne⟩ | ⟨rfl, hne⟩ := howed
    · obtain ⟨hin, hnone⟩ := h.struck_promptHead gone hne
      exact .inr (hq ▸ hstruck.becomeHeads_stands hin hnone hr hready)
    · exact .inl ⟨rfl, (htrip ..).symm ▸ hne⟩
  obtain ⟨hframe, hprm⟩ := q.tripNotices_frame p (uniqueKeys ((p.prm.table.filter gone).map (·.tripKey)))
  have hwhole : q.prmFrame = p.prmFrame := hheads.frame
  rw [Part.onlyPrm_of_frame (hframe.trans hwhole)]
  refine ⟨hseated.of_prm hprm, .of_tripNotices howes fun c d f hne => p.struck_tripKeyed gone c d f ?_⟩
  rwa [← htrip]

end

theorem Part.removeEntries_upholds (p : Part) (gone : Assignment → Bool) : p.Upholds (p.removeEntries gone) := fun h =>
  h.removeEntries gone

theorem Part.retireEntries_upholds (p : Part) (gone : Assignment → Bool) (words : Nat → Word × Word) :
    p.Upholds (p.retireEntries gone words) :=
  .ite (.refl p) ((p.removeEntries_upholds gone).trans (Part.report_upholds _ _))

theorem Part.displace_upholds (p : Part) (a : Assignment) : p.Upholds (p.displace a) :=
  ((p.removeEntries_upholds _).trans (Part.count_upholds _ _ _)).trans (Part.report_upholds _ _)

/-- The marks and the take order show nowhere. -/
theorem Part.upholds_of_table {p : Part} {x : Prm} (htable : x.table = p.prm.table) (hqueues : x.queues = p.prm.queues) :
    p.Upholds { p with prm := x } := by
  have hqueue : ∀ t, ({ p with prm := x } : Part).queueOf t = p.queueOf t := fun t => by
    rw [Part.queueOf, hqueues, Part.queueOf]
  refine fun h => ⟨h.congr (by rw [htable]) hqueue, ?_⟩
  refine (Part.owes_of_legs (p := p) (q := { p with prm := x }) rfl (by rw [Part.legs, htable, Part.legs])).carries
    fun _ howed _ => absurd (promptHead_congr (by rw [hqueue]) fun m _ => ?_) howed.2
  rw [Part.assignment, htable, Part.assignment]

/-! ### NEW (R61 to R65) -/

section
variable {p : Part} {a : Assignment} (h : p.Seated) (hfresh : p.assignment a.number = none)

theorem Part.withEntry_assignment {m : Nat} (hm : m ≠ a.number) : (p.withEntry a).assignment m = p.assignment m := by
  unfold Part.assignment Part.withEntry
  rw [List.find?_append]
  simp [Ne.symm hm]

include hfresh

theorem Part.withEntry_assignment_self : (p.withEntry a).assignment a.number = some a := by
  unfold Part.assignment at hfresh
  unfold Part.assignment Part.withEntry
  rw [List.find?_append, hfresh]
  simp

include h

theorem Part.Seated.ne_fresh {j m : Nat} (hm : m ∈ p.queueOf j) : m ≠ a.number := by
  rintro rfl
  obtain ⟨b, hb, -⟩ := h.entry hm
  rw [hfresh] at hb
  cases hb

theorem Part.Seated.withEntry : (p.withEntry a).Seated := by
  refine .of_entries ?_ h.once fun {j m} hm => ?_
  · have hnot : a.number ∉ p.prm.table.map (·.number) := by
      intro hmem
      obtain ⟨b, hb, hnumber⟩ := List.mem_map.mp hmem
      have hsome := Part.assignment_isSome_of_mem hb
      rw [hnumber, hfresh] at hsome
      cases hsome
    simp only [Part.withEntry, List.map_append, List.map_cons, List.map_nil]
    exact List.nodup_append.mpr ⟨h.numbers, List.nodup_singleton _, fun x hx y hy => by
      rw [List.mem_singleton.mp hy]
      exact fun heq => hnot (heq ▸ hx)⟩
  · rw [Part.withEntry_assignment (h.ne_fresh hfresh hm)]
    exact h.entry hm

/-- A new entry owes the trip list of its key. -/
theorem Part.Seated.withEntry_owes : Part.Owes (p.tripOwed (p.withEntry a)) p (p.withEntry a) := by
  refine (Part.owes_of_prm (p := p) (q := p.withEntry a) rfl).partly (.refl _) fun hr howed hready => ?_
  obtain ⟨rfl, hne⟩ | htrip := howed
  · refine absurd (promptHead_congr (p := p) (q := p.withEntry a) rfl fun m hm => ?_) hne
    rw [Part.withEntry_assignment (h.ne_fresh hfresh (List.mem_of_head? hm))]
  · exact .inl htrip

omit h hfresh in
theorem Part.withEntry_tripKeyed (p : Part) (a : Assignment) : p.tripKeyed (p.withEntry a) [a.tripKey] := by
  refine Part.tripKeyed_of_legs (by rfl) fun c d f hkey => ?_
  have hother : ¬((a.car = c ∧ a.deck = d) ∧ a.boarding = f) := by
    rintro ⟨⟨rfl, rfl⟩, rfl⟩
    exact hkey (List.mem_singleton.mpr rfl)
  simp only [destinationsOf, Part.legs, Part.withEntry, List.map_append, List.filter_append]
  simp [Assignment.leg, hother]

end

/-- Creation of an entry with a number that is not live (R65). -/
theorem Part.Seated.createEntry {p : Part} (h : p.Seated) {number : Nat} (hfresh : p.assignment number = none)
    (order terminal boarding destination car deck : Nat) (stepFree : Bool) :
    (p.createEntry order number terminal boarding destination car deck stepFree).Seated
      ∧ p.Carries (p.createEntry order number terminal boarding destination car deck stepFree) := by
  have hledger := (p.withEntry (p.newEntry order number terminal boarding destination car deck stepFree)).enterQueue_ledger
    number terminal stepFree
  have hframe := (p.withEntry (p.newEntry order number terminal boarding destination car deck stepFree)).enterQueue_frame
    number terminal stepFree
  rw [Part.createEntry_eq]
  generalize ha : p.newEntry order number terminal boarding destination car deck stepFree = a at hledger hframe
  have hnumber : a.number = number := ha ▸ rfl
  have hterminal : a.terminal = terminal := ha ▸ rfl
  have hprompt : a.prompt = .none := ha ▸ rfl
  subst hnumber
  obtain ⟨hseated, hcarries⟩ := (h.withEntry hfresh).enterQueue (Part.withEntry_assignment_self hfresh) hterminal hprompt
    stepFree
  generalize (p.withEntry a).enterQueue a.number terminal stepFree = q at hledger hframe hseated hcarries
  have htrip : ∀ c d f, q.tripShown c d f = (p.withEntry a).tripShown c d f :=
    tripShown_of_legs hcarries.geo (Part.legs_of_ledger (congrArg Ledger.entries hledger))
  have howes : Part.Owes (p.tripOwed q) p q :=
    (h.withEntry_owes hfresh).partly hcarries fun hr howed _ => .inl ⟨howed.1, htrip .. ▸ howed.2⟩
  obtain ⟨hnotices, hprm⟩ := q.tripNotices_frame p [a.tripKey]
  have hwhole : q.prmFrame = p.prmFrame := hframe
  rw [Part.onlyPrm_of_frame (hnotices.trans hwhole)]
  exact ⟨hseated.of_prm hprm, .of_tripNotices howes fun c d f hne => p.withEntry_tripKeyed a c d f (htrip .. ▸ hne)⟩

theorem Part.refuseAssign_upholds (p : Part) (k n : Nat) (why : AssignReason) : p.Upholds (p.refuseAssign k n why) :=
  (p.count_upholds _ _).trans (Part.report_upholds _ _)

theorem Part.dropNew_upholds (p : Part) (k t number : Nat) (n : NodeConfig) : p.Upholds (p.dropNew k t number n) :=
  .ite (p.count_upholds _ _) (((p.count_upholds .dropped 1).trans (Part.upholds_of_table
    (x := { p.prm with dropReported := p.prm.dropReported.set k true }) rfl rfl)).trans (Part.report_upholds _ _))

theorem Part.removeEntries_assignment_none {p : Part} {n : Nat} (h : p.assignment n = none) (gone : Assignment → Bool) :
    (p.removeEntries gone).assignment n = none := by
  have hentries := congrArg (fun l : Ledger => l.entries.map (·.number)) (p.removeEntries_ledger gone)
  simp only [Part.ledger, List.map_map] at hentries
  rw [Part.assignment, List.find?_eq_none] at h ⊢
  intro a ha
  have hmem := List.mem_map_of_mem (f := fun a : Assignment => a.core.number) ha
  rw [show (p.removeEntries gone).prm.table.map (fun a : Assignment => a.core.number) = _ from hentries] at hmem
  obtain ⟨b, hb, hnumber⟩ := List.mem_map.mp hmem
  have hne := h b (List.mem_of_mem_filter hb)
  rwa [show b.number = a.number from hnumber] at hne

theorem Part.prmNew_upholds (p : Part) (words : List Word) : p.Upholds (p.prmNew words) := by
  rw [Part.prmNew]
  refine Part.Upholds.trans (q := p.takeNew) (Part.upholds_of_table rfl rfl) ?_
  generalize p.takeNew = p'
  simp only [Part.examineNew]
  split
  · exact p'.refuseAssign_upholds _ _ _
  · split
    · exact p'.dropNew_upholds _ _ _ _
    · split
      · exact p'.refuseAssign_upholds _ _ _
      · split
        · exact p'.refuseAssign_upholds _ _ _
        · next hlive =>
          have hfresh : p'.assignment (assignNumber words) = none := by simpa using hlive
          split
          · split
            · exact p'.refuseAssign_upholds _ _ _
            · next a _ =>
              exact (p'.displace_upholds a).trans fun h =>
                h.createEntry (Part.removeEntries_assignment_none (p := p') hfresh _) ..
          · exact fun h => h.createEntry hfresh ..

theorem Part.prmCancel_upholds (p : Part) (words : List Word) : p.Upholds (p.prmCancel words) := by
  unfold Part.prmCancel
  split
  · exact p.onRpt_upholds _
  · exact p.removeEntries_upholds _

end Sys2Proof.Machine
end

section
/-! SUPPORT. REASSIGN, the assignment record, and what the other blocks' notices do to PRM (R60, R74 to R79). -/

namespace Sys2Proof.Machine

/-! ### REASSIGN (R74) -/

/-- The entry under another car or deck. -/
def Assignment.movedTo (car deck : Nat) (open' : Bool) (a : Assignment) : Assignment :=
  { a with car := car, deck := deck, isBoarding := open' }

theorem Part.moved_eq (p : Part) (a : Assignment) (car deck : Nat) :
    p.moved a car deck = p.setAssignment a.number (·.movedTo car deck (p.standsOpenAt car deck a.boarding)) := rfl

theorem destinationsOf_eq (legs : List (Nat × Nat × Nat × Nat)) (c d f : Nat) :
    destinationsOf legs c d f
      = legs.filterMap fun x => if x.1 = c ∧ x.2.1 = d ∧ x.2.2.1 = f then some x.2.2.2 else none := by
  unfold destinationsOf
  induction legs with
  | nil => rfl
  | cons x legs ih =>
    by_cases hx : x.1 = c ∧ x.2.1 = d ∧ x.2.2.1 = f
    · simp_all
    · have hx' : ¬((x.1 = c ∧ x.2.1 = d) ∧ x.2.2.1 = f) := by rwa [and_assoc]
      simp_all

theorem Part.Seated.moved_tripKeyed {p : Part} (h : p.Seated) {a : Assignment} (ha : p.assignment a.number = some a)
    (car deck : Nat) : p.tripKeyed (p.moved a car deck) [a.tripKey, (car, deck, a.boarding)] := by
  refine Part.tripKeyed_of_legs (by rfl) fun c d f hkey => ?_
  rw [destinationsOf_eq, destinationsOf_eq]
  simp only [Part.moved, Part.legs, Part.setAssignment, List.filterMap_map]
  refine List.filterMap_congr fun b hb => ?_
  simp only [Function.comp_apply]
  split
  · next hnumber =>
    obtain rfl : b = a := by
      rw [← hnumber, Part.assignment_of_mem h.numbers hb, Option.some.injEq] at ha
      exact ha
    simp only [Assignment.tripKey, List.mem_cons, List.not_mem_nil, or_false, not_or, Prod.mk.injEq] at hkey
    obtain ⟨hold, hnew⟩ := hkey
    rw [if_neg fun heq => hnew ⟨heq.1.symm, heq.2.1.symm, heq.2.2.symm⟩,
      if_neg fun heq => hold ⟨heq.1.symm, heq.2.1.symm, heq.2.2.symm⟩]
  · rfl

/-- The prompt that changes is that of a SHOWING entry, at its own terminal. -/
theorem Part.Seated.moved_promptHead {p : Part} (h : p.Seated) {a : Assignment} (ha : p.assignment a.number = some a)
    {car deck j : Nat} (hne : (p.moved a car deck).promptHead j ≠ p.promptHead j) : a.prompt = .showing ∧ a.terminal = j := by
  rw [Part.moved_eq] at hne
  obtain ⟨hhead, b, hb, hshown⟩ := Part.setAssignment_promptHead_ne
    (f := (·.movedTo car deck (p.standsOpenAt car deck a.boarding))) (fun _ => rfl) hne
  obtain rfl : a = b := Option.some.inj (ha.symm.trans hb)
  obtain ⟨b, hb, hterminal, -⟩ := h.entry (List.mem_of_head? hhead)
  obtain rfl : a = b := Option.some.inj (ha.symm.trans hb)
  exact ⟨by_contra fun hprompt => hshown (by simp [Assignment.shownPrompt, Assignment.movedTo, hprompt]), hterminal⟩

/-- The terminal of a SHOWING entry is told of the entry's move. -/
def Part.reshown (q : Part) (a : Assignment) : Part := if a.prompt = .showing then q.cmpHeadChange a.terminal else q

theorem Part.reshown_prm (q : Part) (a : Assignment) : (q.reshown a).prm = q.prm := by
  unfold Part.reshown
  split <;> rfl

theorem Part.reshown_serves (q : Part) (a : Assignment) : Part.Serves Part.prmFrame q (q.reshown a) :=
  .ite ⟨rfl, q.recomposeFor_upholds _⟩ (.refl _ q)

theorem Part.reshown_carries (q : Part) (a : Assignment) : q.Carries (q.reshown a) := by
  unfold Part.reshown
  split
  · exact q.recomposeFor_carries _
  · exact .refl q

theorem Part.reshown_stands {q : Part} {a : Assignment} (hshowing : a.prompt = .showing) {n : NodeConfig}
    (hr : q.Applies a.terminal n .prompt) (hready : Ready q.disp a.terminal .prompt) :
    (q.reshown a).composedAt a.terminal n .prompt := by
  rw [Part.reshown, if_pos hshowing]
  exact Part.cmpHeadChange_stands hr hready

/-- An entry moves to another car or deck. -/
theorem Part.Seated.reassign {p : Part} (h : p.Seated) {a : Assignment} (ha : p.assignment a.number = some a)
    (car deck : Nat) : (p.reassign a car deck).Seated ∧ p.Carries (p.reassign a car deck) := by
  have hmoved : (p.moved a car deck).Seated := h.setAssignment a.number fun _ => rfl
  have hanew : Part.Serves Part.prmFrame (p.moved a car deck) (p.movedAnew a car deck) :=
    .ite (.refl _ _) (Part.promptEstimate_serves _ a.number true)
  obtain ⟨hseated, hcarries⟩ := hanew.upholds hmoved
  have hledger := p.movedAnew_ledger a car deck
  have hframe : (p.movedAnew a car deck).prmFrame = p.prmFrame := hanew.frame
  rw [Part.reassign_eq]
  show (p.onlyPrm (((p.movedAnew a car deck).reshown a).tripNotices p _)).Seated
    ∧ p.Carries (p.onlyPrm (((p.movedAnew a car deck).reshown a).tripNotices p _))
  generalize p.movedAnew a car deck = q at hseated hcarries hledger hframe
  have hlegs : (q.reshown a).legs = (p.moved a car deck).legs := by
    rw [Part.legs, q.reshown_prm, ← Part.legs]
    exact Part.legs_of_ledger (congrArg Ledger.entries hledger)
  have hwhole := hcarries.trans (q.reshown_carries a)
  have htrip : ∀ c d f, (q.reshown a).tripShown c d f = (p.moved a car deck).tripShown c d f :=
    tripShown_of_legs hwhole.geo hlegs
  have howes : Part.Owes (p.tripOwed (q.reshown a)) p (q.reshown a) := by
    refine (Part.owes_of_prm (p := p) (q := p.moved a car deck) rfl).partly hwhole fun hr howed hready => ?_
    obtain ⟨rfl, hne⟩ | ⟨rfl, hne⟩ := howed
    · obtain ⟨hshowing, rfl⟩ := h.moved_promptHead ha hne
      exact .inr (Part.reshown_stands hshowing (hcarries.applies hr) (hcarries.ready hr.node hready))
    · exact .inl ⟨rfl, (htrip ..).symm ▸ hne⟩
  obtain ⟨hnotices, hprm⟩ := (q.reshown a).tripNotices_frame p [a.tripKey, (car, deck, a.boarding)]
  rw [Part.onlyPrm_of_frame (hnotices.trans ((q.reshown_serves a).frame.trans hframe))]
  exact ⟨(hseated.of_prm (q.reshown_prm a)).of_prm hprm,
    .of_tripNotices howes fun c d f hne => h.moved_tripKeyed ha car deck c d f (htrip .. ▸ hne)⟩

theorem Part.prmReassign_upholds (p : Part) (words : List Word) : p.Upholds (p.prmReassign words) := by
  simp only [Part.prmReassign]
  split
  · exact p.count_upholds _ _
  · next a ha =>
    split
    · exact p.refuseAssign_upholds _ _ _
    · obtain hnumber := Part.assignment_number ha
      refine .ite (.refl p) fun h => h.reassign ?_ ..
      rwa [hnumber]

theorem Part.prmRecord_upholds (p : Part) (slot : Nat) (words : List Word) : p.Upholds (p.prmRecord slot words) := by
  unfold Part.prmRecord
  split
  · exact p.prmNew_upholds words
  · exact p.prmCancel_upholds words
  · exact p.prmReassign_upholds words
  · exact (p.count_upholds _ _).trans (Part.report_upholds _ _)

/-! ### Tracking events, lifetime and flush (R75 to R79) -/

theorem Part.prmWithdraw_upholds (p : Part) (c : Nat) : p.Upholds (p.prmWithdraw c) :=
  (Part.upholds_of_table (x := { p.prm with withdrawn := p.prm.withdrawn.set c true }) rfl rfl).trans
    (Part.retireEntries_upholds _ _ _)

theorem Part.prmReturn_upholds (p : Part) (c : Nat) : p.Upholds (p.prmReturn c) := Part.upholds_of_table rfl rfl

/-- The entry of a car that stands open at the boarding floor. -/
def Assignment.boarded (c d f : Nat) (a : Assignment) : Assignment :=
  if a.car = c && a.deck = d && a.boarding = f then { a with isBoarding := true } else a

theorem Assignment.boarded_reads (c d f : Nat) (a : Assignment) :
    (a.boarded c d f).seat = a.seat ∧ (a.boarded c d f).leg = a.leg ∧ (a.boarded c d f).shownPrompt = a.shownPrompt := by
  unfold Assignment.boarded
  split
  · exact ⟨rfl, rfl, rfl⟩
  · exact ⟨rfl, rfl, rfl⟩

theorem Part.prmArrival_upholds (p : Part) (c d f : Nat) : p.Upholds (p.prmArrival c d f) := by
  have hreads := Assignment.boarded_reads c d f
  have hnumber : ∀ a : Assignment, (a.boarded c d f).number = a.number := fun a => congrArg (·.1) (hreads a).1
  have htable : (p.prmArrival c d f).prm.table = p.prm.table.map (Assignment.boarded c d f) := rfl
  refine fun h => ⟨h.congr ?_ fun _ => rfl, ?_⟩
  · rw [htable, List.map_map]
    exact List.map_congr_left fun a _ => (hreads a).1
  · refine (Part.owes_of_legs (p := p) (q := p.prmArrival c d f) rfl ?_).carries fun _ howed _ =>
      absurd (promptHead_congr (p := p) (q := p.prmArrival c d f) rfl fun m _ => ?_) howed.2
    · rw [Part.legs, htable, List.map_map]
      exact List.map_congr_left fun a _ => (hreads a).2.1
    · simp only [Part.assignment, htable, List.find?_map, Function.comp_def, hnumber]
      cases p.prm.table.find? (·.number = m) with
      | none => rfl
      | some a => exact (hreads a).2.2

theorem Part.prmDeparture_upholds (p : Part) (c d f : Nat) : p.Upholds (p.prmDeparture c d f) := p.removeEntries_upholds _

theorem Part.lifetime_upholds (p : Part) : p.Upholds p.lifetime :=
  .ite (.refl p) ((p.removeEntries_upholds _).trans (Part.count_upholds _ _ _))

theorem Part.prmFlush_upholds (p : Part) (k : Nat) : p.Upholds (p.prmFlush k) :=
  (Part.upholds_of_table (x := { p.prm with dropReported := p.prm.dropReported.set k false }) rfl rfl).trans
    (Part.retireEntries_upholds _ _ _)

end Sys2Proof.Machine
end

section
/-! SUPPORT. Messages, text fetches and triggers leave every standing region standing, or have it recomposed (R86 to R108). -/

namespace Sys2Proof.Machine

/-! ### What MSG, TXF and TRG may not change -/

def Part.msgFrame (p : Part) := (p.base, p.trk, p.arr, p.prm)

theorem Part.onlyMsg_of_frame {p q : Part} (h : q.msgFrame = p.msgFrame) : p.onlyMsg q = q := by
  cases p
  cases q
  simp only [Part.msgFrame, Part.base, Prod.mk.injEq] at h
  simp [Part.onlyMsg, h]

theorem Part.Serves.onlyMsg {p q : Part} (h : Part.Serves Part.msgFrame p q) : Part.Serves Part.msgFrame p (p.onlyMsg q) := by
  rwa [Part.onlyMsg_of_frame h.frame]

theorem Part.prm_of_msgFrame {p q : Part} (h : q.msgFrame = p.msgFrame) : q.prm = p.prm := by
  simp only [Part.msgFrame, Prod.mk.injEq] at h
  exact h.2.2.2

theorem Part.Carries.msg {p q : Part} (h : p.Carries q) (hframe : q.msgFrame = p.msgFrame) :
    Part.Serves Part.msgFrame p q := ⟨hframe, h.upholds (Part.prm_of_msgFrame hframe)⟩

/-- Jobs, watched ranges and triggers show nowhere. -/
theorem Part.unseen_serves (p : Part) (t : Txf) (g : List (Option Trigger)) :
    Part.Serves Part.msgFrame p { p with txf := t, trg := g } :=
  Part.Carries.msg (.of_alike rfl rfl rfl fun _ _ => {}) rfl

theorem Part.onRpt_serves {φ : Type} {frame : Part → φ} (p : Part) (f : Rpt → Rpt) (h : frame (p.onRpt f) = frame p) :
    Part.Serves frame p (p.onRpt f) := ⟨h, p.onRpt_upholds f⟩

/-! ### Message entries (R94) -/

/-- Any change of the message entries, with a message notice. -/
theorem Part.noticed_serves (p : Part) (l : List Message) (t : Txf) (g : List (Option Trigger)) {d : Disp}
    (hd : d.cmp = p.disp.cmp) :
    Part.Serves Part.msgFrame p ({ p with msg := l, txf := t, trg := g, disp := d } : Part).cmpMessageNotice := by
  refine Part.Carries.msg (.of_change rfl rfl hd fun {j n r} hr _ => ?_) rfl
  by_cases hmessage : isMessageRegion r = true
  · exact .inl (List.mem_filter.mpr ⟨hr.mem, hmessage⟩)
  · exact .inr { messages := fun h => absurd h hmessage }

theorem Part.message_set (p : Part) {m : Nat} (e : Message) (hm : m < p.msg.length) : (p.setMessage m e).message m = e := by
  simp [Part.message, Part.setMessage, List.getD_eq_getElem?_getD, hm]

/-- One entry changed but for its buffer, with a message notice when an item of R94 differs. -/
theorem Part.messageNotice_serves (p : Part) {q : Part} {m : Nat} {e : Message} {t : Txf} {g : List (Option Trigger)}
    (hq : q = { p with msg := p.msg.set m e, txf := t, trg := g })
    (hbuffer : m < p.msg.length → e.text.buffer = (p.message m).text.buffer) :
    Part.Serves Part.msgFrame p (q.messageNotice p m) := by
  unfold Part.messageNotice
  simp only
  split
  · next hsame =>
    have hglimpse : (p.msg.set m e).map Message.glimpse = p.msg.map Message.glimpse := by
      by_cases hm : m < p.msg.length
      · have he : q.message m = e := by
          rw [hq]
          exact p.message_set e hm
        rw [he] at hsame
        simp only [Bool.and_eq_true, decide_eq_true_eq] at hsame
        obtain ⟨⟨⟨⟨hstate, hfields⟩, hstatus⟩, -⟩, hcars⟩ := hsame
        refine map_set_of_same Message.glimpse (dflt := Message.fresh) ?_
        show e.glimpse = (p.message m).glimpse
        simp only [Message.glimpse, hstate, hfields, hstatus, hcars, hbuffer hm]
      · rw [List.set_eq_of_length_le (by omega)]
    subst hq
    exact Part.Carries.msg (.of_alike rfl rfl rfl fun _ _ => { messages := fun _ => hglimpse }) rfl
  · subst hq
    exact p.noticed_serves _ t g rfl

/-! ### Override texts (R135) -/

/-- A channel with another of its two texts. -/
def Channel.withText (c : Channel) (banner : Bool) (t : Text) : Channel :=
  if banner then { c with bannerText := t } else { c with lineText := t }

theorem Channel.withText_rule (c : Channel) (banner : Bool) (t : Text) : (c.withText banner t).rule = c.rule := by
  cases banner <;> rfl

theorem Part.setChannel_channel_other (p : Part) {k k' : Nat} (c : Channel) (h : k' ≠ k) :
    (p.setChannel k c).channel k' = p.channel k' := by
  simp [Part.channel, Part.setChannel, List.getD_eq_getElem?_getD, List.getElem?_set_ne (Ne.symm h)]

theorem Part.setChannel_channel (p : Part) (k : Nat) (c : Channel) :
    (p.setChannel k c).channel k = c ∨ (p.setChannel k c).channel k = p.channel k := by
  by_cases hk : k < p.ovr.length
  · exact .inl (by simp [Part.channel, Part.setChannel, List.getD_eq_getElem?_getD, hk])
  · exact .inr (by rw [Part.setChannel, List.set_eq_of_length_le (by omega)])

/-- The other text is the same. -/
theorem Part.withText_other (p : Part) (k k' : Nat) (t : Text) :
    ((p.setChannel k ((p.channel k).withText false t)).channel k').bannerText = (p.channel k').bannerText
      ∧ ((p.setChannel k ((p.channel k).withText true t)).channel k').lineText = (p.channel k').lineText := by
  by_cases hk : k' = k
  · subst hk
    refine ⟨?_, ?_⟩
    · obtain h | h := p.setChannel_channel k' ((p.channel k').withText false t)
      · rw [h]
        rfl
      · rw [h]
    · obtain h | h := p.setChannel_channel k' ((p.channel k').withText true t)
      · rw [h]
        rfl
      · rw [h]
  · rw [p.setChannel_channel_other _ hk, p.setChannel_channel_other _ hk]
    exact ⟨rfl, rfl⟩

/-- The region of an override text. -/
def textRegion (banner : Bool) : Region := if banner then .banner else .line

/-- A standing region under a channel that gives it a text has the channel as its source (Table 6-5). -/
theorem Stands.source_of_governing {p : Part} {d : Disp} {j : Nat} {n : NodeConfig} {banner : Bool}
    (h : Stands p d j n (textRegion banner)) {k : Nat} (hk : p.governing n = some k) :
    (d.cmp.region j (textRegion banner)).map (·.source) = some (.channel k) := by
  obtain ⟨x, hx, -, hsource, -⟩ := h
  rw [hx, Option.map_some, hsource]
  unfold composed
  rw [hk]
  cases banner <;> rfl

/-- An override text changed, with its notice. -/
theorem Part.textNotice_serves (p : Part) (k : Nat) (banner : Bool) (x : Text) (t : Txf) {d : Disp}
    (hd : d.cmp = p.disp.cmp) :
    Part.Serves Part.msgFrame p
      (({ p with txf := t, ovr := p.ovr.set k ((p.channel k).withText banner x), disp := d } : Part).cmpTextNotice k banner) := by
  have hrules : (p.ovr.set k ((p.channel k).withText banner x)).map Channel.rule = p.ovr.map Channel.rule :=
    map_set_of_same Channel.rule (dflt := Channel.reset) (Channel.withText_rule _ banner x)
  have hother : ∀ k', k' ≠ k → (p.setChannel k ((p.channel k).withText banner x)).channel k' = p.channel k' := fun k' =>
    p.setChannel_channel_other _
  refine Part.Carries.msg (.of_change rfl rfl hd fun {j n r} hr hp => ?_) rfl
  by_cases hgoverned : r = textRegion banner ∧ p.governing n = some k
  · obtain ⟨rfl, hk⟩ := hgoverned
    refine .inl (List.mem_filter.mpr ⟨hr.mem, ?_⟩)
    have hsource := Stands.source_of_governing hp hk
    rw [← hd] at hsource
    simp only [hsource, Bool.and_eq_true, decide_eq_true_eq]
    exact ⟨rfl, trivial⟩
  · refine .inr { rules := hrules, lineText := fun hline k' hk' => ?_, bannerText := fun hbanner k' hk' => ?_ }
    · show overrideContent ((p.setChannel k ((p.channel k).withText banner x)).channel k').lineText = _
      cases banner with
      | true => rw [(p.withText_other k k' x).2]
      | false => rw [hother k' fun heq => hgoverned ⟨hline, heq ▸ hk'⟩]
    · show overrideContent ((p.setChannel k ((p.channel k).withText banner x)).channel k').bannerText = _
      cases banner with
      | true => rw [hother k' fun heq => hgoverned ⟨hbanner, heq ▸ hk'⟩]
      | false => rw [(p.withText_other k k' x).1]

/-! ### Text owners (R96 to R103) -/

/-- An owner's text changed, with its notice. -/
theorem Part.ownerNotice_serves (p : Part) (o : TextOwner) (x : Text) (t : Txf) (f : Rpt → Rpt) :
    Part.Serves Part.msgFrame p (((({ p with txf := t } : Part).setOwnerText o x).onRpt f).ownerNotice o) := by
  cases o with
  | message m => exact p.noticed_serves _ t p.trg rfl
  | line k => exact p.textNotice_serves k false x t rfl
  | banner k => exact p.textNotice_serves k true x t rfl

theorem Part.faultJob_serves (p : Part) (o : TextOwner) (cause : TextCause) :
    Part.Serves Part.msgFrame p (p.faultJob o cause) := p.ownerNotice_serves o _ _ _

theorem Part.completeJob_serves (p : Part) (j : Job) : Part.Serves Part.msgFrame p (p.completeJob j) :=
  p.ownerNotice_serves j.owner _ _ id

theorem Part.setHead_serves (p : Part) (j : Job) : Part.Serves Part.msgFrame p (p.setHead j) := p.unseen_serves _ p.trg

theorem Part.checkHeads_serves (fuel : Nat) (p : Part) : Part.Serves Part.msgFrame p (Part.checkHeads fuel p) := by
  induction fuel generalizing p with
  | zero => exact .refl _ p
  | succ fuel ih =>
    unfold Part.checkHeads
    split
    · exact .refl _ p
    · next j _ _ =>
      split
      · have counted : ∀ b : Bool, Part.Serves Part.msgFrame p (if b then p.count .textTruncation 1 else p) := fun b =>
          .ite (p.onRpt_serves _ rfl) (.refl _ p)
        simp only
        split
        · exact ((counted _).trans (Part.faultJob_serves _ j.owner _)).trans (ih _)
        · exact (counted _).trans (Part.setHead_serves _ _)
      · exact .refl _ p

theorem Part.issueRead_serves (p : Part) : Part.Serves Part.msgFrame p p.issueRead := by
  unfold Part.issueRead
  split
  · exact .ite (.refl _ p) (p.unseen_serves _ p.trg)
  · exact .refl _ p

theorem Part.txfPump_serves (p : Part) : Part.Serves Part.msgFrame p p.txfPump :=
  ((Part.checkHeads_serves _ p).trans (Part.issueRead_serves _)).onlyMsg

theorem Part.takeBytes_serves (p : Part) (j : Job) (bytes : List Byte) :
    Part.Serves Part.msgFrame p (p.takeBytes j bytes) := .ite (p.completeJob_serves _) (p.setHead_serves _)

theorem Part.feedHead_serves (p : Part) (w : Word) : Part.Serves Part.msgFrame p (p.feedHead w) := by
  unfold Part.feedHead
  split
  · exact .refl _ p
  · split
    · exact .refl _ p
    · exact p.takeBytes_serves _ _
    · exact .ite (p.faultJob_serves _ _) (.ite (p.faultJob_serves _ _) (p.takeBytes_serves _ _))

theorem Part.textData_serves (p : Part) (w : Word) : Part.Serves Part.msgFrame p (p.textData w) := by
  unfold Part.textData
  split
  · exact .refl _ p
  · have read := p.unseen_serves { p.txf with read := none } p.trg
    exact .onlyMsg (.ite read (read.trans (Part.feedHead_serves _ w)))

theorem Part.refetch_serves (p : Part) (o : TextOwner) : Part.Serves Part.msgFrame p (p.refetch o) := by
  unfold Part.refetch
  split
  · exact .refl _ p
  · exact p.unseen_serves _ p.trg

theorem Part.textWrite_serves (p : Part) (a : Nat) : Part.Serves Part.msgFrame p (p.textWrite a) :=
  .onlyMsg (.foldl (fun q o => .ite (q.unseen_serves _ q.trg) (q.refetch_serves o)) _ p)

/-! ### MSG (R86 to R95) -/

theorem Part.leaveActive_serves (p : Part) (m : Nat) : Part.Serves Part.msgFrame p (p.leaveActive m) :=
  p.noticed_serves _ p.txf _ rfl

/-- A reference dealt with after a change of one entry's other items. -/
theorem Part.dealReference_serves (p : Part) {m : Nat} {e : Message} (he : e.text = (p.message m).text)
    (old : Option TextRef) (new : TextRef) :
    Part.Serves Part.msgFrame p (((p.setMessage m e).dealReference m old new).messageNotice p m) := by
  unfold Part.dealReference
  simp only
  split
  · exact p.messageNotice_serves (t := p.txf) (g := p.trg) rfl fun _ => by rw [he]
  · refine p.messageNotice_serves (m := m)
      (e := { (p.setMessage m e).message m with text := { ((p.setMessage m e).message m).text with status := some .pending } })
      (t := (p.txf.unwatch (.message m)).requestJob (.message m) new) (g := p.trg) ?_ fun hm => ?_
    · simp only [Part.setMessage, List.set_set]
    · rw [p.message_set e hm, he]

theorem Part.msgDefine_serves (p : Part) (m : Nat) (f : MessageFields) : Part.Serves Part.msgFrame p (p.msgDefine m f) :=
  .onlyMsg (p.dealReference_serves (by rfl) _ _)

theorem Part.msgActivate_serves (p : Part) (m : Nat) (f : MessageFields) :
    Part.Serves Part.msgFrame p (p.msgActivate m f) := .onlyMsg (p.dealReference_serves (by rfl) _ _)

theorem Part.msgCancel_serves (p : Part) (m : Nat) : Part.Serves Part.msgFrame p (p.msgCancel m) :=
  .ite (p.leaveActive_serves m).onlyMsg (.refl _ p)

theorem Part.msgClear_serves (p : Part) (m : Nat) : Part.Serves Part.msgFrame p (p.msgClear m) := by
  refine .ite (.refl _ p) (.onlyMsg ?_)
  have left : Part.Serves Part.msgFrame p (if (p.message m).state = .active then p.leaveActive m else p) :=
    .ite (p.leaveActive_serves m) (.refl _ p)
  exact left.trans (Part.noticed_serves _ _ _ _ rfl)

theorem Part.refuseMessage_serves (p : Part) (m : Nat) : Part.Serves Part.msgFrame p (p.refuseMessage m) :=
  ⟨rfl, (p.count_upholds _ _).trans (Part.report_upholds _ _)⟩

theorem Part.msgRecord_upholds (p : Part) (m : Nat) (words : List Word) : p.Upholds (p.msgRecord m words) := by
  suffices Part.Serves Part.msgFrame p (p.msgRecord m words) from this.upholds
  unfold Part.msgRecord
  split
  · exact .ite (p.refuseMessage_serves m) (p.msgDefine_serves m _)
  · exact .ite (p.refuseMessage_serves m) (p.msgActivate_serves m _)
  · exact p.msgCancel_serves m
  · exact p.msgClear_serves m
  · exact p.refuseMessage_serves m

theorem Part.msgExpire_upholds (p : Part) (m : Nat) : p.Upholds (p.msgExpire m) :=
  .ite ((p.leaveActive_serves m).onlyMsg.upholds.trans (Part.report_upholds _ _)) (.refl p)

/-! ### TRG (R105 to R108) -/

theorem Part.triggerCancel_serves (p : Part) (m : Nat) : Part.Serves Part.msgFrame p (p.triggerCancel m) :=
  .ite (p.leaveActive_serves m) (.refl _ p)

theorem Part.counted_serves (p : Part) (c : CounterId) (n : Nat) : Part.Serves Part.msgFrame p (p.count c n) :=
  p.onRpt_serves _ rfl

theorem Part.levelActivate_serves (p : Part) (x : Trigger) (m : Nat) (last new : Bool) :
    Part.Serves Part.msgFrame p (p.levelActivate x m last new) := by
  unfold Part.levelActivate
  simp only
  split
  · exact p.counted_serves _ _
  · exact p.noticed_serves _ p.txf p.trg rfl
  · exact p.messageNotice_serves (t := p.txf) (g := p.trg) rfl fun _ => rfl
  · split
    · exact p.noticed_serves _ p.txf _ rfl
    · exact p.messageNotice_serves (t := p.txf) (g := p.trg) rfl fun _ => rfl
  all_goals exact .refl _ p

theorem Part.edgeActivate_serves (p : Part) (t : Nat) (x : Trigger) (m : Nat) :
    Part.Serves Part.msgFrame p (p.edgeActivate t x m) := by
  unfold Part.edgeActivate
  simp only
  split
  · exact (p.counted_serves _ _).trans (Part.onRpt_serves _ _ rfl)
  · exact .ite (p.counted_serves _ _) (p.messageNotice_serves (t := p.txf) rfl fun _ => rfl)

theorem Part.triggerAct_serves (p : Part) (t : Nat) (x : Trigger) (last new : Bool) :
    Part.Serves Part.msgFrame p (p.triggerAct t x last new) := by
  have edge : Part.Serves Part.msgFrame p (Part.triggerAct.edge p t x new) := by
    unfold Part.triggerAct.edge
    split
    · exact p.edgeActivate_serves t x _
    · exact p.triggerCancel_serves _
    · exact p.onRpt_serves _ rfl
  unfold Part.triggerAct
  split
  · split
    · exact p.levelActivate_serves x _ last new
    · exact .ite (p.triggerCancel_serves _) (.refl _ p)
    · exact .refl _ p
  · exact .ite edge (.refl _ p)
  · exact .ite edge (.refl _ p)
  · exact .ite edge (.refl _ p)

theorem Part.recordCondition_serves (p : Part) (t : Nat) (new : Bool) :
    Part.Serves Part.msgFrame p (p.recordCondition t new) := by
  unfold Part.recordCondition
  split
  · exact .refl _ p
  · exact p.unseen_serves p.txf _

theorem Part.evaluateTrigger_serves (p : Part) (c : Nat) (words : List Word) (t : Nat) :
    Part.Serves Part.msgFrame p (p.evaluateTrigger c words t) := by
  unfold Part.evaluateTrigger
  split
  · exact .refl _ p
  · split
    · exact .refl _ p
    · simp only
      split
      · exact p.recordCondition_serves t _
      · exact (p.triggerAct_serves t _ _ _).trans (Part.recordCondition_serves _ t _)

theorem Part.trgHandOn_serves (p : Part) (c : Nat) (words : List Word) : Part.Serves Part.msgFrame p (p.trgHandOn c words) :=
  .onlyMsg (.foldl (fun q t => q.evaluateTrigger_serves c words t) _ p)

end Sys2Proof.Machine
end

section
/-! SUPPORT. The override unit and the link engines leave every standing region standing, or have it recomposed (R127 to R135,
R144 to R163). -/

namespace Sys2Proof.Machine

/-! ### Channels (R127 to R133) -/

/-- What CMP reads of a channel. -/
def Channel.shows (c : Channel) : (Option ChannelConfig × Bool) × Text × Text := (c.rule, c.lineText, c.bannerText)

/-- Channels that show the same. -/
theorem Part.carries_of_shows {p q : Part} (h : { p with sampledAt := q.sampledAt, ovr := q.ovr } = q)
    (hshows : q.ovr.map Channel.shows = p.ovr.map Channel.shows) : p.Carries q := by
  have hrules := congrArg (List.map Prod.fst) hshows
  simp only [List.map_map] at hrules
  have hchannel : ∀ k, (q.channel k).shows = (p.channel k).shows := fun k => getD_of_map_eq hshows k _
  have htext : ∀ k, (q.channel k).lineText = (p.channel k).lineText ∧ (q.channel k).bannerText = (p.channel k).bannerText :=
    fun k => Prod.mk.inj (Prod.mk.inj (hchannel k)).2
  generalize q.ovr = o, q.sampledAt = t at h hrules htext
  subst h
  exact .of_alike rfl rfl rfl fun _ _ => {
    rules := hrules
    lineText := fun _ k _ => by rw [(htext k).1]
    bannerText := fun _ k _ => by rw [(htext k).2] }

theorem Part.setChannel_upholds (p : Part) (k : Nat) {c : Channel} (h : c.shows = (p.channel k).shows) :
    p.Upholds (p.setChannel k c) :=
  Part.Carries.upholds (p.carries_of_shows rfl (map_set_of_same Channel.shows (dflt := Channel.reset) h)) rfl

theorem Part.sampleLines_upholds (p : Part) : p.Upholds p.sampleLines := by
  refine .ite (Part.Carries.upholds (p.carries_of_shows rfl ?_) rfl) (.refl p)
  refine List.ext_getElem (by simp) fun k hk hk' => ?_
  simp only [List.length_map, List.length_range] at hk hk'
  simp only [List.getElem_map, List.getElem_range, Channel.shows, Channel.rule, Part.channel]
  simp [List.getD_eq_getElem?_getD, List.getElem?_eq_getElem hk']

/-- Any change of the channels, with a channel change. -/
theorem Part.channelChange_upholds (p : Part) (o : List Channel) : p.Upholds ({ p with ovr := o } : Part).cmpChannelChange :=
  Part.Carries.upholds (.of_change rfl rfl rfl fun hr _ => .inl hr.mem) rfl

theorem Part.cmpChannelChange_stands {q : Part} {j : Nat} {n : NodeConfig} {r : Region} (hr : q.Applies j n r)
    (hready : Ready q.disp j r) : q.cmpChannelChange.composedAt j n r := Part.recomposeFor_stands hr hr.mem hready

/-- An activation flushes the terminals in scope and has every region recomposed (R133). -/
theorem Part.activateChannel_upholds (p : Part) (k : Nat) : p.Upholds (p.activateChannel k) := by
  refine Part.Upholds.trans (q := ((p.setChannel k { p.channel k with latch := true }).prmFlush k).cmpChannelChange) ?_
    (Part.report_upholds _ _)
  have howes : Part.Owes (fun _ _ _ => True) p (p.setChannel k { p.channel k with latch := true }) :=
    .of_alike rfl rfl rfl fun _ _ => .inl trivial
  intro hp
  obtain ⟨hseated, hcarries⟩ := (p.setChannel k { p.channel k with latch := true }).prmFlush_upholds k (hp.of_prm rfl)
  exact ⟨hseated.of_prm rfl, howes.settle (hcarries.trans (Part.recomposeFor_carries _ _)) fun hr _ hready =>
    Part.cmpChannelChange_stands (hcarries.applies hr) (hcarries.ready hr.node hready)⟩

theorem Part.sourceChange_upholds (p : Part) (k : Nat) : p.Upholds (p.sourceChange k) :=
  Part.Upholds.trans (.ite (p.activateChannel_upholds k) (.refl p)) (Part.status_upholds _ _ _)

theorem Part.testLine_upholds (p : Part) (k : Nat) : p.Upholds (p.testLine k) := by
  unfold Part.testLine
  simp only
  split
  · exact .refl p
  · next mode _ =>
    have tested := p.setChannel_upholds k (c := { p.channel k with
      test := none, accepted := acceptLine mode (p.channel k).samples (p.channel k).accepted }) rfl
    exact .ite tested (tested.trans (Part.sourceChange_upholds _ k))

theorem Part.memoryRequest_upholds (p : Part) (words : List Word) (k : Nat) : p.Upholds (p.memoryRequest words k) :=
  .ite (.refl p) ((p.setChannel_upholds k (by rfl)).trans (Part.sourceChange_upholds _ k))

theorem Part.ovrRecord_upholds (p : Part) (words : List Word) : p.Upholds (p.ovrRecord words) :=
  .ite ((p.count_upholds _ _).trans (Part.report_upholds _ _)) (.foldl (fun q k => q.memoryRequest_upholds words k) _ p)

theorem Part.applyLines_upholds (p : Part) : p.Upholds p.applyLines :=
  .foldl (fun q k => .ite (q.sourceChange_upholds k) (.refl q)) _ p

theorem Part.clearLatch_upholds (p : Part) (k : Nat) : p.Upholds (p.clearLatch k) :=
  .ite (((p.channelChange_upholds _).trans (Part.report_upholds _ _)).trans (Part.status_upholds _ _ _)) (.refl p)

/-! ### The link engines (chapter 8) -/

theorem Disp.nodeNotice_cmp (d : Disp) (ring position : Nat) : (d.nodeNotice ring position).cmp = d.cmp := by
  unfold Disp.nodeNotice
  split <;> rfl

theorem Disp.nodeNoticeIf_cmp (d : Disp) (ring position : Nat) (n : LinkNode) :
    (d.nodeNoticeIf ring position n).cmp = d.cmp := by
  unfold Disp.nodeNoticeIf
  split
  · rfl
  · split
    · rfl
    · exact d.nodeNotice_cmp ring position

section
variable (p : Part)

theorem setRing_carried (d : Disp) (ring : Nat) (r : Ring) : Carried p d (d.setRing ring r) := .of_cmp rfl

theorem Carried.report (d : Disp) (b : Prop) [Decidable b] (w : Word × Word) :
    Carried p d (if b then d.onRpt (·.hand p.now w) else d) := by
  split
  · exact .of_cmp rfl
  · exact .refl p d

theorem Part.loseNode_carried (d : Disp) (ring position : Nat) (report : Bool) :
    Carried p d (p.loseNode d ring position report) := by
  unfold Part.loseNode
  split
  · exact .refl p d
  · have lost : ∀ r i, Carried p d (nodeLost (d.setRing ring r) i) := fun r i =>
      (setRing_carried p d ring r).trans (setReachable_carried p _ i false)
    exact ((lost _ _).trans (.report p _ _ _)).trans (.of_cmp (Disp.nodeNotice_cmp ..))

theorem Part.joinNode_carried (d : Disp) (ring position : Nat) (n : LinkNode) (a : Arrived) :
    Carried p d (p.joinNode d ring position n a) := by
  have joined : ∀ r i, Carried p d (nodeJoined p (d.setRing ring r) i) := fun r i =>
    (setRing_carried p d ring r).trans (nodeJoined_carried p _ i)
  exact ((joined _ _).trans (.report p _ _ _)).trans (.of_cmp (Disp.nodeNotice_cmp ..))

theorem Part.decideAccepted_carried (d : Disp) (ring : Nat) (rec : SendRecord) (n : LinkNode) (a : Arrived) :
    Carried p d (p.decideAccepted d ring rec n a) := by
  simp only [Part.decideAccepted]
  have noticed : ∀ r, Carried p d ((d.setRing ring r).nodeNoticeIf ring rec.position n) := fun r =>
    .of_cmp (Disp.nodeNoticeIf_cmp ..)
  split
  · exact (noticed _).trans (reissueIn_carried p _ _)
  · exact noticed _

theorem Part.decideFailed_carried (d : Disp) (ring : Nat) (rec : SendRecord) (n : LinkNode) :
    Carried p d (p.decideFailed d ring rec n) := by
  simp only [Part.decideFailed]
  split
  · exact (setRing_carried p ..).trans (p.loseNode_carried ..)
  · exact .of_cmp (Disp.nodeNoticeIf_cmp ..)

theorem Part.decideFrame_carried (d : Disp) (ring tag : Nat) (rec : SendRecord) (answer : Option Arrived) :
    Carried p d (p.decideFrame d ring tag rec answer) := by
  unfold Part.decideFrame
  split
  · exact .refl p d
  · split
    · exact p.decideFailed_carried ..
    · split
      · exact p.decideAccepted_carried ..
      · exact .of_cmp rfl
      · exact .of_cmp rfl
      · exact p.decideFailed_carried ..
    · exact .of_cmp rfl
    · split
      · exact p.joinNode_carried ..
      all_goals exact .of_cmp rfl

theorem Part.returnOutstanding_carried (ring tag : Nat) (rec : SendRecord) (port : Port) (a : Arrived) :
    Carried p p.disp (p.returnOutstanding ring tag rec port a) := by
  have decided : ∀ r, Carried p p.disp (p.decideFrame (p.disp.setRing ring r) ring tag rec (some a)) := fun r =>
    (setRing_carried p ..).trans (p.decideFrame_carried ..)
  simp only [Part.returnOutstanding]
  split
  · exact .of_cmp rfl
  · split
    · split
      · split
        · exact .of_cmp rfl
        · exact decided _
      · exact decided _
    · exact decided _

theorem Part.loseRing_carried (d : Disp) (ring : Nat) : Carried p d (p.loseRing d ring) := by
  refine .foldl (fun d i => ?_) _ d
  split
  · exact .refl p d
  · split
    · exact p.loseNode_carried ..
    · exact .refl p d

theorem clearStatistics_carried (d : Disp) : Carried p d (clearStatistics d) :=
  .foldl (f := fun d n => (d.setRing n ((d.ring n).onStats fun _ => Statistics.cleared)).linkNotice n)
    (fun _ _ => .of_cmp rfl) _ d

/-! ### Link events -/

theorem Part.upholds_of_carried {d : Disp} (h : Carried p p.disp d) : p.Upholds { p with disp := d } :=
  Part.Carries.upholds (.disp h) rfl

theorem Part.sendFrame_upholds (r : Nat) : p.Upholds (p.sendFrame r) := by
  simp only [Part.sendFrame]
  split
  · exact p.upholds_of_carried (.of_cmp rfl)
  · exact .refl p

theorem Part.frameReturn_upholds (r : Nat) (port : Port) (bytes : List Byte) : p.Upholds (p.frameReturn r port bytes) := by
  simp only [Part.frameReturn]
  split
  · exact .refl p
  · exact .refl p
  · split
    · exact p.upholds_of_carried (.of_cmp rfl)
    · exact p.upholds_of_carried (.of_cmp rfl)
    · exact p.upholds_of_carried (p.returnOutstanding_carried ..)

theorem Part.returnTimeout_upholds (r tag : Nat) : p.Upholds (p.returnTimeout r tag) := by
  unfold Part.returnTimeout
  split
  · split
    · exact p.upholds_of_carried ((setRing_carried p ..).trans (p.decideFrame_carried ..))
    · exact .refl p
    · exact .refl p
  · exact .refl p

theorem Part.trailingTimeout_upholds (r tag : Nat) : p.Upholds (p.trailingTimeout r tag) :=
  .ite (p.upholds_of_carried (.of_cmp rfl)) (.refl p)

theorem Part.busyBackoff_upholds (r position : Nat) (region : Option Region) : p.Upholds (p.busyBackoff r position region) := by
  unfold Part.busyBackoff
  split
  · exact .refl p
  · split
    · exact .refl p
    · exact p.upholds_of_carried (.of_cmp rfl)

theorem Part.pollTimer_upholds (r position : Nat) : p.Upholds (p.pollTimer r position) := by
  unfold Part.pollTimer
  split
  · exact .refl p
  · exact .ite (p.upholds_of_carried (.of_cmp rfl)) (.refl p)

theorem Part.joinTimer_upholds (r position : Nat) : p.Upholds (p.joinTimer r position) := by
  unfold Part.joinTimer
  split
  · exact .refl p
  · exact .ite (p.upholds_of_carried (.of_cmp rfl)) (.refl p)

theorem Part.ringCheck_upholds (r : Nat) : p.Upholds (p.ringCheck r) :=
  .ite (p.upholds_of_carried (.of_cmp rfl)) (.refl p)

theorem Part.traceEnd_upholds (r : Nat) : p.Upholds (p.traceEnd r) := by
  simp only [Part.traceEnd]
  split
  · exact .refl p
  · split
    · refine p.upholds_of_carried ?_
      have entered : ∀ (x : Ring) (b : Prop) [Decidable b],
          Carried p p.disp (if b then p.loseRing (p.disp.setRing r x) r else p.disp.setRing r x) := by
        intro x b _
        split
        · exact (setRing_carried p ..).trans (p.loseRing_carried ..)
        · exact .of_cmp rfl
      split
      · exact (entered _ _).trans (.of_cmp rfl)
      · exact (entered _ _).trans (.of_cmp rfl)
    · exact .refl p

end

end Sys2Proof.Machine
end

section
/-! SUPPORT. The tracker leaves every standing region standing, or has it recomposed (R19, R30 to R37). -/

namespace Sys2Proof.Machine

/-! ### Faces -/

theorem Car.face_unvisited (x : Car) (d : Nat) : x.unvisited.face d = x.face d := by
  have hdeck : x.unvisited.deck d = { x.deck d with visit := none, opened := false } :=
    List.getD_map (n := d) x.decks Deck.fresh (fun k : Deck => ({ k with visit := none, opened := false } : Deck))
  simp only [Car.face, hdeck]
  rfl

theorem Part.face_of_unvisited {p q : Part} (h : q.trk.map Car.unvisited = p.trk.map Car.unvisited) (c d : Nat) :
    q.face c d = p.face c d := by
  have hcar : (q.car c).unvisited = (p.car c).unvisited := car_of_map_eq h c
  rw [Part.face, Part.face, ← Car.face_unvisited, hcar, Car.face_unvisited]

/-- The regions of the decks whose face is another in `q`. -/
def Part.faceOwed (p q : Part) : Regions := fun _ n r =>
  (n.type = .carPanel ∨ r = .floor) ∧ q.face n.car n.deck ≠ p.face n.car n.deck

/-- What a change of the tracker owes. -/
theorem Part.owes_of_trk {p q : Part} (h : { p with trk := q.trk } = q) : Part.Owes (p.faceOwed q) p q := by
  have hface : ∀ {c d}, ({ p with trk := q.trk } : Part).face c d = q.face c d := by
    rw [h]
    exact rfl
  generalize q.trk = l at h hface
  subst h
  refine .of_alike rfl rfl rfl fun {j n r} _ _ => ?_
  by_cases howed : p.faceOwed { p with trk := l } j n r
  · exact .inl howed
  · exact .inr { face := fun hn => by_contra fun hne => howed ⟨hn, hne⟩ }

theorem Part.setCar_face (p : Part) (c : Nat) (x : Car) (c' d : Nat) :
    (p.setCar c x).face c' d = p.face c' d ∨ c' = c ∧ (p.setCar c x).face c' d = x.face d := by
  unfold Part.face
  rw [p.car_setCar]
  split
  · next h => exact .inr ⟨h.1, rfl⟩
  · exact .inl rfl

/-- A car that looks the same. -/
theorem Part.setCar_upholds (p : Part) (c : Nat) {x : Car} (h : ∀ d, x.face d = (p.car c).face d) :
    p.Upholds (p.setCar c x) := by
  refine Part.Carries.upholds ((Part.owes_of_trk rfl).carries fun {_ n _} _ howed _ => absurd ?_ howed.2) rfl
  obtain hsame | ⟨hcar, hset⟩ := p.setCar_face c x n.car n.deck
  · exact hsame
  · rw [hset, h, hcar, Part.face]

/-! ### Visits, arrivals and departures (R32 to R34) -/

theorem Part.setVisit_upholds (p : Part) (c d : Nat) (visit : Option Nat) (opened : Bool) :
    p.Upholds (p.setVisit c d visit opened) :=
  Part.Carries.upholds ((Part.owes_of_trk rfl).carries fun _ howed _ =>
    absurd (Part.face_of_unvisited (p.setVisit_unvisited c d visit opened) _ _) howed.2) rfl

theorem Part.endVisit_upholds (p : Part) (c d : Nat) : p.Upholds (p.endVisit c d) := by
  unfold Part.endVisit
  split
  · exact .refl p
  · exact Part.Upholds.trans (.ite ((p.arrDeparture_serves c d _).upholds.trans (Part.prmDeparture_upholds _ c d _)) (.refl p))
      (Part.setVisit_upholds _ c d none false)

theorem Part.beginVisit_upholds (p : Part) (c d f : Nat) : p.Upholds (p.beginVisit c d f) :=
  .ite (.refl p) ((p.endVisit_upholds c d).trans (Part.setVisit_upholds _ c d (some f) false))

theorem Part.openVisit_upholds (p : Part) (c d f : Nat) : p.Upholds (p.openVisit c d f) :=
  .ite (((p.arrArrival_serves c d f).upholds.trans (Part.prmArrival_upholds _ c d f)).trans
    (Part.setVisit_upholds _ c d (some f) true)) (.refl p)

theorem Part.updateVisit_upholds (p : Part) (c d : Nat) : p.Upholds (p.updateVisit c d) := by
  unfold Part.updateVisit
  split
  · exact (p.beginVisit_upholds c d _).trans (Part.openVisit_upholds _ c d _)
  · exact .refl p
  · exact p.endVisit_upholds c d
  · exact p.endVisit_upholds c d
  all_goals exact .refl p

/-! ### Notices (R35 to R38) -/

theorem Part.noticeWithdrawal_upholds (p : Part) (c : Nat) (before : Car) : p.Upholds (p.noticeWithdrawal c before) :=
  .ite ((p.prmWithdraw_upholds c).trans (Part.arrWithdraw_upholds _ c))
    (.ite ((p.prmReturn_upholds c).trans (Part.arrReturn_upholds _ c)) (.refl p))

theorem Part.noticeStatus_upholds (p : Part) (c : Nat) (before : Car) : p.Upholds (p.noticeStatus c before) :=
  .ite (.refl p) (p.status_upholds _ _)

theorem Part.cmpDeckChange_stands {q : Part} {j : Nat} {n : NodeConfig} {r : Region} (hr : q.Applies j n r)
    (hreads : n.type = .carPanel ∨ r = .floor) (hready : Ready q.disp j r) :
    (q.cmpDeckChange n.car n.deck).composedAt j n r := by
  refine Part.recomposeFor_stands hr ?_ hready
  have hmem := hr.mem
  simp only [decide_true, Bool.and_self, if_true]
  cases htype : n.type with
  | carPanel => exact hmem
  | hallLantern =>
    obtain hpanel | rfl := hreads
    · simp [htype] at hpanel
    · exact List.mem_filter.mpr ⟨hmem, by simp⟩
  | terminal | lobbyBoard =>
    obtain hpanel | rfl := hreads
    · simp [htype] at hpanel
    · simp [NodeConfig.regions, htype] at hmem

/-- A region that reads a face is of a node bound to a deck. -/
theorem Part.Applies.deck {p : Part} {j : Nat} {n : NodeConfig} {r : Region} (hr : p.Applies j n r)
    (hreads : n.type = .carPanel ∨ r = .floor) : n.deck ∈ p.decksOf n.car := by
  have hbound : n.type = .carPanel ∨ n.type = .hallLantern := by
    obtain hpanel | rfl := hreads
    · exact .inl hpanel
    · have hmem := hr.mem
      cases htype : n.type with
      | carPanel => exact .inl rfl
      | hallLantern => exact .inr rfl
      | terminal | lobbyBoard => simp [NodeConfig.regions, htype] at hmem
  simpa [Part.isDeck] using hr.bound hbound

theorem deckChanged_of_face {before after : Car} {d : Nat} (h : after.face d ≠ before.face d) :
    deckChanged before after d = true := by
  by_contra hnot
  simp only [deckChanged, Bool.or_eq_true, decide_eq_true_eq, bne_iff_ne, ne_eq, not_or, not_not] at hnot
  obtain ⟨⟨⟨⟨⟨haccepted, hstate⟩, hmode⟩, hdrive⟩, hmotion⟩, -⟩ := hnot
  refine h ?_
  have hmoving : decide (after.motion ≠ .still) = decide (before.motion ≠ .still) := by
    simp only [ne_eq, decide_not, hmotion]
  simp only [Car.face, haccepted, hstate, hmode, hdrive, hmoving]

theorem Part.noticeChanges_carries (p : Part) (c : Nat) (before : Car) : p.Carries (p.noticeChanges c before) :=
  .foldl (f := fun (q : Part) d => q.cmpDeckChange c d) (fun q _ => q.recomposeFor_carries _) _ p

/-- A change notice has the regions recomposed that read a face otherwise (R37). -/
theorem Part.noticeChanges_stands {q : Part} {before : Car} {j : Nat} {n : NodeConfig} {r : Region} (hr : q.Applies j n r)
    (hreads : n.type = .carPanel ∨ r = .floor) (hchanged : q.face n.car n.deck ≠ before.face n.deck)
    (hready : Ready q.disp j r) : (q.noticeChanges n.car before).composedAt j n r :=
  Part.foldl_stands (f := fun (q : Part) d => q.cmpDeckChange n.car d) (fun q _ => q.recomposeFor_carries _)
    (List.mem_filter.mpr ⟨hr.deck hreads, deckChanged_of_face hchanged⟩)
    (fun _ hr hready => Part.cmpDeckChange_stands hr hreads hready) hr hready

/-! ### One evaluation (R19) -/

theorem Part.countInterpretation_upholds (p : Part) (words : List Word) : p.Upholds (p.countInterpretation words) := by
  unfold Part.countInterpretation
  exact ((p.count_upholds _ _).trans (Part.count_upholds _ _ _)).trans (Part.count_upholds _ _ _)

/-- Steps 5 to 7 up to the change notices. -/
def Part.evaluated (p : Part) (c : Nat) (cfg : CarConfig) (words : List Word) (before : Car) : Part :=
  ((((List.range cfg.decks).foldl (fun q d => q.updateVisit c d) p).noticeWithdrawal c before).trgHandOn c
    (words.take 15)).arrEvaluation c

theorem Part.evaluated_upholds (p : Part) (c : Nat) (cfg : CarConfig) (words : List Word) (before : Car) :
    p.Upholds (p.evaluated c cfg words before) :=
  (((Part.Upholds.foldl (fun q d => q.updateVisit_upholds c d) _ p).trans
    (Part.noticeWithdrawal_upholds _ c before)).trans (Part.trgHandOn_serves _ c _).upholds).trans
    (Part.arrEvaluation_serves _ c).upholds

theorem Part.evaluated_face (p : Part) (c : Nat) (cfg : CarConfig) (words : List Word) (before : Car) (c' d : Nat) :
    (p.evaluated c cfg words before).face c' d = p.face c' d := by
  refine Part.face_of_unvisited ?_ c' d
  rw [Part.evaluated, Part.arrEvaluation_trk, Part.trgHandOn_trk, Part.noticeWithdrawal_trk]
  exact foldl_keeps (fun q : Part => q.trk.map Car.unvisited) (fun q d => q.updateVisit_unvisited c d) _ p

/-- A car replaced, the steps after it, and the change notices. -/
theorem Part.evaluated_noticed_upholds (p : Part) (c : Nat) (cfg : CarConfig) (words : List Word) (x : Car) :
    p.Upholds ((((p.setCar c x).evaluated c cfg words (p.car c)).noticeChanges c (p.car c)).noticeStatus c (p.car c)) := by
  intro hp
  obtain ⟨hseated, hcarries⟩ := (p.setCar c x).evaluated_upholds c cfg words (p.car c) (hp.of_prm rfl)
  have hface := (p.setCar c x).evaluated_face c cfg words (p.car c)
  generalize (p.setCar c x).evaluated c cfg words (p.car c) = q at hseated hcarries hface
  have hstatus := ((q.noticeChanges c (p.car c)).noticeStatus_upholds c (p.car c)) (hseated.of_prm (Part.noticeChanges_prm ..))
  refine ⟨hstatus.1, (Part.owes_of_trk rfl).settle ((hcarries.trans (q.noticeChanges_carries c _)).trans hstatus.2)
    fun {j n r} hr howed hready => ?_⟩
  obtain ⟨hreads, hne⟩ := howed
  obtain hsame | ⟨hcar, -⟩ := p.setCar_face c x n.car n.deck
  · exact absurd hsame hne
  · subst hcar
    have hr' := hcarries.applies hr
    exact hstatus.2.keeps ((q.noticeChanges_carries _ _).applies hr')
      (Part.noticeChanges_stands hr' hreads (by rw [hface]; exact hne) (hcarries.ready hr.node hready))

/-- The counts of a record and the return of a STALE car, before the tracking. -/
def Part.received (p : Part) (c : Nat) (words : List Word) : Part :=
  if p.isStale c then (p.countInterpretation words).report (repCarResumed c) else p.countInterpretation words

theorem Part.received_car (p : Part) (c : Nat) (words : List Word) : (p.received c words).car c = p.car c := by
  unfold Part.received
  split <;> rfl

theorem Part.received_upholds (p : Part) (c : Nat) (words : List Word) : p.Upholds (p.received c words) :=
  .ite ((p.countInterpretation_upholds words).trans (Part.report_upholds _ _)) (p.countInterpretation_upholds words)

theorem Part.evaluateCar_upholds (p : Part) (c : Nat) (cfg : CarConfig) (words : List Word) :
    p.Upholds (p.evaluateCar c cfg words) := by
  have handed := (p.received c words).evaluated_noticed_upholds c cfg words (trackCar p cfg c words)
  rw [p.received_car c words] at handed
  exact (p.received_upholds c words).trans handed

theorem Part.trkRecord_upholds (p : Part) (c : Nat) (words : List Word) : p.Upholds (p.trkRecord c words) := by
  unfold Part.trkRecord
  split
  · exact (p.count_upholds _ _).trans (Part.report_upholds _ _)
  · exact p.evaluateCar_upholds c _ words

/-! ### Staleness (R30) -/

/-- A car replaced, every deck's regions recomposed. -/
theorem Part.shown_upholds (p : Part) (c : Nat) (x : Car) (w : Word × Word) :
    p.Upholds ((p.decksOf c).foldl (fun q d => q.cmpDeckChange c d) ((p.setCar c x).report w)) := by
  have hreported := (p.setCar c x).onRpt_carries (·.hand p.now w)
  have hfold : ∀ q : Part, q.Carries ((p.decksOf c).foldl (fun q d => q.cmpDeckChange c d) q) := fun q =>
    .foldl (f := fun (q : Part) d => q.cmpDeckChange c d) (fun q _ => q.recomposeFor_carries _) _ q
  have hprm : ∀ q : Part, ((p.decksOf c).foldl (fun q d => q.cmpDeckChange c d) q).prm = q.prm := fun q =>
    foldl_keeps Part.prm (f := fun (q : Part) d => q.cmpDeckChange c d) (fun _ _ => rfl) _ q
  refine Part.Carries.upholds ((Part.owes_of_trk (p := p) (q := p.setCar c x) rfl).settle (hreported.trans (hfold _))
    fun {j n r} hr howed hready => ?_) (hprm _)
  obtain ⟨hreads, hne⟩ := howed
  obtain hsame | ⟨hcar, -⟩ := p.setCar_face c x n.car n.deck
  · exact absurd hsame hne
  · subst hcar
    exact Part.foldl_stands (f := fun (q : Part) d => q.cmpDeckChange n.car d) (fun q _ => q.recomposeFor_carries _)
      (hr.deck hreads) (fun _ hr hready => Part.cmpDeckChange_stands hr hreads hready) (hreported.applies hr)
      (hreported.ready hr.node hready)

theorem Part.staleExpiry_upholds (p : Part) (c : Nat) : p.Upholds (p.staleExpiry c) :=
  .ite (((p.shown_upholds c _ _).trans (Part.arrEvaluation_serves _ c).upholds).trans
    (Part.noticeStatus_upholds _ c (p.car c))) (.refl p)

theorem Part.staleNow_upholds (p : Part) : p.Upholds p.staleNow := .foldl (fun q c => q.staleExpiry_upholds c) _ p

theorem Part.emptyHistory_upholds (p : Part) (c : Nat) : p.Upholds (p.emptyHistory c) :=
  .ite (p.setCar_upholds c fun _ => by rfl) (.refl p)

end Sys2Proof.Machine
end

section
/-! SUPPORT and PROOFS. A fresh configuration stands composed (R110, R126, R174), and the step lemma of the composition. -/

namespace Sys2Proof.Machine

/-! ### The part as an acceptance forms it -/

theorem Car.fresh_deck (d : Nat) : Car.fresh.deck d = Deck.fresh := by
  match d with
  | 0 | 1 | _ + 2 => rfl

theorem mem_insertLantern {l x : Lantern} {acc : List Lantern} (h : x ∈ insertLantern l acc) : x = l ∨ x ∈ acc := by
  induction acc with
  | nil => exact .inl (List.mem_singleton.mp h)
  | cons y acc ih =>
    unfold insertLantern at h
    split at h
    · exact .inr h
    · split at h
      · exact List.mem_cons.mp h
      · obtain rfl | h := List.mem_cons.mp h
        · exact .inr (List.mem_cons_self ..)
        · exact (ih h).imp_right (List.mem_cons_of_mem y)

/-- Every lantern begins DARK (R51). -/
theorem freshArr_dark {nodes : List (Option NodeConfig)} : ∀ l ∈ (freshArr nodes).lanterns, l.state = .dark := by
  unfold freshArr
  refine List.foldlRecOn (motive := fun acc : List Lantern => ∀ l ∈ acc, l.state = .dark) nodes _ nofun
    fun acc hacc n _ l hl => ?_
  split at hl
  · exact hacc l hl
  · split at hl
    · obtain rfl | hl := mem_insertLantern hl
      · rfl
      · exact hacc l hl
    · exact hacc l hl

/-- The blocks as an acceptance forms them from the node table, no channel on. -/
structure Part.Fresh (p : Part) : Prop where
  trk : p.trk = List.replicate Config.maxCars Car.fresh
  arr : p.arr = freshArr p.nodes
  prm : p.prm = freshPrm p.nodes
  msg : p.msg = List.replicate Config.maxMessages Message.fresh
  latch : ∀ k < Config.channels, (p.channel k).latch = false
  cmp : p.disp.cmp = freshCmp p.nodes

theorem Part.replaced_fresh (p : Part) (t : Take) : (p.replaced t).Fresh where
  trk := rfl
  arr := rfl
  prm := rfl
  msg := rfl
  cmp := rfl
  latch k hk := by
    simp only [Part.channel, Part.replaced, List.getD_eq_getElem?_getD, List.getElem?_map, List.getElem?_range hk]
    rfl

section
variable {p : Part} (h : p.Fresh)
include h

theorem Part.Fresh.queueOf (t : Nat) : p.queueOf t = [] := by
  unfold Part.queueOf
  rw [h.prm]
  cases hfind : (freshPrm p.nodes).queues.find? (·.terminal = t) with
  | none => rfl
  | some q =>
    obtain ⟨j, -, hj⟩ := List.mem_filterMap.mp (List.mem_of_find?_eq_some hfind)
    split at hj
    · cases hj
    · split at hj
      · rw [← Option.some.inj hj]
        rfl
      · cases hj

theorem Part.Fresh.seated : p.Seated where
  numbers := by
    rw [h.prm]
    exact List.nodup_nil
  once t := by
    rw [h.queueOf]
    exact List.nodup_nil
  seat hn := by
    rw [h.queueOf] at hn
    cases hn

theorem Part.Fresh.unknown (c d : Nat) : (p.deck c d).state = .unknown := by
  rw [Part.deck, Part.car, h.trk, getD_replicate_self, Car.fresh_deck]
  rfl

theorem Part.Fresh.dark {c d f : Nat} {l : Lantern} (hl : p.lantern c d f = some l) : l.state = .dark := by
  unfold Part.lantern at hl
  rw [h.arr] at hl
  exact freshArr_dark l (List.mem_of_find?_eq_some hl)

theorem Part.Fresh.governing (n : NodeConfig) : p.governing n = none := by
  refine List.find?_eq_none.mpr fun k hk => ?_
  have hoff : p.channelOn k = false := by
    rw [Part.channelOn, decide_eq_false_iff_not, Channel.state_ne_off, h.latch k (List.mem_range.mp hk)]
    exact Bool.false_ne_true
  simp [hoff]

/-- Every region begins blank (R126). -/
theorem Part.Fresh.blank (j : Nat) (n : NodeConfig) (r : Region) : (normalContent p j n r none).1 = Content.blank := by
  cases r with
  | floor => simp [normalContent, floorContent, h.unknown]
  | arrow =>
    have hlantern : lanternArrow p n.car n.deck n.floor = Content.blank := by
      unfold lanternArrow
      split
      · rfl
      · next l hl => simp [h.dark hl]
    cases htype : n.type with
    | carPanel => simp [normalContent, htype, carArrow, h.unknown]
    | hallLantern => simp [normalContent, htype, hlantern]
    | terminal | lobbyBoard => simp [normalContent, htype]
  | trip =>
    have hlit : p.lanternLit n.car n.deck n.floor = false := by
      unfold Part.lanternLit
      split
      · rfl
      · next l hl => simp [h.dark hl]
    simp [normalContent, hlit]
  | prompt => simp [normalContent, Part.headOf, h.queueOf]
  | line | banner => rfl

theorem Part.Fresh.rotation (n : NodeConfig) (r : Region) : rotationList p n r = [] := by
  have hfresh : ∀ m, eligible p n r (p.message m) = false := fun m => by
    rw [Part.message, h.msg, getD_replicate_self]
    rfl
  simp [rotationList, eligibleSet, hfresh]

theorem Part.Fresh.region {j : Nat} {n : NodeConfig} {r : Region} (hr : p.Applies j n r) :
    p.disp.cmp.region j r = some (RegionRecord.fresh r) := by
  have hnode : p.nodes[j]? = some (some n) := by
    have hn := hr.node
    unfold Part.node at hn
    cases hj : p.nodes[j]? with
    | none => simp [hj] at hn
    | some x =>
      rw [hj] at hn
      exact congrArg some hn
  rw [h.cmp]
  simp only [Cmp.region, freshCmp, List.getElem?_map, hnode, Option.map_some, List.find?_map]
  cases hfind : n.regions.find? ((fun x : RegionRecord => decide (x.region = r)) ∘ RegionRecord.fresh) with
  | none =>
    have hmiss := List.find?_eq_none.mp hfind r hr.mem
    simp [RegionRecord.fresh] at hmiss
  | some r' =>
    have hfound := List.find?_some hfind
    obtain rfl : r' = r := of_decide_eq_true hfound
    rfl

theorem Part.Fresh.law : p.compositionLaw := by
  refine p.compositionLaw_iff.mpr fun {j n r} hr => ⟨_, h.region hr, ?_, ?_, fun _ => ?_⟩
  · show Content.blank = (composed p j n r none).1.1
    rw [composed, h.governing]
    exact (h.blank j n r).symm
  · show Source.normal = (composed p j n r none).2
    rw [composed, h.governing]
  · rw [h.rotation]
    exact ⟨⟨fun _ => rfl, fun _ => rfl⟩, nofun, rfl, rfl⟩

end

/-! ### The step lemma -/

/-- The composition, with the seated references that make it inductive. -/
def Part.Composed (p : Part) : Prop := p.Seated ∧ p.compositionLaw

theorem Part.Upholds.composed {p q : Part} (h : p.Upholds q) (hp : p.Composed) : q.Composed := by
  obtain ⟨hseated, hcarries⟩ := h hp.1
  refine ⟨hseated, q.compositionLaw_iff.mpr fun hr => ?_⟩
  have hr' := hr.congr hcarries.geo.symm hcarries.nodes.symm
  exact hcarries.keeps hr' (p.compositionLaw_iff.mp hp.2 hr')

/-- Time, pins and PATH show nowhere, but in the showing intervals to come. -/
theorem Part.tick_upholds (p : Part) : p.Upholds p.tick := by
  refine .ite ?_ ?_
  · exact Part.Carries.upholds (.of_alike rfl rfl rfl fun _ _ => {}) rfl
  · exact Part.Carries.upholds (.of_alike rfl rfl rfl fun _ _ => {}) rfl

theorem Part.onPath_upholds (p : Part) (f : Path → Path) : p.Upholds (p.onPath f) :=
  Part.Carries.upholds (.of_alike rfl rfl rfl fun _ _ => {}) rfl

theorem Part.handRecord_upholds (p : Part) (k slot : Nat) (words : List Word) : p.Upholds (p.handRecord k slot words) := by
  unfold Part.handRecord
  split
  · exact p.trkRecord_upholds slot words
  · exact p.msgRecord_upholds slot words
  · exact p.prmRecord_upholds slot words
  · exact p.ovrRecord_upholds words

theorem Part.acceptFull_composed (p : Part) (t : Take) : (p.acceptFull t).Composed := by
  have handed : ∀ q : Part, q.Upholds ((q.report (repTakeDone .full 0 0)).txfPump.applyLines) := fun q =>
    ((q.report_upholds _).trans (Part.txfPump_serves _).upholds).trans (Part.applyLines_upholds _)
  have hfresh := p.replaced_fresh t
  exact (handed (p.replaced t)).composed ⟨hfresh.seated, hfresh.law⟩

theorem Part.acceptParams_upholds (p : Part) (t : Take) : p.Upholds (p.acceptParams t) := by
  have handed : ∀ q : Part, q.Upholds ((q.report (repTakeDone .params 0 0)).staleNow.lifetime) := fun q =>
    ((q.report_upholds _).trans (Part.staleNow_upholds _)).trans (Part.lifetime_upholds _)
  exact (Part.Carries.upholds (p := p) (q := { p.endTake with params := readParams t.word })
    (.of_alike rfl rfl rfl fun _ _ => {}) rfl).trans (handed _)

theorem PartEvent.upholds {f : Part → Part} (h : PartEvent f) (p : Part) : p.Upholds (f p) := by
  cases h with
  | carStale c => exact p.staleExpiry_upholds c
  | historyEmptied c => exact p.emptyHistory_upholds c
  | showDeadline j => exact p.showDeadline_upholds j
  | lifetime => exact p.lifetime_upholds
  | messageExpired m => exact p.msgExpire_upholds m
  | dwellDeadline j r => exact p.upholds_of_carried (dwellDeadline_carried p _ j r)
  | lineAccepted k => exact p.testLine_upholds k
  | lineSampling levels =>
    exact Part.Upholds.trans (q := { p with lines := levels })
      (Part.Carries.upholds (.of_alike rfl rfl rfl fun _ _ => {}) rfl) (Part.sampleLines_upholds _)
  | sendFrame r => exact p.sendFrame_upholds r
  | frameReturn r port bytes => exact p.frameReturn_upholds r port bytes
  | returnTimeout r tag => exact p.returnTimeout_upholds r tag
  | trailingTimeout r tag => exact p.trailingTimeout_upholds r tag
  | busyBackoff r position region => exact p.busyBackoff_upholds r position region
  | pollTimer r position => exact p.pollTimer_upholds r position
  | joinTimer r position => exact p.joinTimer_upholds r position
  | ringCheck r => exact p.ringCheck_upholds r
  | traceEnd r => exact p.traceEnd_upholds r

/-- Without nodes there is nothing to compose. -/
theorem Part.reset_composed (anchor lines : BitVec 4) : (Part.reset anchor lines).Composed := by
  refine ⟨⟨List.nodup_nil, fun _ => List.nodup_nil, nofun⟩, (Part.compositionLaw_iff _).mpr fun {j n r} hr => ?_⟩
  have hnone : (Part.reset anchor lines).node j = none := join_getElem?_replicate_none Config.maxNodes j
  rw [hr.node] at hnone
  cases hnone

theorem composed_stepInvariant : StepInvariant Part.Composed where
  reset := Part.reset_composed
  hostData p w := Part.Upholds.composed (Part.Carries.upholds (.of_alike rfl rfl rfl fun _ _ => {}) rfl)
  tick p := p.tick_upholds.composed
  onPath p f := (p.onPath_upholds f).composed
  onRpt p f := (p.onRpt_upholds f).composed
  txfPump p := p.txfPump_serves.upholds.composed
  textWrite p a := (p.textWrite_serves a).upholds.composed
  textData p w := (p.textData_serves w).upholds.composed
  statistics p := (p.upholds_of_carried (clearStatistics_carried p _)).composed
  repaint p := (p.upholds_of_carried (repaintIn_carried p _)).composed
  clearLatch p k := (p.clearLatch_upholds k).composed
  handRecord p k slot words := (p.handRecord_upholds k slot words).composed
  acceptFull p t _ := p.acceptFull_composed t
  acceptParams p t := (p.acceptParams_upholds t).composed
  event p hf := (hf.upholds p).composed

/-- Settles O13: every operation either reads no source otherwise or has the regions that do recomposed; the heads of the queues
need their references seated, which the law of the queues gives and every operation keeps. -/
theorem stepKeepsComposition : Obligations.StepKeepsComposition := fun _ _ hqueues hlaw hstep =>
  (composed_stepInvariant.step hstep ⟨hqueues.seated, hlaw⟩).2

end Sys2Proof.Machine
end

section
/-! SUPPORT. Estimates and held values (R42 to R48). -/

namespace Sys2Proof.Machine

/-! ### Held values (R48) -/

/-- A number without OVER against a held number: what R48 compares. -/
theorem holdValue_secs (h m n : Nat) (o : Bool) :
    holdValue h (some (.secs m o)) (.secs n false) =
      if n = 0 ∨ n < comparison m o then .secs n false
      else if n = comparison m o then .secs m o
      else if comparison m o + h ≤ n then .secs n false else .secs m o := by
  have hnew : comparison n false = n := rfl
  simp only [holdValue, hnew, Bool.not_false, Bool.and_true, decide_eq_true_eq, Bool.false_eq_true, if_false]
  by_cases hn : n = 0 <;> simp [hn]

theorem holdValue_of_less {h m n : Nat} (hlt : n < m) :
    holdValue h (some (.secs m false)) (.secs n false) = .secs n false := by
  rw [holdValue_secs, if_pos (.inr hlt)]

/-- A held 99 with OVER counts as 100, so that every number without OVER is less. -/
theorem holdValue_of_over {h n : Nat} (hn : n ≤ 99) :
    holdValue h (some (.secs 99 true)) (.secs n false) = .secs n false := by
  rw [holdValue_secs, if_pos (.inr (Nat.lt_succ_of_le hn))]

theorem holdValue_of_same (h n : Nat) : holdValue h (some (.secs n false)) (.secs n false) = .secs n false := by
  have hn : comparison n false = n := rfl
  simp [holdValue_secs, hn]

theorem holdValue_of_rise {h m n : Nat} (hrise : n + h ≤ m) :
    holdValue h (some (.secs n false)) (.secs m false) = .secs m false := by
  have hn : comparison n false = n := rfl
  rw [holdValue_secs, hn, if_pos hrise]
  split
  · rfl
  · split
    · next heq => rw [heq]
    · rfl

/-- A rise within the hysteresis is not shown. -/
theorem holdValue_of_small_rise {h m n : Nat} (hlt : n < m) (hsmall : m < n + h) :
    holdValue h (some (.secs n false)) (.secs m false) = .secs n false := by
  have hn : comparison n false = n := rfl
  rw [holdValue_secs, hn, if_neg (by omega), if_neg (by omega), if_neg (by omega)]

@[simp] theorem holdValue_none (h : Nat) (held : Option Estimate) : holdValue h held .none = .none := by
  match held with
  | none | some .none | some (.secs _ _) => rfl

/-! ### The path to a floor (R45) -/

/-- The distance and the stops of the path, through the stops before the floor. -/
theorem pathTo_eq (p : Part) (cfg : CarConfig) (d t pos dist stops : Nat) (l : List Nat) :
    pathTo p cfg d t pos dist stops l =
      (dist + pathLength (pos :: (l.takeWhile fun x => p.deckStopFloor cfg d x ≠ some t).map (p.deckStopLevel cfg d)
          ++ [((l[(l.takeWhile fun x => p.deckStopFloor cfg d x ≠ some t).length]?).map (p.deckStopLevel cfg d)).getD
            (p.level t)]),
        stops + (l.takeWhile fun x => p.deckStopFloor cfg d x ≠ some t).length) := by
  induction l generalizing pos dist stops with
  | nil => simp [pathTo, pathLength]
  | cons s rest ih =>
    by_cases hs : p.deckStopFloor cfg d s = some t
    · simp [pathTo, hs, pathLength]
    · simp only [pathTo, hs, if_false, ih, ne_eq, not_false_eq_true, decide_true, List.takeWhile_cons_of_pos, List.map_cons,
        List.length_cons, List.getElem?_cons_succ, List.cons_append, pathLength, Nat.add_assoc, Nat.add_comm 1]

theorem doorAllowance_eq (params : Params) (door : Door) :
    doorAllowance params door =
      if door = .opened ∨ door = .opening then params.doorCloseMs
      else if door = .closing then params.doorCloseMs / 2 else 0 := by
  cases door <;> rfl

/-! ### Seconds (R47) -/

theorem clampSeconds_of_le {ms : Nat} (h : ms ≤ 99000) : clampSeconds ms = (.secs ((ms + 999) / 1000) false, false) :=
  if_neg (by omega)

theorem clampSeconds_of_lt {ms : Nat} (h : 99000 < ms) : clampSeconds ms = (.secs 99 true, true) := if_pos (by omega)

/-! ### The estimate (R44) -/

theorem Part.estimate_of_no_car {p : Part} {c : Nat} (h : p.carConfig c = none) (d t : Nat) :
    p.estimate c d t = (.none, false) := by
  simp only [Part.estimate, h]

theorem Part.estimate_of_blind {p : Part} {c d : Nat}
    (h : p.arrWithdrawn c = true ∨ (p.deck c d).state = .stale ∨ (p.deck c d).state = .unknown) (t : Nat) :
    p.estimate c d t = (.none, false) := by
  unfold Part.estimate
  split
  · rfl
  · rw [if_pos (by simpa [or_assoc] using h)]

theorem Part.estimate_of_configured {p : Part} {c d : Nat} {cfg : CarConfig} (hcfg : p.carConfig c = some cfg)
    (hserving : p.arrWithdrawn c = false) (hstale : (p.deck c d).state ≠ .stale) (hunknown : (p.deck c d).state ≠ .unknown)
    (t : Nat) :
    p.estimate c d t =
      if (p.deck c d).state = .atFloor ∧ (p.deck c d).accepted = some t then (.secs 0 false, false)
      else clampSeconds (p.totalMs cfg c d t) := by
  simp only [Part.estimate, hcfg, hserving, hstale, hunknown, decide_false, Bool.or_false, Bool.false_eq_true, if_false,
    Bool.and_eq_true, decide_eq_true_eq]

/-! ### What an estimate reads -/

theorem Part.level_congr {p q : Part} (h : q.geo = p.geo) : q.level = p.level :=
  funext fun k => by rw [Part.level, Part.level, h]

theorem Part.carConfig_congr {p q : Part} (h : q.geo = p.geo) : q.carConfig = p.carConfig :=
  funext fun c => by rw [Part.carConfig, Part.carConfig, h]

theorem Part.deckStopFloor_congr {p q : Part} (h : q.geo = p.geo) : q.deckStopFloor = p.deckStopFloor := by
  have hnear : q.floorNear = p.floorNear := funext fun z => funext fun x => by
    rw [Part.floorNear, Part.floorNear, Part.floorCount, Part.floorCount, Part.level_congr h, h]
  funext cfg d s
  rw [Part.deckStopFloor, Part.deckStopFloor, hnear, Part.level_congr h]

theorem Part.totalMs_congr {p q : Part} (hbase : q.base = p.base) (htrk : q.trk = p.trk) : q.totalMs = p.totalMs := by
  have hgeo := geo_of_base hbase
  have hlevel : ∀ cfg, q.deckStopLevel cfg = p.deckStopLevel cfg := fun cfg => funext fun d => funext fun s => by
    rw [Part.deckStopLevel, Part.deckStopLevel, Part.level_congr hgeo]
  funext cfg c d t
  simp only [Part.totalMs, pathTo_eq, hlevel, Part.level_congr hgeo, Part.deckStopFloor_congr hgeo, Part.car_congr htrk,
    Part.deck_congr htrk, params_of_base hbase]

theorem Part.estimate_congr {p q : Part} (hbase : q.base = p.base) (htrk : q.trk = p.trk)
    (harr : q.arr.withdrawn = p.arr.withdrawn) (c d t : Nat) : q.estimate c d t = p.estimate c d t := by
  rw [Part.estimate, Part.estimate, Part.carConfig_congr (geo_of_base hbase), Part.deck_congr htrk, Part.arrWithdrawn, harr,
    Part.totalMs_congr hbase htrk, Part.arrWithdrawn]

end Sys2Proof.Machine
end

section
/-! SUPPORT. Lantern states: what each operation makes of one lantern, and that it touches no other (R49 to R57). -/

namespace Sys2Proof.Machine

/-! ### Operations on one lantern state -/

/-- The part with other lantern states and another display side. -/
def Part.relamped (p : Part) (lanterns : List Lantern) (disp : Disp) : Part :=
  { p with arr := { p.arr with lanterns := lanterns }, disp := disp }

/-- `q` is `p` with lantern `i` replaced, but for the display side. -/
def Part.Sets (p : Part) (i : Nat) (x : Lantern) (q : Part) : Prop := q = p.relamped (p.arr.lanterns.set i x) q.disp

theorem Part.Sets.set (p : Part) (i : Nat) (x : Lantern) : p.Sets i x (p.setLantern i x) := rfl

theorem Part.Sets.change (p : Part) (i : Nat) (x : Lantern) (chime : Nat) : p.Sets i x (p.changeLantern i x chime) := rfl

theorem Part.Sets.stay {p : Part} {i : Nat} {l : Lantern} (h : p.arr.lanterns[i]? = some l) : p.Sets i l p := by
  obtain ⟨hi, rfl⟩ := List.getElem?_eq_some_iff.mp h
  rw [Part.Sets, List.set_getElem_self]
  rfl

theorem Part.Sets.ite {p : Part} {i : Nat} {x y : Lantern} {q r : Part} {c : Prop} [Decidable c] (hq : p.Sets i x q)
    (hr : p.Sets i y r) : p.Sets i (if c then x else y) (if c then q else r) := by
  split
  · exact hq
  · exact hr

/-- The operation makes `g` of the lantern it names, whatever the other lanterns and the display side, and changes no other. -/
structure Lamping (f : Part → Nat → Part) (g : Part → Lantern → Lantern) : Prop where
  absent : ∀ {p : Part} {i : Nat}, p.arr.lanterns[i]? = none → f p i = p
  sets : ∀ {p : Part} {i : Nat} {l : Lantern}, p.arr.lanterns[i]? = some l → p.Sets i (g p l) (f p i)
  reads : ∀ (p : Part) (lanterns : List Lantern) (disp : Disp), g (p.relamped lanterns disp) = g p

theorem Lamping.comp {f f' : Part → Nat → Part} {g g' : Part → Lantern → Lantern} (h : Lamping f g) (h' : Lamping f' g') :
    Lamping (fun p i => f' (f p i) i) (fun p l => g' p (g p l)) where
  absent hi := by rw [h.absent hi, h'.absent hi]
  sets {p i l} hi := by
    have hset := h.sets hi
    generalize f p i = q at hset ⊢
    have hlt := (List.getElem?_eq_some_iff.mp hi).1
    have hq : q.arr.lanterns[i]? = some (g p l) := by
      rw [hset]
      exact List.getElem?_set_self hlt
    have hset' := h'.sets hq
    rw [hset, h'.reads, ← hset, Part.Sets, hset] at hset'
    rw [hset, Part.Sets]
    exact hset'.trans (congrArg (p.relamped · _) (List.set_set ..))
  reads p lanterns disp := by rw [h.reads, h'.reads]

/-- A lamping operation as a change of the list of lanterns. -/
theorem Lamping.modify {f : Part → Nat → Part} {g : Part → Lantern → Lantern} (h : Lamping f g) (p : Part)
    (lanterns : List Lantern) (disp : Disp) (i : Nat) :
    ∃ disp', f (p.relamped lanterns disp) i = p.relamped (lanterns.modify i (g p)) disp' := by
  rw [List.modify_eq_set_getElem?]
  cases hi : lanterns[i]? with
  | none => exact ⟨disp, h.absent hi⟩
  | some l =>
    have hset := h.sets (p := p.relamped lanterns disp) hi
    rw [h.reads] at hset
    exact ⟨_, hset⟩

theorem Lamping.foldl {f : Part → Nat → Part} {g : Part → Lantern → Lantern} (h : Lamping f g) (l : List Nat) (p : Part)
    (lanterns : List Lantern) (disp : Disp) :
    ∃ disp', l.foldl f (p.relamped lanterns disp) = p.relamped (l.foldl (fun x i => x.modify i (g p)) lanterns) disp' := by
  induction l generalizing lanterns disp with
  | nil => exact ⟨disp, rfl⟩
  | cons i l ih =>
    obtain ⟨disp', h'⟩ := h.modify p lanterns disp i
    rw [List.foldl_cons, h', List.foldl_cons]
    exact ih _ _

/-- Each index is modified once. -/
theorem getElem?_foldl_modify {α : Type} (g : α → α) {l : List Nat} (hl : l.Nodup) (xs : List α) (i : Nat) :
    (l.foldl (fun x i => x.modify i g) xs)[i]? = if i ∈ l then xs[i]?.map g else xs[i]? := by
  induction l generalizing xs with
  | nil => simp
  | cons j l ih =>
    obtain ⟨hj, hl⟩ := List.nodup_cons.mp hl
    rw [List.foldl_cons, ih hl, List.getElem?_modify]
    by_cases hij : j = i
    · subst hij
      simp [hj]
    · simp [hij, Ne.symm hij]

/-- A lamping operation over the lanterns with a property, each once. -/
theorem Lamping.foldl_of_mem {f : Part → Nat → Part} {g : Part → Lantern → Lantern} (h : Lamping f g) {P : Lantern → Prop}
    [DecidablePred P] {p : Part} {lanterns : List Lantern} {l : List Nat} (hl : l.Nodup)
    (hmem : ∀ i, i ∈ l ↔ ∃ x, lanterns[i]? = some x ∧ P x) (disp : Disp) :
    ∃ disp', l.foldl f (p.relamped lanterns disp)
      = p.relamped (lanterns.map fun x => if P x then g p x else x) disp' := by
  obtain ⟨disp', hfold⟩ := h.foldl l p lanterns disp
  refine ⟨disp', hfold.trans (congrArg (p.relamped · disp') (List.ext_getElem? fun i => ?_))⟩
  have hi := hmem i
  rw [getElem?_foldl_modify _ hl, List.getElem?_map]
  cases hx : lanterns[i]? with
  | none => simp
  | some x =>
    by_cases hP : P x
    · simp [hi.mpr ⟨x, hx, hP⟩, hP]
    · have hout : i ∉ l := fun hin => by
        obtain ⟨y, hy, hPy⟩ := hi.mp hin
        exact hP (Option.some.inj (hx.symm.trans hy) ▸ hPy)
      simp [hout, hP]

/-! ### Lanterns of a deck and of a floor -/

theorem Part.mem_lanternsOf {p : Part} {c d i : Nat} :
    i ∈ p.lanternsOf c d ↔ ∃ l, p.arr.lanterns[i]? = some l ∧ l.car = c ∧ l.deck = d := by
  unfold Part.lanternsOf
  rw [List.mem_filter, List.mem_range]
  cases hi : p.arr.lanterns[i]? with
  | none => simp
  | some l =>
    have hlt := (List.getElem?_eq_some_iff.mp hi).1
    simp [hlt]

theorem Part.lanternsOf_nodup (p : Part) (c d : Nat) : (p.lanternsOf c d).Nodup := List.nodup_range.filter _

/-- The lanterns of a deck at a floor. -/
def Part.lanternsAt (p : Part) (c d f : Nat) : List Nat :=
  (p.lanternsOf c d).filter fun i => (p.arr.lanterns[i]?).map (·.floor) = some f

theorem Part.mem_lanternsAt {p : Part} {c d f i : Nat} :
    i ∈ p.lanternsAt c d f ↔ ∃ l, p.arr.lanterns[i]? = some l ∧ l.car = c ∧ l.deck = d ∧ l.floor = f := by
  rw [Part.lanternsAt, List.mem_filter, Part.mem_lanternsOf]
  cases p.arr.lanterns[i]? <;> simp [and_assoc]

theorem Part.lanternsAt_nodup (p : Part) (c d f : Nat) : (p.lanternsAt c d f).Nodup := (p.lanternsOf_nodup c d).filter _

/-- The lantern is the only one of its car, deck and floor. -/
theorem Part.lanternsAt_of_only {p : Part} {c d f i : Nat} (hi : i ∈ p.lanternsAt c d f)
    (honly : ∀ j ∈ p.lanternsAt c d f, j = i) : p.lanternsAt c d f = [i] :=
  List.perm_singleton.mp <| (List.perm_ext_iff_of_nodup (p.lanternsAt_nodup c d f) (List.nodup_singleton i)).mpr fun j =>
    ⟨fun hj => List.mem_singleton.mpr (honly j hj), fun hj => List.mem_singleton.mp hj ▸ hi⟩

/-! ### One lantern at an evaluation notice (R52, R56, R57) -/

/-- The lantern after R56. -/
def Part.darkens (p : Part) (l : Lantern) : Lantern :=
  let isStale : Bool := (p.deck l.car l.deck).state = .stale
  if (l.state = .announce && (!p.isNext l || isStale || p.arrWithdrawn l.car)) || (l.state = .lit && isStale)
  then l.darkened else l

/-- The lantern after R57. -/
def Part.turns (p : Part) (l : Lantern) : Lantern :=
  if l.state ≠ .dark && l.shown ≠ (p.car l.car).departure then { l with shown := (p.car l.car).departure } else l

/-- A lantern as it is lit (R53). -/
def Part.litAs (p : Part) (l : Lantern) (st : LanternState) : Lantern :=
  { l with state := st, shown := (p.car l.car).departure }

/-- The lantern after R52. -/
def Part.lights (p : Part) (l : Lantern) : Lantern :=
  if !p.isNext l then { l with hold := false }
  else if l.state = .dark && !p.arrWithdrawn l.car then
    if p.standsOpenAt l.car l.deck l.floor then p.litAs l .lit
    else if withinLead p.params.lanternLeadS l.estimate && !l.hold then p.litAs l .announce
    else l
  else l

theorem lanternDarken_lamping : Lamping Part.lanternDarken Part.darkens where
  absent h := by simp only [Part.lanternDarken, h]
  sets h := by
    simp only [Part.lanternDarken, h]
    exact .ite (.change ..) (.stay h)
  reads _ _ _ := rfl

theorem lanternTurn_lamping : Lamping Part.lanternTurn Part.turns where
  absent h := by simp only [Part.lanternTurn, h]
  sets h := by
    simp only [Part.lanternTurn, h]
    exact .ite (.change ..) (.stay h)
  reads _ _ _ := rfl

theorem lanternLight_lamping : Lamping Part.lanternLight Part.lights where
  absent h := by simp only [Part.lanternLight, h]
  sets h := by
    simp only [Part.lanternLight, h]
    exact .ite (.set ..) (.ite (.ite (.change ..) (.ite (.change ..) (.stay h))) (.stay h))
  reads _ _ _ := rfl

/-- R56, R57 and R52 one after the other. -/
def Part.evaluates (p : Part) (l : Lantern) : Lantern := p.lights (p.turns (p.darkens l))

theorem evaluation_lamping :
    Lamping (fun q i => ((q.lanternDarken i).lanternTurn i).lanternLight i) Part.evaluates :=
  (lanternDarken_lamping.comp lanternTurn_lamping).comp lanternLight_lamping

section
variable {p : Part} {l : Lantern}

theorem Part.darkens_of_dark (h : l.state = .dark) : p.darkens l = l := by simp [Part.darkens, h]

theorem Part.darkens_of_goes (h : (l.state = .announce ∧ (p.isNext l = false ∨ (p.deck l.car l.deck).state = .stale
    ∨ p.arrWithdrawn l.car = true)) ∨ (l.state = .lit ∧ (p.deck l.car l.deck).state = .stale)) : p.darkens l = l.darkened :=
  if_pos (by simpa [or_assoc] using h)

theorem Part.darkens_of_stays (hstale : (p.deck l.car l.deck).state ≠ .stale)
    (h : l.state = .announce → p.isNext l = true ∧ p.arrWithdrawn l.car = false) : p.darkens l = l :=
  if_neg (by simpa [hstale] using h)

theorem Part.turns_of_dark (h : l.state = .dark) : p.turns l = l := by simp [Part.turns, h]

theorem Part.turns_of_lit (h : l.state ≠ .dark) : p.turns l = { l with shown := (p.car l.car).departure } := by
  unfold Part.turns
  split
  · rfl
  · next hsame =>
    have hshown : l.shown = (p.car l.car).departure := by simpa [h] using hsame
    rw [← hshown]

/-- A lantern that R52 leaves lit or dark: its hold ends unless it stands at the next stop. -/
theorem Part.lights_of_stays (h : l.state = .dark → p.isNext l = true → p.arrWithdrawn l.car = false →
    p.standsOpenAt l.car l.deck l.floor = false ∧ (withinLead p.params.lanternLeadS l.estimate = false ∨ l.hold = true)) :
    p.lights l = { l with hold := l.hold && p.isNext l } := by
  unfold Part.lights
  cases hnext : p.isNext l with
  | false => simp
  | true =>
    simp only [Bool.and_true, Bool.not_true, Bool.false_eq_true, if_false]
    split
    · next hdark =>
      simp only [Bool.and_eq_true, decide_eq_true_eq, Bool.not_eq_true'] at hdark
      obtain ⟨hshut, hlead⟩ := h hdark.1 hnext hdark.2
      rw [if_neg (by simp [hshut]), if_neg (by simpa [or_iff_not_imp_left] using hlead)]
    · rfl

section
variable (hdark : l.state = .dark) (hnext : p.isNext l = true) (hserving : p.arrWithdrawn l.car = false)
include hdark hnext hserving

theorem Part.lights_open (hopen : p.standsOpenAt l.car l.deck l.floor = true) : p.lights l = p.litAs l .lit := by
  simp [Part.lights, hdark, hnext, hserving, hopen]

theorem Part.lights_announce (hshut : p.standsOpenAt l.car l.deck l.floor = false)
    (hlead : withinLead p.params.lanternLeadS l.estimate = true) (hhold : l.hold = false) :
    p.lights l = p.litAs l .announce := by
  simp [Part.lights, hdark, hnext, hserving, hshut, hlead, hhold]

end

theorem Part.evaluates_of_dark (h : l.state = .dark) : p.evaluates l = p.lights l := by
  rw [Part.evaluates, Part.darkens_of_dark h, Part.turns_of_dark h]

/-- A lantern that R56 leaves lit follows the departure direction. -/
theorem Part.evaluates_of_lit (h : l.state ≠ .dark) (hstale : (p.deck l.car l.deck).state ≠ .stale)
    (hstays : l.state = .announce → p.isNext l = true ∧ p.arrWithdrawn l.car = false) :
    p.evaluates l = { l with shown := (p.car l.car).departure, hold := l.hold && p.isNext l } := by
  rw [Part.evaluates, Part.darkens_of_stays hstale hstays, Part.turns_of_lit h]
  exact Part.lights_of_stays fun hdark => absurd hdark h

/-- A lantern that goes dark stays so, since a STALE deck stands nowhere and gives no estimate. -/
theorem Part.evaluates_of_goes (h : (l.state = .announce ∧ (p.isNext l = false ∨ (p.deck l.car l.deck).state = .stale
    ∨ p.arrWithdrawn l.car = true)) ∨ (l.state = .lit ∧ (p.deck l.car l.deck).state = .stale))
    (hstale : (p.deck l.car l.deck).state = .stale → withinLead p.params.lanternLeadS l.estimate = false) :
    p.evaluates l = { l.darkened with hold := l.hold && p.isNext l } := by
  rw [Part.evaluates, Part.darkens_of_goes h, Part.turns_of_dark rfl, Part.lights_of_stays fun _ hnext hserving => ?_]
  · rfl
  · have hnext' : p.isNext l = true := hnext
    have hserving' : p.arrWithdrawn l.car = false := hserving
    have hdeck : (p.deck l.car l.deck).state = .stale := by
      simp only [hnext', hserving', Bool.true_eq_false, Bool.false_eq_true, false_or, or_false] at h
      exact h.elim And.right And.right
    exact ⟨by simp [Part.standsOpenAt, Lantern.darkened, hdeck], .inl (hstale hdeck)⟩

end

/-! ### The evaluation notice (R43, R49) -/

/-- The lantern with its held value (R48, R49). -/
def Part.holds (p : Part) (l : Lantern) : Lantern :=
  { l with estimate :=
      if p.isNext l then holdValue p.params.etaUpHystS (some l.estimate) (p.estimate l.car l.deck l.floor).1 else .none }

/-- The lantern after an evaluation notice. -/
def Part.noticed (p : Part) (l : Lantern) : Lantern := p.evaluates (p.holds l)

theorem Part.estimate_relamped (p : Part) (lanterns : List Lantern) (disp : Disp) (c d t : Nat) :
    (p.relamped lanterns disp).estimate c d t = p.estimate c d t :=
  Part.estimate_congr (p := p) (q := p.relamped lanterns disp) rfl rfl rfl c d t

/-- A change of the lanterns of a deck. -/
def onDeck (c d : Nat) (g : Lantern → Lantern) (l : Lantern) : Lantern := if l.car = c ∧ l.deck = d then g l else l

/-- The deck's consumer is the lantern at its next stop, and every other lantern of the deck holds NONE (R41, R49). -/
theorem Part.lanternConsumer_relamped (p : Part) (lanterns : List Lantern) (disp : Disp) (c d : Nat) :
    ∃ disp', (p.relamped lanterns disp).lanternConsumer c d = p.relamped (lanterns.map (onDeck c d p.holds)) disp' := by
  have hnext : (p.relamped lanterns disp).nextStop c d = p.nextStop c d := rfl
  have held : ∀ g : Lantern → Lantern, (∀ l, l.car = c → l.deck = d → g l = p.holds l) →
      (fun l : Lantern => if l.car = c && l.deck = d then g l else l) = onDeck c d p.holds := fun g hg => by
    funext l
    by_cases hl : l.car = c ∧ l.deck = d
    · simp [onDeck, hl, hg l hl.1 hl.2]
    · simp [onDeck, hl]
  unfold Part.lanternConsumer
  rw [hnext]
  cases hstop : p.nextStop c d with
  | none =>
    refine ⟨disp, congrArg (fun g : Lantern → Lantern => p.relamped (lanterns.map g) disp) (held _ ?_)⟩
    rintro l rfl rfl
    simp [Part.holds, Part.isNext, hstop]
  | some f =>
    have hmap := held (fun l => if l.floor = f then
        { l with estimate := holdValue p.params.etaUpHystS (some l.estimate) (p.estimate c d f).1 }
      else { l with estimate := .none }) (by
        rintro l rfl rfl
        by_cases hf : l.floor = f
        · simp [Part.holds, Part.isNext, hstop, hf]
        · simp [Part.holds, Part.isNext, hstop, hf, Ne.symm hf])
    simp only [Part.estimate_relamped]
    rw [← hmap]
    split
    · exact ⟨_, rfl⟩
    · exact ⟨_, rfl⟩

theorem Part.evaluateDeckLanterns_relamped (p : Part) (lanterns : List Lantern) (disp : Disp) (c d : Nat) :
    ∃ disp', (p.relamped lanterns disp).evaluateDeckLanterns c d
      = p.relamped (lanterns.map (onDeck c d p.noticed)) disp' := by
  obtain ⟨disp₁, hconsumer⟩ := p.lanternConsumer_relamped lanterns disp c d
  unfold Part.evaluateDeckLanterns
  rw [hconsumer]
  obtain ⟨disp₂, hfold⟩ := evaluation_lamping.foldl_of_mem (p := p) (P := fun l => l.car = c ∧ l.deck = d)
    (Part.lanternsOf_nodup (p.relamped (lanterns.map (onDeck c d p.holds)) disp₁) c d)
    (fun i => Part.mem_lanternsOf) disp₁
  refine ⟨disp₂, hfold.trans (congrArg (p.relamped · disp₂) (List.map_map.trans (List.map_congr_left fun l _ => ?_)))⟩
  by_cases hl : l.car = c ∧ l.deck = d
  · have hholds : (p.holds l).car = c ∧ (p.holds l).deck = d := hl
    simp [onDeck, hl, hholds, Part.noticed]
  · simp [onDeck, hl]

/-- A lantern after a pass over decks: its own deck alone counts. -/
theorem foldl_onDeck {c : Nat} {g : Lantern → Lantern} (hkey : ∀ l, (g l).car = l.car ∧ (g l).deck = l.deck) {decks : List Nat}
    (hdecks : decks.Nodup) (l : Lantern) :
    decks.foldl (fun x d => onDeck c d g x) l = if l.car = c ∧ l.deck ∈ decks then g l else l := by
  induction decks generalizing l with
  | nil => simp
  | cons d decks ih =>
    obtain ⟨hd, hdecks⟩ := List.nodup_cons.mp hdecks
    rw [List.foldl_cons, ih hdecks]
    by_cases hl : l.car = c ∧ l.deck = d
    · obtain ⟨hcar, hdeck⟩ := hkey l
      simp [onDeck, hl, hcar, hdeck, hd]
    · have hcons : (l.car = c ∧ l.deck ∈ d :: decks) ↔ l.car = c ∧ l.deck ∈ decks := by
        rw [List.mem_cons]
        tauto
      simp only [onDeck, hl, if_false, hcons]

/-! ### What R52, R56 and R57 leave of a lantern -/

theorem Part.darkens_key (p : Part) (l : Lantern) :
    (p.darkens l).car = l.car ∧ (p.darkens l).deck = l.deck ∧ (p.darkens l).floor = l.floor
      ∧ (p.darkens l).estimate = l.estimate ∧ (p.darkens l).hold = l.hold := by
  unfold Part.darkens
  simp only
  split <;> exact ⟨rfl, rfl, rfl, rfl, rfl⟩

theorem Part.turns_key (p : Part) (l : Lantern) :
    (p.turns l).car = l.car ∧ (p.turns l).deck = l.deck ∧ (p.turns l).floor = l.floor ∧ (p.turns l).estimate = l.estimate
      ∧ (p.turns l).hold = l.hold := by
  unfold Part.turns
  split <;> exact ⟨rfl, rfl, rfl, rfl, rfl⟩

/-- A lantern elsewhere than at the next stop loses its hold (R52). -/
theorem Part.lights_key (p : Part) (l : Lantern) :
    (p.lights l).car = l.car ∧ (p.lights l).deck = l.deck ∧ (p.lights l).floor = l.floor
      ∧ (p.lights l).estimate = l.estimate ∧ (p.lights l).hold = (l.hold && p.isNext l) := by
  unfold Part.lights
  cases p.isNext l with
  | false => exact ⟨rfl, rfl, rfl, rfl, (Bool.and_false _).symm⟩
  | true =>
    have kept : l.hold = (l.hold && true) := (Bool.and_true _).symm
    simp only [Bool.not_true, Bool.false_eq_true, if_false]
    split
    · split
      · exact ⟨rfl, rfl, rfl, rfl, kept⟩
      · split <;> exact ⟨rfl, rfl, rfl, rfl, kept⟩
    · exact ⟨rfl, rfl, rfl, rfl, kept⟩

theorem Part.noticed_key (p : Part) (l : Lantern) :
    (p.noticed l).car = l.car ∧ (p.noticed l).deck = l.deck ∧ (p.noticed l).floor = l.floor
      ∧ (p.noticed l).estimate = (p.holds l).estimate ∧ (p.noticed l).hold = (l.hold && p.isNext l) := by
  obtain ⟨hcar, hdeck, hfloor, hestimate, hhold⟩ := p.darkens_key (p.holds l)
  obtain ⟨hcar', hdeck', hfloor', hestimate', hhold'⟩ := p.turns_key (p.darkens (p.holds l))
  obtain ⟨hcar'', hdeck'', hfloor'', hestimate'', hhold''⟩ := p.lights_key (p.turns (p.darkens (p.holds l)))
  have hnext : p.isNext (p.turns (p.darkens (p.holds l))) = p.isNext l := by
    rw [Part.isNext, hcar', hcar, hdeck', hdeck, hfloor', hfloor]
    rfl
  rw [hnext, hhold', hhold] at hhold''
  exact ⟨hcar''.trans (hcar'.trans hcar), hdeck''.trans (hdeck'.trans hdeck), hfloor''.trans (hfloor'.trans hfloor),
    hestimate''.trans (hestimate'.trans hestimate), hhold''⟩

theorem Part.decksOf_nodup (p : Part) (c : Nat) : (p.decksOf c).Nodup := by
  unfold Part.decksOf
  split
  · exact List.nodup_nil
  · exact List.nodup_range

/-- The lantern rules of every deck of a car. -/
theorem Part.evaluateDecks_eq (p : Part) (c : Nat) :
    ∃ disp', (p.decksOf c).foldl (fun q d => q.evaluateDeckLanterns c d) p
      = p.relamped (p.arr.lanterns.map fun l => if l.car = c ∧ l.deck ∈ p.decksOf c then p.noticed l else l) disp' := by
  have pass : ∀ (decks : List Nat) (lanterns : List Lantern) (disp : Disp), ∃ disp',
      decks.foldl (fun q d => q.evaluateDeckLanterns c d) (p.relamped lanterns disp)
        = p.relamped (lanterns.map fun l => decks.foldl (fun x d => onDeck c d p.noticed x) l) disp' := by
    intro decks
    induction decks with
    | nil => exact fun lanterns disp => ⟨disp, by simp⟩
    | cons d decks ih =>
      intro lanterns disp
      obtain ⟨disp₁, hdeck⟩ := p.evaluateDeckLanterns_relamped lanterns disp c d
      obtain ⟨disp₂, hrest⟩ := ih (lanterns.map (onDeck c d p.noticed)) disp₁
      refine ⟨disp₂, ?_⟩
      rw [List.foldl_cons, hdeck, hrest, List.map_map]
      rfl
  obtain ⟨disp', h⟩ := pass (p.decksOf c) p.arr.lanterns p.disp
  refine ⟨disp', h.trans (congrArg (p.relamped · disp') (List.map_congr_left fun l _ => ?_))⟩
  exact foldl_onDeck (fun l => ⟨(p.noticed_key l).1, (p.noticed_key l).2.1⟩) (p.decksOf_nodup c) l

theorem Part.setHeld_arr (p : Part) (n : Nat) (old : Option Estimate) (new : Estimate) :
    (p.setHeld n old new).arr = p.arr := by
  rw [Part.setHeld_eq]
  split
  · rfl
  · exact Part.cmpEstimateChange_arr _ n

theorem Part.promptEstimate_arr (p : Part) (n : Nat) (fresh : Bool) : (p.promptEstimate n fresh).arr = p.arr := by
  unfold Part.promptEstimate
  rw [Part.onlyArr_arr]
  split
  · rfl
  · split
    · rfl
    · simp only [Part.setHeld_arr]
      split <;> rfl

/-- The lanterns after an evaluation notice (R49, R52, R56, R57). -/
theorem Part.arrEvaluation_lanterns (p : Part) (c : Nat) :
    (p.arrEvaluation c).arr.lanterns
      = p.arr.lanterns.map fun l => if l.car = c ∧ l.deck ∈ p.decksOf c then p.noticed l else l := by
  obtain ⟨disp', hdecks⟩ := p.evaluateDecks_eq c
  unfold Part.arrEvaluation
  simp only [Part.onlyArr_arr, hdecks]
  rw [foldl_keeps Part.arr fun q n => q.promptEstimate_arr n false]
  rfl

/-! ### Arrival, departure and withdrawal (R50, R54, R55) -/

/-- The lantern at an arrival with open doors (R54). -/
def Part.arrives (c : Nat) (p : Part) (l : Lantern) : Lantern :=
  match l.state with
  | .dark => if p.isNext l && !p.arrWithdrawn c then p.litAs { l with hold := false } .lit else { l with hold := false }
  | .announce => { l with hold := false, state := .lit }
  | .lit => { l with hold := false }

/-- The lantern at a departure (R55). -/
def Lantern.departs (l : Lantern) : Lantern :=
  if l.state = .dark then { l with hold := true } else ({ l with hold := true } : Lantern).darkened

/-- The lantern of a withdrawn car (R50). -/
def Lantern.withdraws (l : Lantern) : Lantern :=
  if l.state = .dark then { l with estimate := .none } else ({ l with estimate := .none } : Lantern).darkened

/-- One lantern at an arrival with open doors (R54). -/
def Part.arriveLantern (c : Nat) (q : Part) (i : Nat) : Part :=
  match q.arr.lanterns[i]? with
  | none => q
  | some l =>
    match l.state with
    | .dark =>
      if q.isNext { l with hold := false } && !q.arrWithdrawn c then q.lightLantern i { l with hold := false } .lit
      else q.setLantern i { l with hold := false }
    | .announce => q.changeLantern i { l with hold := false, state := .lit } 0
    | .lit => q.setLantern i { l with hold := false }

/-- One lantern at a departure (R55). -/
def Part.departLantern (q : Part) (i : Nat) : Part :=
  match q.arr.lanterns[i]? with
  | none => q
  | some l =>
    if l.state = .dark then q.setLantern i { l with hold := true }
    else q.changeLantern i ({ l with hold := true } : Lantern).darkened 0

theorem Part.arrArrival_eq (p : Part) (c d f : Nat) :
    p.arrArrival c d f = p.onlyArr ((p.lanternsAt c d f).foldl (Part.arriveLantern c) p) := rfl

theorem Part.arrDeparture_eq (p : Part) (c d f : Nat) :
    p.arrDeparture c d f = p.onlyArr ((p.lanternsAt c d f).foldl Part.departLantern p) := rfl

theorem arriveLantern_lamping (c : Nat) : Lamping (Part.arriveLantern c) (Part.arrives c) where
  absent h := by simp only [Part.arriveLantern, h]
  sets {p i l} h := by
    simp only [Part.arriveLantern, h, Part.arrives]
    cases l.state with
    | dark => exact .ite (.change ..) (.set ..)
    | announce => exact .change ..
    | lit => exact .set ..
  reads _ _ _ := rfl

theorem departLantern_lamping : Lamping Part.departLantern fun _ => Lantern.departs where
  absent h := by simp only [Part.departLantern, h]
  sets h := by
    simp only [Part.departLantern, h]
    exact .ite (.set ..) (.change ..)
  reads _ _ _ := rfl

theorem withdrawLantern_lamping : Lamping Part.withdrawLantern fun _ => Lantern.withdraws where
  absent h := by simp only [Part.withdrawLantern, h]
  sets h := by
    simp only [Part.withdrawLantern, h]
    exact .ite (.set ..) (.change ..)
  reads _ _ _ := rfl

theorem Part.arrArrival_lanterns (p : Part) (c d f : Nat) :
    (p.arrArrival c d f).arr.lanterns
      = p.arr.lanterns.map fun l => if l.car = c ∧ l.deck = d ∧ l.floor = f then p.arrives c l else l := by
  obtain ⟨disp', h⟩ := (arriveLantern_lamping c).foldl_of_mem (p := p) (P := fun l => l.car = c ∧ l.deck = d ∧ l.floor = f)
    (p.lanternsAt_nodup c d f) (fun i => Part.mem_lanternsAt) p.disp
  exact congrArg (·.arr.lanterns) h

theorem Part.arrDeparture_lanterns (p : Part) (c d f : Nat) :
    (p.arrDeparture c d f).arr.lanterns
      = p.arr.lanterns.map fun l => if l.car = c ∧ l.deck = d ∧ l.floor = f then l.departs else l := by
  obtain ⟨disp', h⟩ := departLantern_lamping.foldl_of_mem (p := p) (P := fun l => l.car = c ∧ l.deck = d ∧ l.floor = f)
    (p.lanternsAt_nodup c d f) (fun i => Part.mem_lanternsAt) p.disp
  exact congrArg (·.arr.lanterns) h

theorem Part.withdrawLanterns_lanterns (p : Part) (c : Nat) :
    (p.withdrawLanterns c).arr.lanterns
      = p.arr.lanterns.map fun l => if l.car = c ∧ l.deck < 2 then l.withdraws else l := by
  have hmem : ∀ i, i ∈ p.lanternsOf c 0 ++ p.lanternsOf c 1 ↔
      ∃ l, p.arr.lanterns[i]? = some l ∧ l.car = c ∧ l.deck < 2 := fun i => by
    simp only [List.mem_append, Part.mem_lanternsOf]
    cases p.arr.lanterns[i]? with
    | none => simp
    | some l =>
      simp only [Option.some.injEq, exists_eq_left', ← and_or_left]
      exact and_congr_right fun _ => by omega
  have hnodup : (p.lanternsOf c 0 ++ p.lanternsOf c 1).Nodup := by
    refine List.nodup_append.mpr ⟨p.lanternsOf_nodup c 0, p.lanternsOf_nodup c 1, ?_⟩
    rintro i h0 _ h1 rfl
    obtain ⟨l, hl, -, hdeck⟩ := Part.mem_lanternsOf.mp h0
    obtain ⟨l', hl', -, hdeck'⟩ := Part.mem_lanternsOf.mp h1
    obtain rfl := Option.some.inj (hl.symm.trans hl')
    omega
  obtain ⟨disp', h⟩ := withdrawLantern_lamping.foldl_of_mem
    (p := { p with arr := { p.arr with withdrawn := p.arr.withdrawn.set c true } })
    (P := fun l => l.car = c ∧ l.deck < 2) hnodup hmem p.disp
  exact congrArg (·.arr.lanterns) h

theorem Part.arrWithdraw_lanterns (p : Part) (c : Nat) :
    (p.arrWithdraw c).arr.lanterns
      = p.arr.lanterns.map fun l => if l.car = c ∧ l.deck < 2 then l.withdraws else l := by
  rw [Part.arrWithdraw_eq, Part.onlyArr_arr, foldl_keeps Part.arr fun q a => q.setHeld_arr .., p.withdrawLanterns_lanterns]

end Sys2Proof.Machine
end

section
/-! SUPPORT. The requests of a lantern change (R53, R121), and the held values of prompts (R43, R49, R50). -/

namespace Sys2Proof.Machine

/-! ### A lantern change at its nodes (R121) -/

/-- What a lantern change recomposes at node `j`: the ARROW with the chime count, then the TRIP. -/
def Part.redrawLantern (p : Part) (c d f chime : Nat) (disp : Disp) (j : Nat) : Disp :=
  match p.node j with
  | none => disp
  | some n =>
    if n.isLanternOf c d f then
      recompose p (recompose p disp j .arrow { RecomposeMode.plain with chime := chime }) j .trip .plain
    else disp

theorem Part.cmpLanternChange_disp (p : Part) (c d f chime : Nat) :
    (p.cmpLanternChange c d f chime).disp
      = (List.range p.nodes.length).foldl (p.redrawLantern c d f chime) p.disp := by
  unfold Part.cmpLanternChange recomposeAll targetsOf
  simp only [List.map_flatMap, List.foldl_flatMap]
  refine congrArg (fun g : Disp → Nat → Disp => (List.range p.nodes.length).foldl g p.disp) (funext fun disp => funext fun j => ?_)
  unfold Part.redrawLantern
  cases p.node j with
  | none => rfl
  | some n =>
    cases h : n.isLanternOf c d f <;> simp [h]

section
variable {p : Part} {c d f j : Nat} {n : NodeConfig}

/-- What two recompositions at a node keep. -/
theorem Part.redrawLantern_keeps {γ : Type} (g : Disp → γ) (h : ∀ disp r mode, g (recompose p disp j r mode) = g disp)
    (chime : Nat) (disp : Disp) : g (p.redrawLantern c d f chime disp j) = g disp := by
  unfold Part.redrawLantern
  split
  · rfl
  · split
    · rw [h, h]
    · rfl

/-- A new ARROW content waits at a joined node that is alone at its position, with the chime count (R53, R121, R145). -/
theorem Part.cmpLanternChange_waitingFor {x : RegionRecord} {old : Set QueueEntry} (hn : p.node j = some n)
    (hbound : n.isLanternOf c d f = true) (hx : p.disp.cmp.region j .arrow = some x) (hreach : p.disp.cmp.reachable j = true)
    (hw : p.disp.waitingFor n.ring n.position .arrow = some (true, old))
    (halone : ∀ i m, p.node i = some m → m.ring = n.ring → m.position = n.position → i = j)
    (hnew : (x.recomposed p j n .arrow).content ≠ x.content) (chime : Nat) :
    ∃ new, (p.cmpLanternChange c d f chime).disp.waitingFor n.ring n.position .arrow = some (true, new)
      ∧ ∃ e ∈ new, e.carries (x.request p j n .arrow chime) old := by
  rw [Part.cmpLanternChange_disp]
  obtain ⟨disp, hdisp, hend⟩ := foldl_visits_once
    (fun D : Disp => (D.cmp.region j .arrow, D.cmp.reachable j, D.waitingFor n.ring n.position .arrow))
    (f := p.redrawLantern c d f chime) (List.mem_range.mpr (node_lt_of_some hn)) List.nodup_range
    (fun i _ hi D => Part.redrawLantern_keeps (p := p) (j := i) (c := c) (d := d) (f := f)
      (fun D : Disp => (D.cmp.region j .arrow, D.cmp.reachable j, D.waitingFor n.ring n.position .arrow))
      (fun D r mode => by
        rw [recompose_region_other mode fun hj => absurd hj.symm hi, recompose_reachable,
          recompose_waitingFor_other mode fun m hm hring hposition => absurd (halone i m hm hring hposition) hi]) chime D) p.disp
  simp only [Prod.mk.injEq] at hdisp hend
  obtain ⟨hregion, hreachable, hwaiting⟩ := hdisp
  have hhanded : x.handed p disp j n .arrow { RecomposeMode.plain with chime := chime } = true :=
    RegionRecord.handed_eq_true.mpr ⟨hreachable.trans hreach, .inl hnew⟩
  have hredraw : p.redrawLantern c d f chime disp j
      = recompose p (recompose p disp j .arrow { RecomposeMode.plain with chime := chime }) j .trip .plain := by
    simp only [Part.redrawLantern, hn, hbound, if_true]
  rw [hend.2.2, hredraw, recompose_waitingFor_other (r' := .arrow) _ fun _ _ _ _ => by decide]
  exact recompose_waitingFor_same hn (hregion.trans hx) hhanded (hwaiting.trans hw)

end

/-! ### Prompts (R43, R49) -/

/-- The held value an evaluation notice gives the prompt of an assignment. -/
def Part.promptHeld (p : Part) (a : Assignment) : Estimate :=
  holdValue p.params.etaUpHystS a.estimate (p.estimate a.car a.deck a.boarding).1

/-- What ARR reads, beside the assignment. -/
def Part.promptFrame (p : Part) := (p.base, p.trk, p.arr.withdrawn)

theorem Part.promptHeld_congr {p q : Part} (h : q.promptFrame = p.promptFrame) (a : Assignment) :
    q.promptHeld a = p.promptHeld a := by
  simp only [Part.promptFrame, Prod.mk.injEq] at h
  rw [Part.promptHeld, Part.promptHeld, params_of_base h.1, Part.estimate_congr h.1 h.2.1 h.2.2]

theorem Part.promptEstimate_frame (p : Part) (n : Nat) (fresh : Bool) : (p.promptEstimate n fresh).promptFrame = p.promptFrame := by
  simp only [Part.promptFrame, Part.promptEstimate_base, Part.promptEstimate_trk, Part.promptEstimate_arr]

theorem Part.promptEstimate_assignment_other (p : Part) {n m : Nat} (h : m ≠ n) (fresh : Bool) :
    (p.promptEstimate n fresh).assignment m = p.assignment m := by
  unfold Part.promptEstimate
  show Part.assignment (match p.assignment n with | none => _ | some a => _) m = _
  split
  · rfl
  · split
    · rfl
    · simp only [Part.setHeld_assignment, if_neg h]
      split <;> rfl

theorem Part.promptEstimate_assignment {p : Part} {n : Nat} {a : Assignment} (ha : p.assignment n = some a)
    (hprompt : a.prompt ≠ .none) : (p.promptEstimate n false).assignment n = some (a.holding (p.promptHeld a)) := by
  have hset : ∀ q : Part, q.assignment n = p.assignment n →
      (q.setHeld n a.estimate (p.promptHeld a)).assignment n = some (a.holding (p.promptHeld a)) := fun q hq => by
    rw [Part.setHeld_assignment, if_pos rfl, hq, ha]
    rfl
  unfold Part.promptEstimate
  simp only [ha, hprompt, if_false]
  split
  · exact hset (p.count .estimateClamp 1) rfl
  · exact hset p rfl

/-- The prompt of an assignment after an evaluation notice of its car (R49). -/
theorem Part.arrEvaluation_assignment {p : Part} {n : Nat} {a : Assignment} (hnumbers : (p.prm.table.map (·.number)).Nodup)
    (ha : p.assignment n = some a) (hprompt : a.prompt ≠ .none) :
    (p.arrEvaluation a.car).assignment n = some (a.holding (p.promptHeld a)) := by
  obtain ⟨disp', hdecks⟩ := p.evaluateDecks_eq a.car
  unfold Part.arrEvaluation
  simp only [hdecks]
  generalize hq : p.relamped _ disp' = q
  have hq' : (q.assignment n, q.promptFrame) = (p.assignment n, p.promptFrame) := hq ▸ rfl
  have htable : q.prm = p.prm := hq ▸ rfl
  have hin : n ∈ (q.prm.table.filter fun x => x.car = a.car).map (·.number) :=
    List.mem_map.mpr ⟨a, List.mem_filter.mpr ⟨htable ▸ Part.assignment_mem ha, by simp⟩, Part.assignment_number ha⟩
  have hnodup : ((q.prm.table.filter fun x => x.car = a.car).map (·.number)).Nodup :=
    (htable ▸ hnumbers).sublist (List.filter_sublist.map _)
  obtain ⟨r, hr, hend⟩ := foldl_visits_once (fun q : Part => (q.assignment n, q.promptFrame))
    (f := fun q m => q.promptEstimate m false) hin hnodup
    (fun m _ hm q => by rw [q.promptEstimate_assignment_other (Ne.symm hm), q.promptEstimate_frame]) q
  simp only [Prod.mk.injEq] at hend
  obtain ⟨hassignment, hframe⟩ := Prod.mk.inj (hr.trans hq')
  show Part.assignment (List.foldl _ q _) n = _
  rw [hend.1, Part.promptEstimate_assignment (hassignment.trans ha) hprompt, Part.promptHeld_congr hframe]

theorem Part.withdrawLantern_prm (q : Part) (i : Nat) : (q.withdrawLantern i).prm = q.prm := by
  cases h : q.arr.lanterns[i]? with
  | none => rw [withdrawLantern_lamping.absent h]
  | some l => exact (congrArg Part.prm (withdrawLantern_lamping.sets h) :)

/-- The prompt of an assignment of a withdrawn car (R50). -/
theorem Part.arrWithdraw_assignment {p : Part} {n : Nat} {a : Assignment} (hnumbers : (p.prm.table.map (·.number)).Nodup)
    (ha : p.assignment n = some a) (hprompt : a.prompt ≠ .none) :
    (p.arrWithdraw a.car).assignment n = some (a.holding .none) := by
  have hprm : (p.withdrawLanterns a.car).prm = p.prm :=
    foldl_keeps Part.prm (fun q i => Part.withdrawLantern_prm q i) _ _
  rw [Part.arrWithdraw_eq]
  generalize p.withdrawLanterns a.car = q at hprm ⊢
  have hq : q.assignment n = some a := by rw [Part.assignment, hprm, ← ha, Part.assignment]
  have hin : a ∈ q.prm.table.filter fun x => x.car = a.car && x.prompt ≠ .none :=
    List.mem_filter.mpr ⟨Part.assignment_mem hq, by simp [hprompt]⟩
  have hnodup : (q.prm.table.filter fun x => x.car = a.car && x.prompt ≠ .none).Nodup :=
    (List.Nodup.of_map _ (hprm ▸ hnumbers)).filter _
  obtain ⟨r, hr, hend⟩ := foldl_visits_once (fun q : Part => q.assignment n)
    (f := fun q x => q.setHeld x.number x.estimate .none) hin hnodup (fun x hx hne q' => by
      have hother : n ≠ x.number := fun hn => hne (List.inj_on_of_nodup_map (hprm ▸ hnumbers) (List.mem_of_mem_filter hx)
        (Part.assignment_mem hq) (hn.symm.trans (Part.assignment_number ha).symm))
      rw [Part.setHeld_assignment, if_neg hother]) q
  show Part.assignment (List.foldl _ q _) n = _
  rw [hend, Part.setHeld_assignment, if_pos (Part.assignment_number ha).symm, hr, hq]
  rfl

end Sys2Proof.Machine
end

section
/-! PROOFS. Estimates, held values, lantern states and chimes (R42, R44 to R50, R52 to R57). -/

namespace Sys2Proof.Machine

/-! ### Estimates (R44 to R47) -/

/-- total_ms along the stops before the floor (R45, R46). -/
theorem Part.totalMs_eq {p : Part} {cfg : CarConfig} {c d t last : Nat} {front : List Nat}
    (hfront : front = (p.car c).stops.takeWhile fun x => p.deckStopFloor cfg d x ≠ some t)
    (hlast : last = (((p.car c).stops[front.length]?).map fun x => p.level x + cfg.offset d).getD (p.level t)) :
    p.totalMs cfg c d t =
      pathLength ((p.deck c d).position :: front.map (fun x => p.level x + cfg.offset d) ++ [last]) * 1000 / cfg.vRated
        + ((if (p.car c).motion = .still then p.params.startStopMs else p.params.startStopMs / 2)
          + front.length * p.params.startStopMs)
        + front.length * p.params.dwellMs
        + (if (p.car c).door = .opened ∨ (p.car c).door = .opening then p.params.doorCloseMs
          else if (p.car c).door = .closing then p.params.doorCloseMs / 2 else 0) := by
  subst hfront hlast
  simp only [Part.totalMs, pathTo_eq, doorAllowance_eq, Nat.zero_add]
  rfl

/-! ### Lanterns at an evaluation notice (R49, R52, R56, R57) -/

section
variable {p : Part} {l : Lantern}

/-- A STALE deck gives no estimate, so its lanterns hold NONE (R44). -/
theorem Part.holds_of_stale (h : (p.deck l.car l.deck).state = .stale) : (p.holds l).estimate = .none := by
  simp [Part.holds, Part.estimate_of_blind (.inr (.inl h))]

theorem Part.noticed_of_goes (h : (l.state = .announce ∧ (p.isNext l = false ∨ (p.deck l.car l.deck).state = .stale
    ∨ p.arrWithdrawn l.car = true)) ∨ (l.state = .lit ∧ (p.deck l.car l.deck).state = .stale)) :
    (p.noticed l).state = .dark ∧ (p.noticed l).shown = .none := by
  rw [Part.noticed, Part.evaluates_of_goes (l := p.holds l) h fun hstale => ?_]
  · exact ⟨rfl, rfl⟩
  · rw [Part.holds_of_stale (l := l) hstale]
    rfl

theorem Part.noticed_of_lit (h : l.state ≠ .dark) (hstale : (p.deck l.car l.deck).state ≠ .stale)
    (hstays : l.state = .announce → p.isNext l = true ∧ p.arrWithdrawn l.car = false) :
    (p.noticed l).state = l.state ∧ (p.noticed l).shown = (p.car l.car).departure := by
  rw [Part.noticed, Part.evaluates_of_lit (l := p.holds l) h hstale hstays]
  exact ⟨rfl, rfl⟩

theorem Part.noticed_of_dark (h : l.state = .dark) (hstays : p.isNext l = true → p.arrWithdrawn l.car = false →
    p.standsOpenAt l.car l.deck l.floor = false
      ∧ (withinLead p.params.lanternLeadS (p.holds l).estimate = false ∨ l.hold = true)) :
    (p.noticed l).state = .dark ∧ (p.noticed l).shown = l.shown := by
  rw [Part.noticed, Part.evaluates_of_dark (l := p.holds l) h, Part.lights_of_stays (l := p.holds l) fun _ => hstays]
  exact ⟨h, rfl⟩

section
variable (hdark : l.state = .dark) (hnext : p.isNext l = true) (hserving : p.arrWithdrawn l.car = false)
include hdark hnext hserving

theorem Part.noticed_open (hopen : p.standsOpenAt l.car l.deck l.floor = true) :
    (p.noticed l).state = .lit ∧ (p.noticed l).shown = (p.car l.car).departure := by
  rw [Part.noticed, Part.evaluates_of_dark (l := p.holds l) hdark, Part.lights_open (l := p.holds l) hdark hnext hserving hopen]
  exact ⟨rfl, rfl⟩

theorem Part.noticed_announce (hshut : p.standsOpenAt l.car l.deck l.floor = false)
    (hlead : withinLead p.params.lanternLeadS (p.holds l).estimate = true) (hhold : l.hold = false) :
    (p.noticed l).state = .announce ∧ (p.noticed l).shown = (p.car l.car).departure := by
  rw [Part.noticed, Part.evaluates_of_dark (l := p.holds l) hdark,
    Part.lights_announce (l := p.holds l) hdark hnext hserving hshut hlead hhold]
  exact ⟨rfl, rfl⟩

end

end

theorem Part.standsOpenAt_iff (p : Part) (c d f : Nat) :
    p.standsOpenAt c d f = true ↔ (p.deck c d).state = .atFloor ∧ (p.deck c d).accepted = some f
      ∧ (p.deck c d).visit = some f ∧ (p.deck c d).opened = true
      ∧ ((p.car c).door = .opening ∨ (p.car c).door = .opened) := by
  simp [Part.standsOpenAt, Part.doorsOpen, and_assoc]

/-! ### Lanterns at other events (R50, R54, R55) -/

/-- The chime count of an entry into ANNOUNCE (R53). -/
theorem chimeOf_eq (dir : Direction) : chimeOf dir = if dir = .up then 1 else if dir = .down then 2 else 0 := by
  cases dir <;> rfl

theorem Part.arrives_eq {p : Part} {c d f : Nat} {l : Lantern} (hcar : l.car = c) (hdeck : l.deck = d) (hfloor : l.floor = f) :
    p.arrives c l =
      if l.state = .lit then { l with hold := false }
      else if l.state = .announce then { l with hold := false, state := .lit }
      else if p.nextStop c d = some f ∧ p.arrWithdrawn c = false then
        { l with hold := false, state := .lit, shown := (p.car c).departure }
      else { l with hold := false } := by
  subst hcar hdeck hfloor
  cases hstate : l.state with
  | lit | announce => simp [Part.arrives, hstate]
  | dark =>
    simp only [Part.arrives, hstate, Part.isNext, Part.litAs, Bool.and_eq_true, decide_eq_true_eq, Bool.not_eq_true', reduceCtorEq,
      if_false]

/-! ### Lantern changes handed to CMP (R53 to R57) -/

section
variable {p : Part} {i : Nat} {l : Lantern} (h : p.arr.lanterns[i]? = some l)
include h

theorem Part.lanternDarken_cases : p.lanternDarken i = p ∨ p.lanternDarken i = p.changeLantern i l.darkened 0 := by
  simp only [Part.lanternDarken, h]
  exact (ite_eq_or_eq ..).symm

theorem Part.lanternTurn_cases :
    p.lanternTurn i = p ∨ p.lanternTurn i = p.changeLantern i { l with shown := (p.car l.car).departure } 0 := by
  simp only [Part.lanternTurn, h]
  exact (ite_eq_or_eq ..).symm

section
variable (hdark : l.state = .dark) (hnext : p.isNext l = true) (hserving : p.arrWithdrawn l.car = false)
include hdark hnext hserving

theorem Part.lanternLight_open (hopen : p.standsOpenAt l.car l.deck l.floor = true) :
    p.lanternLight i = p.lightLantern i l .lit := by
  simp [Part.lanternLight, h, hdark, hnext, hserving, hopen]

theorem Part.lanternLight_announce (hshut : p.standsOpenAt l.car l.deck l.floor = false)
    (hlead : withinLead p.params.lanternLeadS l.estimate = true) (hhold : l.hold = false) :
    p.lanternLight i = p.lightLantern i l .announce := by
  simp [Part.lanternLight, h, hdark, hnext, hserving, hshut, hlead, hhold]

end

/-- An arrival at a floor with one lantern. -/
theorem Part.arrArrival_disp {c d f : Nat} (hat : p.lanternsAt c d f = [i]) :
    (l.state = .dark → p.isNext l = true → p.arrWithdrawn c = false →
      (p.arrArrival c d f).disp = (p.lightLantern i { l with hold := false } .lit).disp)
    ∧ (l.state = .announce →
      (p.arrArrival c d f).disp = (p.changeLantern i { l with hold := false, state := .lit } 0).disp) := by
  have hone : (p.arrArrival c d f).disp = (p.arriveLantern c i).disp := by
    rw [Part.arrArrival_eq, hat]
    rfl
  refine ⟨fun hdark hnext hserving => ?_, fun hannounce => ?_⟩
  · have hnext' : p.isNext { l with hold := false, state := .dark } = true := hnext
    simp [hone, Part.arriveLantern, h, hdark, hnext', hserving]
  · simp [hone, Part.arriveLantern, h, hannounce]

/-- A departure from a floor with one lantern. -/
theorem Part.arrDeparture_disp {c d f : Nat} (hat : p.lanternsAt c d f = [i]) (hlit : l.state ≠ .dark) :
    (p.arrDeparture c d f).disp = (p.changeLantern i ({ l with hold := true } : Lantern).darkened 0).disp := by
  rw [Part.arrDeparture_eq, hat]
  show (p.departLantern i).disp = _
  simp [Part.departLantern, h, hlit]

end

/-- Settles O59: R48 row by row, the estimate along the path, and each lantern operation as a change of one lantern, followed
through the passes over decks and floors that touch each lantern once. -/
theorem heldValuesFollowR48 : Obligations.HeldValuesFollowR48 := by
  refine ⟨fun h new n m => ⟨rfl, rfl, fun _ => rfl, fun _ => rfl, fun _ => rfl, fun hlt _ => holdValue_of_less hlt,
      holdValue_of_over, holdValue_of_same h n, fun _ hrise _ => holdValue_of_rise hrise,
      fun hlt hsmall _ => holdValue_of_small_rise hlt hsmall⟩,
    fun p c d t => ⟨fun hnone => p.estimate_of_no_car hnone d t, fun cfg hcfg => ⟨fun hblind => p.estimate_of_blind hblind t,
      fun hserving hstate hat => ?_, fun front last total hserving hstale hunknown hnot hfront hlast htotal => ?_⟩⟩,
    fun p c d i l next opens held hd hl hcar hdeck hnext hheld hnone hopens => ?_,
    fun p c number a hnumbers ha hcar hprompt => ?_,
    fun p i chime j l n x q content hn hbound hx hreach hq hjoined halone hcontent hnew => ?_,
    fun p c d f i chime l lit hl hcar hdeck hfloor hchime => ?_,
    fun p c d f i l hl => ?_⟩
  · rw [p.estimate_of_configured hcfg hserving (by simp [hstate]) (by simp [hstate]), if_pos ⟨hstate, hat⟩]
  · rw [p.estimate_of_configured hcfg hserving hstale hunknown, if_neg fun hat => hnot hat.1 hat.2,
      Part.totalMs_eq hfront hlast, ← htotal]
    exact ⟨clampSeconds_of_le, clampSeconds_of_lt⟩
  · subst hcar hdeck
    have hisNext : p.isNext l = true ↔ next := by rw [hnext, Part.isNext, decide_eq_true_eq]
    have hopen : p.standsOpenAt l.car l.deck l.floor = true ↔ opens := by rw [hopens, Part.standsOpenAt_iff]
    have hestimate : (p.holds l).estimate = held := by
      by_cases hn : next
      · rw [hheld hn]
        exact if_pos (hisNext.mpr hn)
      · rw [hnone hn]
        exact if_neg (mt hisNext.mp hn)
    obtain ⟨hcar', hdeck', hfloor', hestimate', hhold'⟩ := p.noticed_key l
    refine ⟨p.noticed l, ?_, hcar', hdeck', hfloor', hestimate'.trans hestimate, fun hn => ?_, fun hn => ?_, fun hannounce hgoes => ?_,
      fun hannounce hn hstale hserving => ?_, fun hlit hstale => ?_, fun hlit hstale => ?_, fun hdark hstays => ?_,
      fun hdark hn hserving => ⟨fun ho => ?_, fun ho hlead hhold => ?_, fun ho hstays => ?_⟩⟩
    · rw [p.arrEvaluation_lanterns, List.getElem?_map, hl, Option.map_some, if_pos ⟨rfl, hd⟩]
    · rw [hhold', hisNext.mpr hn, Bool.and_true]
    · rw [hhold', Bool.eq_false_iff.mpr (mt hisNext.mp hn), Bool.and_false]
    · refine Part.noticed_of_goes (.inl ⟨hannounce, ?_⟩)
      rwa [← Bool.not_eq_true, hisNext]
    · rw [← hannounce]
      exact Part.noticed_of_lit (by simp [hannounce]) hstale fun _ => ⟨hisNext.mpr hn, hserving⟩
    · exact Part.noticed_of_goes (.inr ⟨hlit, hstale⟩)
    · rw [← hlit]
      exact Part.noticed_of_lit (by simp [hlit]) hstale (by simp [hlit])
    · refine Part.noticed_of_dark hdark fun hn hserving => ?_
      simp [hisNext.mp hn, hserving] at hstays
    · exact Part.noticed_open hdark (hisNext.mpr hn) hserving (hopen.mpr ho)
    · exact Part.noticed_announce hdark (hisNext.mpr hn) hserving (Bool.eq_false_iff.mpr (mt hopen.mp ho)) (hestimate ▸ hlead) hhold
    · exact Part.noticed_of_dark hdark fun _ _ => ⟨Bool.eq_false_iff.mpr (mt hopen.mp ho), hestimate ▸ hstays⟩
  · subst hcar
    rw [Part.arrEvaluation_assignment hnumbers ha hprompt, Part.arrWithdraw_assignment hnumbers ha hprompt]
    exact ⟨rfl, rfl⟩
  · obtain ⟨new, hwaiting, e, he, hregion, hversion, hcontent', -, hcarried⟩ :=
      Part.cmpLanternChange_waitingFor (p := p.setLantern i l) hn hbound hx hreach (Disp.waitingFor_of_node hq hjoined .arrow)
        halone (fun hsame => hnew (hcontent.trans hsame)) chime
    obtain ⟨q', hq', rfl⟩ := Disp.node_of_waitingFor hwaiting
    refine ⟨q', e, hq', he.1, hregion, hversion, hcontent'.trans hcontent.symm, hcarried.imp_right ?_⟩
    rintro ⟨h0, old, hold, hor, hoc⟩
    exact ⟨h0, old, hold.1, hor, hoc⟩
  · subst hcar hdeck hfloor
    rw [← chimeOf_eq] at hchime
    subst hchime
    refine ⟨Part.lanternDarken_cases hl, Part.lanternTurn_cases hl, fun hlit hdark hnext hserving => ?_, fun honly => ?_⟩
    · have hisNext : p.isNext l = true := decide_eq_true hnext
      refine ⟨fun ho => ?_, fun ho hlead hhold => ?_⟩
      · exact (Part.lanternLight_open hl hdark hisNext hserving ho).trans (hlit .lit).symm
      · exact (Part.lanternLight_announce hl hdark hisNext hserving ho hlead hhold).trans (hlit .announce).symm
    · have hat : p.lanternsAt l.car l.deck l.floor = [i] :=
        Part.lanternsAt_of_only (Part.mem_lanternsAt.mpr ⟨l, hl, rfl, rfl, rfl⟩) fun i' hi' => by
          obtain ⟨l', hl', hkey⟩ := Part.mem_lanternsAt.mp hi'
          exact honly i' l' hl' hkey.1 hkey.2.1 hkey.2.2
      obtain ⟨hopens, hturns⟩ := Part.arrArrival_disp hl hat
      exact ⟨fun hdark hnext => hopens hdark (decide_eq_true hnext), hturns, Part.arrDeparture_disp hl hat⟩
  · rw [p.arrArrival_lanterns, p.arrDeparture_lanterns, p.arrWithdraw_lanterns, p.arrEvaluation_lanterns]
    simp only [List.getElem?_map, hl, Option.map_some]
    refine ⟨fun hcar hdeck hfloor => ?_, fun hcar hdeck => ?_, fun hother => ?_, fun hother => ?_⟩
    · have hat : l.car = c ∧ l.deck = d ∧ l.floor = f := ⟨hcar, hdeck, hfloor⟩
      rw [if_pos hat, if_pos hat, Part.arrives_eq hcar hdeck hfloor]
      exact ⟨rfl, rfl⟩
    · rw [if_pos ⟨hcar, hdeck⟩]
      rfl
    · rw [if_neg hother, if_neg hother]
      exact ⟨rfl, rfl⟩
    · rw [if_neg fun h => hother h.1, if_neg fun h => hother h.1]
      exact ⟨rfl, rfl⟩

end Sys2Proof.Machine
end

section
/-! SUPPORT. RPT from an accepted TAKE_FULL to the end of the command (R181, R185, R186, R188), and the recomposition of regions
that are blank on nodes that are not reachable (R120, R126). -/

namespace Sys2Proof.Machine

/-! ### The opened report area -/

/-- A status record as an acceptance leaves it: pending, its change count 0. -/
def StatusRecord.unwritten (x : StatusRecord) : Prop := x.pending = true ∧ x.count = 0

/-- RPT with an empty report ring, every status record unwritten and `first` the first report that waits; the counters are those of
`counter`, but for truncations and dropped reports. -/
structure Rpt.Opened (area : Nat) (first : Report) (counter : CounterId → BitVec 16) (r : Rpt) : Prop where
  area : r.area = some area
  slots : r.slots = List.replicate Config.reportSlots .free
  producer : r.producer = 0
  sequence : r.sequence = 0
  attention : r.attention = false
  lastWrite : r.lastWrite = .record
  waiting : r.waiting.head? = some first
  length : r.records.length = Config.statusRecords
  records : ∀ x ∈ r.records, x.unwritten
  counters : ∀ c, c ≠ .textTruncation → c ≠ .reportDrop → r.counter c = counter c

/-- A status change leaves every record pending. -/
theorem Rpt.status_unwritten {r : Rpt} (h : ∀ x ∈ r.records, x.unwritten) (index : Nat) (fields : List Word) :
    ∀ x ∈ (r.status index fields).records, x.unwritten := by
  intro x hx
  obtain ⟨i, hi⟩ := List.mem_iff_getElem?.mp hx
  simp only [Rpt.status, List.getElem?_modify, Option.map_eq_map, Option.map_eq_some_iff] at hi
  obtain ⟨y, hy, rfl⟩ := hi
  obtain ⟨hpending, hcount⟩ := h y (List.mem_of_getElem? hy)
  split
  · exact ⟨rfl, hcount⟩
  · exact ⟨hpending, hcount⟩

section
variable {area : Nat} {first : Report} {counter : CounterId → BitVec 16} {r : Rpt} (h : Rpt.Opened area first counter r)
include h

theorem Rpt.Opened.status (index : Nat) (fields : List Word) : Rpt.Opened area first counter (r.status index fields) :=
  { h with
    length := (List.length_modify ..).trans h.length
    records := Rpt.status_unwritten h.records index fields }

/-- Other reports wait behind the first, and drops are counted. -/
theorem Rpt.Opened.queued (drops : BitVec 16) (l : List Report) :
    Rpt.Opened area first counter { r with drops := drops, waiting := r.waiting ++ l } :=
  { h with
    waiting := by
      rw [List.head?_append, h.waiting]
      rfl
    counters := h.counters }

theorem Rpt.Opened.count {c : CounterId} (hc : c = .textTruncation ∨ c = .reportDrop) (n : Nat) :
    Rpt.Opened area first counter (r.count c n) := by
  have hcounters : ∀ c', c' ≠ .textTruncation → c' ≠ .reportDrop → (r.count c n).counter c' = counter c' :=
    fun c' htext hdrop => by
      rw [Rpt.counter_count_of_ne r (by rintro rfl; exact hc.elim htext hdrop), h.counters c' htext hdrop]
  have hrecords : (r.count c n).records.length = Config.statusRecords ∧ ∀ x ∈ (r.count c n).records, x.unwritten := by
    unfold Rpt.count Rpt.setCounters
    split
    · exact ⟨h.length, h.records⟩
    · exact ⟨(List.length_modify ..).trans h.length, Rpt.status_unwritten h.records _ _⟩
  have hkeeps := r.count_keeps (fun r : Rpt => (r.area, r.slots, r.producer, r.sequence, r.attention, r.lastWrite, r.waiting))
    (fun _ _ _ => rfl) c n
  simp only [Prod.mk.injEq] at hkeeps
  obtain ⟨harea, hslots, hproducer, hsequence, hattention, hlast, hwaiting⟩ := hkeeps
  exact {
    area := harea.trans h.area
    slots := hslots.trans h.slots
    producer := hproducer.trans h.producer
    sequence := hsequence.trans h.sequence
    attention := hattention.trans h.attention
    lastWrite := hlast.trans h.lastWrite
    waiting := hwaiting ▸ h.waiting
    length := hrecords.1
    records := hrecords.2
    counters := hcounters }

theorem Rpt.Opened.hand (now : Time) (words : Word × Word) : Rpt.Opened area first counter (r.hand now words) := by
  unfold Rpt.hand
  split
  · exact h
  · split
    · exact h.queued r.drops [_]
    · have hdropped := h.queued (BitVec.ofNat 16 (min 65535 (r.drops.toNat + 1))) []
      rw [List.append_nil] at hdropped
      exact hdropped.count (.inr rfl) 1

/-- The writer begins with the first report or a write-back, and with no record (R185, R188). -/
theorem Rpt.Opened.choose : Rpt.Opened area first counter r.choose := by
  have hready : r.entryReady = true := by
    have hwaiting : r.waiting ≠ [] := fun hnil => by
      have hhead := h.waiting
      rw [hnil] at hhead
      cases hhead
    simp [Rpt.entryReady, h.slots, h.producer, hwaiting, Config.reportSlots]
  have hwriter : ∃ w b, r.choose = { r with writer := w, writeBackDue := b } := by
    unfold Rpt.choose
    split
    · split
      · exact ⟨_, _, rfl⟩
      · refine ⟨.entry 0 none, r.writeBackDue, ?_⟩
        unfold Rpt.chooseSequence
        rw [h.area]
        simp only [hready, h.lastWrite]
        split
        · rfl
        · rfl
    · exact ⟨_, _, rfl⟩
    · exact ⟨_, _, rfl⟩
    · exact ⟨_, _, rfl⟩
  obtain ⟨w, b, hchoose⟩ := hwriter
  rw [hchoose]
  exact { h with counters := h.counters }

end

/-- RPT after an acceptance, with the first report (R181, R188). -/
theorem Rpt.accepted_opened (r : Rpt) (area : Nat) {shadows : List (List Word)} (h : shadows.length + 1 = Config.statusRecords)
    (now : Time) (words : Word × Word) :
    Rpt.Opened area { word0 := words.1, word1 := words.2, time := now } r.counter ((r.accepted area shadows).hand now words) where
  area := rfl
  slots := rfl
  producer := rfl
  sequence := rfl
  attention := rfl
  lastWrite := rfl
  waiting := rfl
  length := by
    show ((shadows ++ [counterFields r.counters]).map StatusRecord.fresh).length = _
    rw [List.length_map, List.length_append, List.length_singleton, h]
  records x hx := by
    obtain ⟨fields, -, rfl⟩ := List.mem_map.mp hx
    exact ⟨rfl, rfl⟩
  counters _ _ _ := rfl

/-! ### Recomposition where no node is reachable (R120) -/

/-- No request is handed and no byte counted: the region records alone change. -/
theorem recompose_of_unreachable {d : Disp} {j : Nat} (h : d.cmp.reachable j = false) (p : Part) (r : Region) (mode : RecomposeMode) :
    recompose p d j r mode = { d with cmp := (recompose p d j r mode).cmp } := by
  unfold recompose
  split
  · simp only [h, Bool.false_eq_true, if_false, ite_self]
  · rfl

theorem recomposeAll_of_unreachable {d : Disp} (h : ∀ j, d.cmp.reachable j = false) (p : Part) (l : List Target) :
    recomposeAll p d l = { d with cmp := (recomposeAll p d l).cmp } ∧ ∀ j, (recomposeAll p d l).cmp.reachable j = false := by
  unfold recomposeAll
  induction l generalizing d with
  | nil => exact ⟨rfl, h⟩
  | cons t l ih =>
    rw [List.foldl_cons]
    have hnext : ∀ j, (recompose p d t.1 t.2.1 t.2.2).cmp.reachable j = false := fun j => by rw [recompose_reachable, h]
    obtain ⟨hrest, hreach⟩ := ih hnext
    refine ⟨hrest.trans ?_, hreach⟩
    rw [recompose_of_unreachable (h t.1)]

/-! ### Blank regions (R126) -/

/-- The record of a region that shows nothing, under a source. -/
def RegionRecord.blankUnder (r : Region) (source : Source) : RegionRecord := { RegionRecord.fresh r with source := source }

/-- Nothing of the part shows in a region: no message rotates, and what would be composed is blank. -/
structure Part.Mute (p : Part) : Prop where
  content : ∀ j n r, (composed p j n r none).1.1 = Content.blank
  rotation : ∀ n r, rotationList p n r = []

section
variable {p : Part} (h : p.Mute) {d : Disp} (hreach : ∀ j, d.cmp.reachable j = false) {j : Nat} {n : NodeConfig}
  (hn : p.node j = some n) {r : Region} {source : Source}
include h hn

theorem recompose_blank (hreach : d.cmp.reachable j = false) (hx : d.cmp.region j r = some (.blankUnder r source))
    (mode : RecomposeMode) :
    (recompose p d j r mode).cmp.region j r = some (.blankUnder r (composed p j n r none).2) := by
  have hhanded : (RegionRecord.blankUnder r source).handed p d j n r mode = false := by
    simp [RegionRecord.handed, hreach]
  have hchosen : (RegionRecord.blankUnder r source).chosen p n r = .blankUnder r source := by
    unfold RegionRecord.chosen
    split
    · unfold rotate
      rw [show rotationList p n (RegionRecord.blankUnder r source).region = [] from h.rotation n r]
      rfl
    · rfl
  have hshown : ((RegionRecord.blankUnder r source).chosen p n r).shown = none := by rw [hchosen]; rfl
  rw [recompose_region_same hn hx, RegionRecord.after, hhanded, RegionRecord.recomposed, hshown, hchosen, h.content]
  rfl

include hreach in
/-- A blank region stays blank, and has its composed source when it is among the targets. -/
theorem recomposeAll_blank (hx : d.cmp.region j r = some (.blankUnder r source)) (l : List Target) :
    ∃ source', (recomposeAll p d l).cmp.region j r = some (.blankUnder r source')
      ∧ (source' = (composed p j n r none).2 ∨ (source' = source ∧ ∀ t ∈ l, ¬(t.1 = j ∧ t.2.1 = r))) := by
  unfold recomposeAll
  induction l generalizing d source with
  | nil => exact ⟨source, hx, .inr ⟨rfl, nofun⟩⟩
  | cons t l ih =>
    have hnext : ∀ i, (recompose p d t.1 t.2.1 t.2.2).cmp.reachable i = false := fun i => by rw [recompose_reachable, hreach]
    rw [List.foldl_cons]
    by_cases ht : t.1 = j ∧ t.2.1 = r
    · obtain ⟨i, s, mode⟩ := t
      obtain ⟨rfl, rfl⟩ := ht
      obtain ⟨source', hend, hsource⟩ := ih hnext (recompose_blank h hn (hreach i) hx mode)
      exact ⟨source', hend, .inl (hsource.elim id And.left)⟩
    · have hkept := recompose_region_other (p := p) (d := d) t.2.2 fun hj hr => ht ⟨hj.symm, hr.symm⟩
      obtain ⟨source', hend, hsource⟩ := ih hnext (hkept.trans hx)
      refine ⟨source', hend, hsource.imp_right fun hs => ⟨hs.1, fun u hu => ?_⟩⟩
      obtain rfl | hu := List.mem_cons.mp hu
      · exact ht
      · exact hs.2 u hu

end

end Sys2Proof.Machine
end

section
/-! SUPPORT. What an accepted TAKE_FULL has formed, and that the override texts' checks and the activation of the asserted lines keep
it (R126, R133, R135, R137, R174). -/

namespace Sys2Proof.Machine

/-! ### The texts of a channel -/

/-- The owner of a channel's BANNER or LINE text. -/
def channelOwner (k : Nat) (banner : Bool) : TextOwner := if banner then .banner k else .line k

theorem channelOwner_injective {k k' : Nat} {b b' : Bool} (h : channelOwner k b = channelOwner k' b') : k = k' ∧ b = b' := by
  cases b <;> cases b' <;> simp_all [channelOwner]

theorem Part.setOwnerText_channel (p : Part) (k : Nat) (b : Bool) (t : Text) :
    p.setOwnerText (channelOwner k b) t = p.setChannel k ((p.channel k).withText b t) := by
  cases b <;> rfl

theorem Part.setChannel_channel_same {p : Part} {k : Nat} (hk : k < p.ovr.length) (c : Channel) :
    (p.setChannel k c).channel k = c := by
  simp [Part.channel, Part.setChannel, List.getD_eq_getElem?_getD, hk]

theorem Part.ownerText_setOwnerText {p : Part} {k : Nat} (hk : k < p.ovr.length) (b : Bool) (t : Text) (k' : Nat) (b' : Bool) :
    (p.setOwnerText (channelOwner k b) t).ownerText (channelOwner k' b')
      = if k' = k ∧ b' = b then t else p.ownerText (channelOwner k' b') := by
  have htext : ∀ q : Part, q.ownerText (channelOwner k' b')
      = if b' then (q.channel k').bannerText else (q.channel k').lineText := fun q => by cases b' <;> rfl
  rw [Part.setOwnerText_channel]
  by_cases hkk : k' = k
  · subst hkk
    rw [htext, htext, Part.setChannel_channel_same hk]
    cases b <;> cases b' <;> simp [Channel.withText]
  · rw [if_neg fun h => hkk h.1, htext, htext, Part.setChannel_channel_other p _ hkk]

theorem Part.ownerRef_setOwnerText (p : Part) (k : Nat) (b : Bool) (t : Text) (k' : Nat) (b' : Bool) :
    (p.setOwnerText (channelOwner k b) t).ownerRef (channelOwner k' b') = p.ownerRef (channelOwner k' b') := by
  have hrefs : ∀ c : Channel, ((c.withText b t).lineRef, (c.withText b t).bannerRef) = (c.lineRef, c.bannerRef) := fun c => by
    cases b <;> rfl
  have hmap := map_set_of_same (fun c : Channel => (c.lineRef, c.bannerRef)) (l := p.ovr) (i := k) (dflt := Channel.reset)
    (hrefs (p.channel k))
  have hchannel := getD_of_map_eq hmap k' Channel.reset
  simp only [Prod.mk.injEq] at hchannel
  rw [Part.setOwnerText_channel]
  cases b' with
  | false => exact hchannel.1
  | true => exact hchannel.2

/-! ### What the checks and the activations change -/

/-- `q` is `p` but for TXF, the channels, the display side and the own accesses that wait. -/
def Part.Texts (p q : Part) : Prop :=
  q = { p with path := { p.path with own := q.path.own }, txf := q.txf, ovr := q.ovr, disp := q.disp }

theorem Part.Texts.trans {p q r : Part} (h : p.Texts q) (h' : q.Texts r) : p.Texts r := by
  have hq := congrArg (fun x : Part =>
    ({ x with path := { x.path with own := r.path.own }, txf := r.txf, ovr := r.ovr, disp := r.disp } : Part)) h
  exact Eq.trans h' hq

/-- A channel without what the checks and the activations change of it. -/
def Channel.bare (c : Channel) : Channel :=
  { c with
    lineText := { c.lineText with status := none }
    bannerText := { c.bannerText with status := none }
    latch := false }

theorem normalContent_texts (p : Part) (x : Path) (t : Txf) (o : List Channel) (d : Disp) (j : Nat) (n : NodeConfig) (r : Region) :
    normalContent { p with path := x, txf := t, ovr := o, disp := d } j n r none = normalContent p j n r none := by
  cases r with
  | trip =>
    have hshown : Part.tripShown { p with path := x, txf := t, ovr := o, disp := d } = p.tripShown :=
      funext fun c => funext fun k => funext fun f =>
        tripShown_of_legs (p := p) (q := { p with path := x, txf := t, ovr := o, disp := d }) rfl rfl c k f
    simp only [normalContent, Part.tripText, hshown]
    rfl
  | floor | arrow | prompt | line | banner => rfl

/-- The source of a region (Table 6-5). -/
def Part.sourceOf (p : Part) (n : NodeConfig) (r : Region) : Source :=
  (p.governing n).elim .normal fun k =>
    if (r = .floor ∧ ((p.channel k).config.map (·.floorBlank)).getD false = false)
        ∨ (r = .arrow ∧ ((p.channel k).config.map (·.arrowBlank)).getD false = false) then .normal
    else .channel k

theorem composed_source (p : Part) (j : Nat) (n : NodeConfig) (r : Region) (shown : Option Nat) :
    (composed p j n r shown).2 = p.sourceOf n r := by
  unfold composed Part.sourceOf
  cases p.governing n with
  | none => rfl
  | some k =>
    cases r with
    | floor =>
      simp only [Option.elim_some, reduceCtorEq, true_and, false_and, or_false]
      generalize ((p.channel k).config.map (·.floorBlank)).getD false = b
      cases b <;> rfl
    | arrow =>
      simp only [Option.elim_some, reduceCtorEq, true_and, false_and, false_or]
      generalize ((p.channel k).config.map (·.arrowBlank)).getD false = b
      cases b <;> rfl
    | trip | prompt | line | banner => simp

/-! ### What stands after the acceptance -/

/-- An owner whose text an override channel has. -/
def Part.Requested (p : Part) (o : TextOwner) : Prop := ∃ k < Config.channels, ∃ b, o = channelOwner k b ∧ p.ownerRef o ≠ none

/-- An override text before its data has come: absent without a reference, else PENDING with a job, or in FAULT (R98, R135). -/
def Part.Awaits (p : Part) (o : TextOwner) : Prop :=
  (p.ownerRef o = none → (p.ownerText o).status = none)
    ∧ (p.ownerRef o ≠ none → (p.ownerText o).status = some .fault
      ∨ ((p.ownerText o).status = some .pending ∧ ∃ j ∈ p.txf.jobs, j.owner = o))

/-- `q` is the part `p` of an acceptance after checks of override texts, with the latches `on`: texts await their data, no node is
reachable and every region is blank. -/
structure Part.Formed (p : Part) (opened : Rpt → Prop) (on : Nat → Bool) (q : Part) : Prop where
  texts : p.Texts q
  bare : q.ovr.map Channel.bare = p.ovr.map Channel.bare
  latch : ∀ k < Config.channels, (q.channel k).latch = on k
  ready : q.txf.ready = []
  jobs : ∀ j ∈ q.txf.jobs, q.Requested j.owner
  awaits : ∀ k < Config.channels, ∀ b, q.Awaits (channelOwner k b)
  lnk : q.disp.lnk = p.disp.lnk
  unreachable : ∀ j, q.disp.cmp.reachable j = false
  blank : ∀ {j n r}, q.node j = some n → r ∈ n.regions → ∃ source, q.disp.cmp.region j r = some (.blankUnder r source)
  rpt : opened q.disp.rpt

/-- Every region has the source the channels give it. -/
def Part.Sourced (q : Part) : Prop :=
  ∀ j n r, q.node j = some n → r ∈ n.regions → q.disp.cmp.region j r = some (.blankUnder r (q.sourceOf n r))

section
variable {p q : Part} {opened : Rpt → Prop} {on : Nat → Bool}

/-- A channel's LINE and BANNER texts are not READY, so that nothing shows in any region (R111, R122). -/
theorem Part.Formed.mute (hp : p.Fresh) (h : p.Formed opened on q) : q.Mute := by
  have hnormal : ∀ j n r, (normalContent q j n r none).1 = Content.blank := fun j n r => by
    rw [h.texts, normalContent_texts]
    exact hp.blank j n r
  have htext : ∀ k < Config.channels, ∀ b, (q.ownerText (channelOwner k b)).status ≠ some .ready := fun k hk b => by
    obtain ⟨habsent, hpresent⟩ := h.awaits k hk b
    by_cases href : q.ownerRef (channelOwner k b) = none
    · simp [habsent href]
    · obtain hs | ⟨hs, -⟩ := hpresent href <;> simp [hs]
  refine ⟨fun j n r => ?_, fun n r => ?_⟩
  · unfold composed
    cases hk : q.governing n with
    | none => exact hnormal j n r
    | some k =>
      have hlt : k < Config.channels := List.mem_range.mp (List.mem_of_find?_eq_some hk)
      cases r with
      | floor | arrow =>
        simp only
        split
        · rfl
        · exact hnormal ..
      | trip | prompt => rfl
      | line => exact congrArg Prod.fst (if_neg (htext k hlt false))
      | banner => exact congrArg Prod.fst (if_neg (htext k hlt true))
  · rw [h.texts]
    exact hp.rotation n r

/-- A change of RPT. -/
theorem Part.Formed.onRpt (h : p.Formed opened on q) {f : Rpt → Rpt} (hf : opened (f q.disp.rpt)) : p.Formed opened on (q.onRpt f) :=
  { texts := h.texts.trans rfl
    bare := h.bare
    latch := h.latch
    ready := h.ready
    jobs := h.jobs
    awaits := h.awaits
    lnk := h.lnk
    unreachable := h.unreachable
    blank := h.blank
    rpt := hf }

/-- A change of the jobs that keeps their owners. -/
theorem Part.Formed.txf (h : p.Formed opened on q) {t : Txf} (hready : t.ready = [])
    (hold : ∀ j ∈ t.jobs, ∃ i ∈ q.txf.jobs, i.owner = j.owner) (hnew : ∀ j ∈ q.txf.jobs, ∃ i ∈ t.jobs, i.owner = j.owner) :
    p.Formed opened on { q with txf := t } :=
  { texts := h.texts.trans rfl
    bare := h.bare
    latch := h.latch
    ready := hready
    jobs := fun j hj => by
      obtain ⟨i, hi, howner⟩ := hold j hj
      exact howner ▸ h.jobs i hi
    awaits := fun k hk b => by
      obtain ⟨habsent, hpresent⟩ := h.awaits k hk b
      refine ⟨habsent, fun href => (hpresent href).imp_right fun ⟨hs, j, hj, howner⟩ => ⟨hs, ?_⟩⟩
      obtain ⟨i, hi, hi'⟩ := hnew j hj
      exact ⟨i, hi, hi'.trans howner⟩
    lnk := h.lnk
    unreachable := h.unreachable
    blank := h.blank
    rpt := h.rpt }

/-- A recomposition of regions. -/
theorem Part.Formed.recomposeFor (hp : p.Fresh) (h : p.Formed opened on q) (f : Nat → NodeConfig → List Region) :
    p.Formed opened on (q.recomposeFor f) := by
  obtain ⟨hdisp, hreach⟩ := recomposeAll_of_unreachable h.unreachable q (targetsOf q f)
  exact {
    texts := h.texts.trans rfl
    bare := h.bare
    latch := h.latch
    ready := h.ready
    jobs := h.jobs
    awaits := h.awaits
    lnk := (congrArg Disp.lnk hdisp).trans h.lnk
    unreachable := hreach
    blank := fun hn hr => by
      obtain ⟨source, hx⟩ := h.blank hn hr
      obtain ⟨source', hend, -⟩ := recomposeAll_blank (h.mute hp) h.unreachable hn hx (targetsOf q f)
      exact ⟨source', hend⟩
    rpt := (congrArg Disp.rpt hdisp).symm ▸ h.rpt }

/-- The sources stand when they stood, or when every region is recomposed (R122). -/
theorem Part.Formed.recomposeFor_sourced (hp : p.Fresh) (h : p.Formed opened on q) {f : Nat → NodeConfig → List Region}
    (hf : q.Sourced ∨ ∀ j n, f j n = n.regions) : (q.recomposeFor f).Sourced := by
  intro j n r hn hr
  have hn' : q.node j = some n := hn
  show (recomposeAll q q.disp (targetsOf q f)).cmp.region j r = some (.blankUnder r (q.sourceOf n r))
  rw [← composed_source q j n r none]
  obtain hsourced | hall := hf
  · obtain ⟨source', hend, hsource⟩ := recomposeAll_blank (h.mute hp) h.unreachable hn' (hsourced j n r hn' hr) (targetsOf q f)
    rw [hend, hsource.elim id fun hs => hs.1.trans (composed_source q j n r none).symm]
  · obtain ⟨source, hx⟩ := h.blank hn' hr
    obtain ⟨source', hend, hsource⟩ := recomposeAll_blank (h.mute hp) h.unreachable hn' hx (targetsOf q f)
    have hin := mem_targetsOf (f := f) hn' (hall j n ▸ hr)
    rw [hend, hsource.resolve_right fun hs => hs.2 _ hin ⟨rfl, rfl⟩]

theorem Part.Formed.ovr_length (hp : p.ovr.length = Config.channels) (h : p.Formed opened on q) :
    q.ovr.length = Config.channels := by
  have hlength := congrArg List.length h.bare
  rwa [List.length_map, List.length_map, hp] at hlength

/-- Channels of the same rules give the same sources. -/
theorem Part.sourceOf_of_rules (q q' : Part) (htrk : q'.trk = q.trk) (h : q'.ovr.map Channel.rule = q.ovr.map Channel.rule)
    (n : NodeConfig) (r : Region) : q'.sourceOf n r = q.sourceOf n r := by
  have hfloor : q'.nodeFloor n = q.nodeFloor n := nodeFloor_of_face fun _ => by rw [Part.face, Part.face, Part.car_congr htrk]
  have hconfig : ∀ k, (q'.channel k).config = (q.channel k).config := fun k => (channel_rule h k).1
  simp only [Part.sourceOf, governing_of_rules h hfloor, hconfig]

/-- The text of a channel in FAULT, its jobs gone (R101, R135). -/
theorem Part.Formed.faulted (hovr : p.ovr.length = Config.channels) (h : p.Formed opened on q) {k : Nat} (hk : k < Config.channels)
    {b : Bool} (href : q.ownerRef (channelOwner k b) ≠ none) {t : Txf} (hready : t.ready = [])
    (hjobs : t.jobs = q.txf.jobs.filter (·.owner ≠ channelOwner k b)) :
    p.Formed opened on (({ q with txf := t } : Part).setOwnerText (channelOwner k b)
      { q.ownerText (channelOwner k b) with status := some .fault }) := by
  have hlength : k < ({ q with txf := t } : Part).ovr.length := (h.ovr_length hovr).symm ▸ hk
  have htext := fun k' b' => Part.ownerText_setOwnerText hlength b { q.ownerText (channelOwner k b) with status := some .fault } k' b'
  have hrefs := fun k' b' => Part.ownerRef_setOwnerText { q with txf := t } k b
    { q.ownerText (channelOwner k b) with status := some .fault } k' b'
  rw [Part.setOwnerText_channel] at htext hrefs ⊢
  have hsame : (((q.channel k).withText b { q.ownerText (channelOwner k b) with status := some .fault }).bare)
      = (q.channel k).bare := by cases b <;> rfl
  exact {
    texts := h.texts.trans rfl
    bare := (map_set_of_same Channel.bare (dflt := Channel.reset) hsame).trans h.bare
    latch := fun k' hk' => Eq.trans (channel_rule (p := q)
      (map_set_of_same Channel.rule (dflt := Channel.reset) (Channel.withText_rule _ b _)) k').2 (h.latch k' hk')
    ready := hready
    jobs := fun j hj => by
      obtain ⟨k', hk', b', howner, hne⟩ := h.jobs j (List.mem_of_mem_filter (hjobs ▸ hj))
      refine ⟨k', hk', b', howner, ?_⟩
      rw [howner] at hne ⊢
      exact (hrefs k' b').symm ▸ hne
    awaits := fun k' hk' b' => by
      obtain ⟨habsent, hpresent⟩ := h.awaits k' hk' b'
      rw [Part.Awaits, htext, hrefs]
      by_cases hsame : k' = k ∧ b' = b
      · obtain ⟨rfl, rfl⟩ := hsame
        rw [if_pos ⟨rfl, rfl⟩]
        exact ⟨fun hnone => absurd hnone href, fun _ => .inl rfl⟩
      · rw [if_neg hsame]
        refine ⟨habsent, fun hne => (hpresent hne).imp_right fun ⟨hs, j, hj, howner⟩ => ⟨hs, j, ?_, howner⟩⟩
        refine hjobs ▸ List.mem_filter.mpr ⟨hj, ?_⟩
        simpa [howner] using fun heq => hsame (channelOwner_injective heq)
    lnk := h.lnk
    unreachable := h.unreachable
    blank := h.blank
    rpt := h.rpt }

theorem Part.Sourced.of_rules (h : q.Sourced) {q' : Part} (hnodes : q'.nodes = q.nodes) (htrk : q'.trk = q.trk)
    (hcmp : q'.disp.cmp = q.disp.cmp) (hrule : q'.ovr.map Channel.rule = q.ovr.map Channel.rule) : q'.Sourced := by
  intro j n r hn hr
  rw [Part.sourceOf_of_rules q q' htrk hrule, hcmp]
  exact h j n r (by rwa [Part.node, hnodes] at hn) hr

/-- A new status of an override text leaves the sources. -/
theorem Part.Sourced.setOwnerText (h : q.Sourced) (t : Txf) (k : Nat) (b : Bool) (x : Text) :
    (({ q with txf := t } : Part).setOwnerText (channelOwner k b) x).Sourced := by
  rw [Part.setOwnerText_channel]
  exact h.of_rules rfl rfl rfl (map_set_of_same Channel.rule (dflt := Channel.reset) (Channel.withText_rule _ b x))

end

/-! ### The checks of the override texts (R98, R101, R135) -/

theorem Part.checkJob_owner {p : Part} {j j' : Job} (h : p.checkJob j = .ok j') : j'.owner = j.owner := by
  unfold Part.checkJob at h
  split at h
  · cases h
  · split at h
    · cases h
    · split at h
      · cases h
        rfl
      · simp only at h
        split at h
        · cases h
        · cases h
          rfl

section
variable {p q : Part} {area : Nat} {first : Report} {counter : CounterId → BitVec 16} {on : Nat → Bool}
  (hp : p.Fresh) (hovr : p.ovr.length = Config.channels)

theorem Part.Formed.report (h : p.Formed (Rpt.Opened area first counter) on q) (words : Word × Word) :
    p.Formed (Rpt.Opened area first counter) on (q.report words) := h.onRpt (h.rpt.hand q.now words)

include hp hovr

theorem Part.Formed.faultJob (h : p.Formed (Rpt.Opened area first counter) on q) (hs : q.Sourced) {o : TextOwner}
    (ho : q.Requested o) (cause : TextCause) :
    p.Formed (Rpt.Opened area first counter) on (q.faultJob o cause) ∧ (q.faultJob o cause).Sourced := by
  obtain ⟨k, hk, b, rfl, href⟩ := ho
  have hready : (q.txf.unwatch (channelOwner k b)).ready = [] := by simp [Txf.unwatch, h.ready]
  have hfaulted := (h.faulted hovr hk href
    (t := { q.txf.unwatch (channelOwner k b) with jobs := q.txf.jobs.filter (·.owner ≠ channelOwner k b) }) hready rfl).report
    (repTextFault (channelOwner k b) cause)
  have hsourced := hs.setOwnerText
    { q.txf.unwatch (channelOwner k b) with jobs := q.txf.jobs.filter (·.owner ≠ channelOwner k b) } k b
    { q.ownerText (channelOwner k b) with status := some .fault }
  have hnotice : ∀ r : Part, r.ownerNotice (channelOwner k b) = r.cmpTextNotice k b := fun r => by cases b <;> rfl
  have hfault : q.faultJob (channelOwner k b) cause = Part.cmpTextNotice _ k b := hnotice _
  have htext : ∀ t, ({ q with txf := t } : Part).ownerText (channelOwner k b) = q.ownerText (channelOwner k b) := fun t => by
    cases b <;> rfl
  rw [hfault, htext]
  exact ⟨hfaulted.recomposeFor hp _, hfaulted.recomposeFor_sourced hp (.inl hsourced)⟩

theorem Part.Formed.checkHeads (fuel : Nat) (h : p.Formed (Rpt.Opened area first counter) on q) (hs : q.Sourced) :
    p.Formed (Rpt.Opened area first counter) on (Part.checkHeads fuel q) ∧ (Part.checkHeads fuel q).Sourced := by
  induction fuel generalizing q with
  | zero => exact ⟨h, hs⟩
  | succ fuel ih =>
    have checked : ∀ (r : Part) (j : Job) (rest : List Job), 
        p.Formed (Rpt.Opened area first counter) on r ∧ r.Sourced ∧ r.txf.jobs = j :: rest →
        p.Formed (Rpt.Opened area first counter) on
            (match r.checkJob j with
              | .error cause => Part.checkHeads fuel (r.faultJob j.owner cause)
              | .ok j' => r.setHead j')
          ∧ (match r.checkJob j with
              | .error cause => Part.checkHeads fuel (r.faultJob j.owner cause)
              | .ok j' => r.setHead j').Sourced := by
      intro r j rest ⟨hr, hsr, hjobs⟩
      split
      · next cause _ =>
        obtain ⟨hfault, hsfault⟩ := hr.faultJob hp hovr hsr (hr.jobs j (by simp [hjobs])) cause
        exact ih hfault hsfault
      · next j' hj' =>
        have howner := Part.checkJob_owner hj'
        refine ⟨hr.txf hr.ready (fun i hi => ?_) fun i hi => ?_, hsr⟩
        · obtain rfl | hi := List.mem_cons.mp hi
          · exact ⟨j, by simp [hjobs], howner.symm⟩
          · exact ⟨i, List.mem_of_mem_tail hi, rfl⟩
        · rw [hjobs] at hi
          obtain rfl | hi := List.mem_cons.mp hi
          · exact ⟨j', List.mem_cons_self .., howner⟩
          · exact ⟨i, by simp [hjobs, hi], rfl⟩
    have counted : ∀ {l : List Job}, q.txf.jobs = l → ∀ b : Bool,
        p.Formed (Rpt.Opened area first counter) on (if b then q.count .textTruncation 1 else q)
        ∧ (if b then q.count .textTruncation 1 else q).Sourced
        ∧ (if b then q.count .textTruncation 1 else q).txf.jobs = l := fun hjobs b => by
      cases b with
      | true => exact ⟨h.onRpt (f := (·.count .textTruncation 1)) (h.rpt.count (.inl rfl) 1), hs, hjobs⟩
      | false => exact ⟨h, hs, hjobs⟩
    unfold Part.checkHeads
    split
    · exact ⟨h, hs⟩
    · next j rest hjobs =>
      split
      · exact checked _ j rest (counted hjobs _)
      · exact ⟨h, hs⟩

theorem Part.Formed.txfPump (h : p.Formed (Rpt.Opened area first counter) on q) (hs : q.Sourced) :
    p.Formed (Rpt.Opened area first counter) on q.txfPump ∧ q.txfPump.Sourced := by
  have issued : ∀ r : Part, p.Formed (Rpt.Opened area first counter) on r → r.Sourced →
      p.Formed (Rpt.Opened area first counter) on r.issueRead ∧ r.issueRead.Sourced := by
    intro r hr hsr
    unfold Part.issueRead
    split
    · split
      · exact ⟨hr, hsr⟩
      · exact ⟨hr.txf hr.ready (fun i hi => ⟨i, hi, rfl⟩) fun i hi => ⟨i, hi, rfl⟩, hsr⟩
    · exact ⟨hr, hsr⟩
  obtain ⟨hchecked, hschecked⟩ := h.checkHeads hp hovr (q.txf.jobs.length + 1) hs
  have hframe := ((Part.checkHeads_serves (q.txf.jobs.length + 1) q).trans (Part.issueRead_serves _)).frame
  rw [Part.txfPump, Part.onlyMsg_of_frame hframe]
  exact issued _ hchecked hschecked

end

end Sys2Proof.Machine
end

section
/-! SUPPORT. The activation of the asserted lines at an accepted TAKE_FULL, and the end of the command (R133, R137, R174). -/

namespace Sys2Proof.Machine

/-- No entry waits where PRM is freshly formed, so that a flush changes nothing (R79, R85). -/
theorem Part.prmFlush_of_freshPrm {q : Part} {nodes : List (Option NodeConfig)} (h : q.prm = freshPrm nodes) (k : Nat) :
    q.prmFlush k = q := by
  have hmarks : q.prm.dropReported.set k false = q.prm.dropReported := by
    rw [h]
    simp [freshPrm, List.set_replicate_self]
  have hnone : q.prm.table = [] := by
    rw [h]
    rfl
  have hcleared : ({ q with prm := { q.prm with dropReported := q.prm.dropReported.set k false } } : Part) = q := by
    rw [hmarks]
  simp only [Part.prmFlush, hcleared, Part.retireEntries]
  rw [hnone]
  rfl

theorem Channel.withLatch_bare (c : Channel) (on : Bool) : Channel.bare { c with latch := on } = c.bare := rfl

section
variable {p q : Part} {area : Nat} {first : Report} {counter : CounterId → BitVec 16} {on : Nat → Bool}

/-- A channel keeps its sources and its configuration (R126, R137). -/
theorem Part.Formed.channel_bare {opened : Rpt → Prop} (h : p.Formed opened on q) (k : Nat) :
    (q.channel k).bare = (p.channel k).bare := getD_of_map_eq h.bare k Channel.reset

theorem Part.Formed.accepted {opened : Rpt → Prop} (h : p.Formed opened on q) (k : Nat) :
    (q.channel k).accepted = (p.channel k).accepted := by
  have haccepted := congrArg Channel.accepted (h.channel_bare k)
  exact haccepted

/-- A channel latches (R133). -/
theorem Part.Formed.latched {opened : Rpt → Prop} (hovr : p.ovr.length = Config.channels) (h : p.Formed opened on q) {k : Nat}
    (hk : k < Config.channels) :
    p.Formed opened (fun i => on i || decide (i = k)) (q.setChannel k { q.channel k with latch := true }) := by
  have hlength : k < q.ovr.length := (h.ovr_length hovr).symm ▸ hk
  have htexts := map_set_of_same (fun c : Channel => (c.lineRef, c.lineText, c.bannerRef, c.bannerText)) (l := q.ovr) (i := k)
    (dflt := Channel.reset) (x := { q.channel k with latch := true }) rfl
  have hchannel := fun i => getD_of_map_eq htexts i Channel.reset
  simp only [Prod.mk.injEq] at hchannel
  have hsame : ∀ i b, (q.setChannel k { q.channel k with latch := true }).ownerRef (channelOwner i b) = q.ownerRef (channelOwner i b)
      ∧ (q.setChannel k { q.channel k with latch := true }).ownerText (channelOwner i b) = q.ownerText (channelOwner i b) := by
    intro i b
    obtain ⟨hline, hlineText, hbanner, hbannerText⟩ := hchannel i
    cases b with
    | false => exact ⟨hline, hlineText⟩
    | true => exact ⟨hbanner, hbannerText⟩
  exact {
    texts := h.texts.trans rfl
    bare := (map_set_of_same Channel.bare (dflt := Channel.reset) (Channel.withLatch_bare _ _)).trans h.bare
    latch := fun i hi => by
      by_cases hik : i = k
      · subst hik
        rw [Part.setChannel_channel_same hlength]
        simp
      · rw [Part.setChannel_channel_other q _ hik, h.latch i hi]
        simp [hik]
    ready := h.ready
    jobs := fun j hj => by
      obtain ⟨i, hi, b, howner, href⟩ := h.jobs j hj
      refine ⟨i, hi, b, howner, ?_⟩
      rw [howner] at href ⊢
      rwa [(hsame i b).1]
    awaits := fun i hi b => by
      obtain ⟨href, htext⟩ := hsame i b
      rw [Part.Awaits, href, htext]
      exact h.awaits i hi b
    lnk := h.lnk
    unreachable := h.unreachable
    blank := h.blank
    rpt := h.rpt }

/-- An accepted line activates its channel, whatever the sources were (R122, R133). -/
theorem Part.Formed.sourceChange (hp : p.Fresh) (hovr : p.ovr.length = Config.channels) (hrunning : p.path.state = .running)
    (h : p.Formed (Rpt.Opened area first counter) on q) {k : Nat} (hk : k < Config.channels) (hoff : on k = false)
    (haccepted : (q.channel k).accepted = true) :
    p.Formed (Rpt.Opened area first counter) (fun i => on i || decide (i = k)) (q.sourceChange k) ∧ (q.sourceChange k).Sourced := by
  have hconfigured : q.path.configured = true := by
    rw [Path.configured, h.texts, hrunning]
  have hactivates : q.sourceChange k = (q.activateChannel k).channelNotice k := by
    simp only [Part.sourceChange, h.latch k hk, hoff, haccepted, hconfigured, Bool.not_false, Bool.true_or, Bool.and_self, if_true]
  have hlatched := h.latched hovr hk
  have hflush : (q.setChannel k { q.channel k with latch := true }).prmFlush k = q.setChannel k { q.channel k with latch := true } := by
    refine Part.prmFlush_of_freshPrm (nodes := p.nodes) ?_ k
    rw [hlatched.texts]
    exact hp.prm
  rw [hactivates, Part.activateChannel, hflush]
  have hcomposed := (hlatched.recomposeFor hp fun _ n => n.regions).report
    (repOverrideOn k (q.channel k).accepted (q.channel k).memory)
  exact ⟨hcomposed.onRpt (f := (·.status (channelRecordIndex k) _)) (hcomposed.rpt.status _ _),
    hlatched.recomposeFor_sourced hp (.inr fun _ _ => rfl)⟩

/-- The channels whose lines are accepted go ACTIVE one after another (R137). -/
theorem Part.Formed.applyLines (hp : p.Fresh) (hovr : p.ovr.length = Config.channels) (hrunning : p.path.state = .running)
    (h : p.Formed (Rpt.Opened area first counter) (fun _ => false) q) (hs : q.Sourced) :
    p.Formed (Rpt.Opened area first counter) (fun k => (p.channel k).accepted) q.applyLines ∧ q.applyLines.Sourced := by
  have upto : ∀ m ≤ Config.channels,
      p.Formed (Rpt.Opened area first counter) (fun k => (p.channel k).accepted && decide (k < m))
          ((List.range m).foldl (fun q k => if (q.channel k).accepted then q.sourceChange k else q) q)
        ∧ ((List.range m).foldl (fun q k => if (q.channel k).accepted then q.sourceChange k else q) q).Sourced := by
    intro m
    induction m with
    | zero => exact fun _ => ⟨by simpa using h, hs⟩
    | succ m ih =>
      intro hm
      obtain ⟨hformed, hsourced⟩ := ih (by omega)
      rw [List.range_succ, List.foldl_append, List.foldl_cons, List.foldl_nil]
      generalize (List.range m).foldl (fun q k => if (q.channel k).accepted then q.sourceChange k else q) q = r at hformed hsourced ⊢
      have haccepted : (r.channel m).accepted = (p.channel m).accepted := hformed.accepted m
      have hsplit : ∀ k, ((p.channel k).accepted && decide (k < m + 1))
          = ((p.channel k).accepted && decide (k < m) || (p.channel m).accepted && decide (k = m)) := fun k => by
        by_cases hkm : k = m
        · subst hkm
          simp
        · have hlt : k < m + 1 ↔ k < m := by omega
          simp [hkm, hlt]
      cases hm' : (p.channel m).accepted with
      | true =>
        rw [if_pos (haccepted.trans hm')]
        obtain ⟨hnext, hsnext⟩ := hformed.sourceChange hp hovr hrunning hm (by simp) (haccepted.trans hm')
        exact ⟨{ hnext with latch := fun k hk => (hnext.latch k hk).trans (by rw [hsplit, hm', Bool.true_and]) }, hsnext⟩
      | false =>
        rw [if_neg (by simp [haccepted, hm'])]
        exact ⟨{ hformed with latch := fun k hk => (hformed.latch k hk).trans (by rw [hsplit, hm', Bool.false_and, Bool.or_false]) },
          hsourced⟩
  obtain ⟨hformed, hsourced⟩ := upto Config.channels le_rfl
  exact ⟨{ hformed with latch := fun k hk => (hformed.latch k hk).trans (by simp [hk]) }, hsourced⟩

/-- What a command ends with (R97, R185). -/
theorem Part.Formed.settle (hp : p.Fresh) (hovr : p.ovr.length = Config.channels)
    (h : p.Formed (Rpt.Opened area first counter) on q) (hs : q.Sourced) :
    p.Formed (Rpt.Opened area first counter) on q.settle ∧ q.settle.Sourced := by
  obtain ⟨hpumped, hspumped⟩ := h.txfPump hp hovr hs
  have hchosen := hpumped.onRpt hpumped.rpt.choose
  rw [Part.settle, Part.joinOwn_eq]
  exact ⟨{ hchosen with texts := hchosen.texts.trans rfl, blank := hchosen.blank }, hspumped⟩

end

/-! ### The formed part -/

/-- A region that begins is blank, its source NORMAL (R126). -/
theorem freshCmp_region {nodes : List (Option NodeConfig)} {j : Nat} {n : NodeConfig} {r : Region} (hn : nodes[j]? = some (some n))
    (hr : r ∈ n.regions) : (freshCmp nodes).region j r = some (.blankUnder r .normal) := by
  simp only [Cmp.region, freshCmp, List.getElem?_map, hn, Option.map_some, List.find?_map]
  cases hfind : n.regions.find? ((fun x : RegionRecord => decide (x.region = r)) ∘ RegionRecord.fresh) with
  | none =>
    have hmiss := List.find?_eq_none.mp hfind r hr
    simp [RegionRecord.fresh] at hmiss
  | some r' =>
    have hfound := List.find?_some hfind
    obtain rfl : r' = r := of_decide_eq_true hfound
    rfl

theorem freshCmp_reachable (nodes : List (Option NodeConfig)) (j : Nat) : (freshCmp nodes).reachable j = false := by
  unfold Cmp.reachable freshCmp
  simp only [List.getElem?_map]
  cases nodes[j]? with
  | none => rfl
  | some n => cases n <;> rfl

section
variable (p : Part) (tk : Take)

theorem Part.replaced_ovr_length : (p.replaced tk).ovr.length = Config.channels := by
  simp [Part.replaced]

theorem Part.replaced_channel {k : Nat} (hk : k < Config.channels) :
    (p.replaced tk).channel k = (p.channel k).loaded tk.word k := by
  simp only [Part.channel, Part.replaced, List.getD_eq_getElem?_getD, List.getElem?_map, List.getElem?_range hk]
  rfl

theorem Part.replaced_owner {k : Nat} (hk : k < Config.channels) (b : Bool) :
    (p.replaced tk).ownerRef (channelOwner k b) = readChannelText tk.word k (if b then 4 else 2)
      ∧ (p.replaced tk).ownerText (channelOwner k b) = overrideText (readChannelText tk.word k (if b then 4 else 2)) := by
  cases b with
  | false => exact ⟨congrArg Channel.lineRef (p.replaced_channel tk hk), congrArg Channel.lineText (p.replaced_channel tk hk)⟩
  | true => exact ⟨congrArg Channel.bannerRef (p.replaced_channel tk hk), congrArg Channel.bannerText (p.replaced_channel tk hk)⟩

/-- The fetch jobs of a configuration are those of the override texts it has (R135). -/
theorem mem_overrideJobs {w : Nat → Word} {j : Job} :
    j ∈ overrideJobs w ↔
      ∃ k < Config.channels, ∃ b, ∃ ref,
        readChannelText w k (if b then 4 else 2) = some ref ∧ j = Job.fresh (channelOwner k b) ref := by
  simp only [overrideJobs, List.mem_filterMap, List.mem_flatMap, List.mem_range, List.mem_cons, List.not_mem_nil, or_false,
    Option.map_eq_some_iff]
  constructor
  · rintro ⟨_, ⟨k, hk, rfl | rfl⟩, ref, href, rfl⟩
    · exact ⟨k, hk, false, ref, href, rfl⟩
    · exact ⟨k, hk, true, ref, href, rfl⟩
  · rintro ⟨k, hk, b, ref, href, rfl⟩
    cases b with
    | false => exact ⟨_, ⟨k, hk, .inl rfl⟩, ref, href, rfl⟩
    | true => exact ⟨_, ⟨k, hk, .inr rfl⟩, ref, href, rfl⟩

theorem Part.replaced_awaits {k : Nat} (hk : k < Config.channels) (b : Bool) : (p.replaced tk).Awaits (channelOwner k b) := by
  obtain ⟨href, htext⟩ := p.replaced_owner tk hk b
  rw [Part.Awaits, href, htext]
  cases h : readChannelText tk.word k (if b then 4 else 2) with
  | none => exact ⟨fun _ => rfl, fun hne => absurd rfl hne⟩
  | some ref =>
    exact ⟨nofun, fun _ => .inr ⟨rfl, Job.fresh (channelOwner k b) ref, mem_overrideJobs.mpr ⟨k, hk, b, ref, h, rfl⟩, rfl⟩⟩

theorem Part.replaced_requested {j : Job} (hj : j ∈ overrideJobs tk.word) : (p.replaced tk).Requested j.owner := by
  obtain ⟨k, hk, b, ref, href, rfl⟩ := mem_overrideJobs.mp hj
  refine ⟨k, hk, b, rfl, fun hnone => ?_⟩
  have hread := (p.replaced_owner tk hk b).1
  rw [show (p.replaced tk).ownerRef (channelOwner k b) = none from hnone, href] at hread
  cases hread

/-- A configuration of Table 1-1's sizes has a status record for each car, node, ring and channel, beside the counters' (R188). -/
theorem acceptedShadows_length (w : Nat → Word) {rings : List Ring} (hrings : rings.length = Config.rings) {channels : List Channel}
    (hchannels : channels.length = Config.channels) (now : Time) :
    (acceptedShadows (readGeo w) (readNodes w) rings channels now).length + 1 = Config.statusRecords := by
  simp [acceptedShadows, readGeo, readNodes, hrings, hchannels, Config.statusRecords, Config.maxCars, Config.maxNodes, Config.rings,
    Config.channels]

/-- The part of an accepted TAKE_FULL with TAKE_DONE handed (R174, R186). -/
theorem Part.replaced_formed :
    (p.replaced tk).Formed
        (Rpt.Opened (readWindow tk.word 4).base
          { word0 := (repTakeDone .full 0 0).1, word1 := (repTakeDone .full 0 0).2, time := p.now } p.disp.rpt.counter)
        (fun _ => false) ((p.replaced tk).report (repTakeDone .full 0 0))
      ∧ ((p.replaced tk).report (repTakeDone .full 0 0)).Sourced := by
  have hfresh := p.replaced_fresh tk
  have hnode : ∀ {j n}, (p.replaced tk).node j = some n → (p.replaced tk).nodes[j]? = some (some n) := fun hn =>
    Option.join_eq_some_iff.mp hn
  refine ⟨{
    texts := rfl
    bare := rfl
    latch := hfresh.latch
    ready := rfl
    jobs := fun j hj => p.replaced_requested tk hj
    awaits := fun k hk b => p.replaced_awaits tk hk b
    lnk := rfl
    unreachable := fun j => freshCmp_reachable _ j
    blank := fun hn hr => ⟨.normal, freshCmp_region (hnode hn) hr⟩
    rpt := ?_ }, fun j n r hn hr => ?_⟩
  · exact Rpt.accepted_opened p.disp.rpt _ (acceptedShadows_length tk.word (by simp) (by simp) _) p.now _
  · have hnormal : (p.replaced tk).sourceOf n r = .normal := by
      rw [Part.sourceOf, hfresh.governing]
      rfl
    show (freshCmp _).region j r = some (.blankUnder r ((p.replaced tk).sourceOf n r))
    rw [hnormal]
    exact freshCmp_region (hnode hn) hr

/-- What an accepted TAKE_FULL leaves at the command's end (R174). -/
theorem Part.acceptFull_formed :
    (p.replaced tk).Formed
        (Rpt.Opened (readWindow tk.word 4).base
          { word0 := (repTakeDone .full 0 0).1, word1 := (repTakeDone .full 0 0).2, time := p.now } p.disp.rpt.counter)
        (fun k => ((p.replaced tk).channel k).accepted) (p.acceptFull tk).settle
      ∧ (p.acceptFull tk).settle.Sourced := by
  have hfresh := p.replaced_fresh tk
  have hovr := p.replaced_ovr_length tk
  obtain ⟨hformed, hsourced⟩ := p.replaced_formed tk
  obtain ⟨hchecked, hschecked⟩ := hformed.txfPump hfresh hovr hsourced
  obtain ⟨happlied, hsapplied⟩ := hchecked.applyLines hfresh hovr rfl hschecked
  exact happlied.settle hfresh hovr hsapplied

end

end Sys2Proof.Machine
end

section
/-! PROOFS. TAKE_RESULT_WRITE of an accepted TAKE_FULL (R59, R85, R109, R126, R135, R137, R163, R173, R174, R188). -/

namespace Sys2Proof.Machine

/-- TAKE_RESULT_WRITE of an accepted TAKE_FULL: the part it leaves, no channel being held (R136, R173, R174). -/
theorem exec_takeResultWrite_full {s : State} {tk : Take} (hwaits : s.part.path.waits .takeResult = true)
    (htake : s.part.path.take = some tk) (hkind : tk.kind = .full) (hresult : tk.result = some (0, 0))
    (hheld : s.part.channelHeld = none) :
    ∃ t x, exec .takeResultWrite s = .next t
      ∧ t.mem = writeWhole s.mem (wordAddr s.part.path.takeAddress) (takeResultWord 0 0)
      ∧ t.part = ((s.part.onPath fun _ => x).acceptFull tk).settle := by
  have hturn : s.part.path.ownNext = some .takeResult := by simp only [Path.ownNext, hwaits, if_true]
  have hleft : (s.onPart fun p => p.onPath (·.leave .takeResult)).part.path.take = some tk := htake
  have hwritten : (s.onPart fun p => p.onPath (·.leave .takeResult)).part.takeResult tk (0, 0) = (0, 0) := by
    have hfree : (s.onPart fun p => p.onPath (·.leave .takeResult)).part.channelHeld = none := hheld
    simp only [Part.takeResult, hkind, hfree, if_true]
  refine ⟨s.performOwn .takeResult,
    { s.part.path.leave .takeResult with takeWord := some (takeResultWord 0 0) }, ?_, ?_, ?_⟩
  · show Host.Outcome.next (s.ownTurn .takeResult) = _
    rw [State.ownTurn, if_pos hturn]
  · show (s.onPart fun p => p.onPath (·.leave .takeResult)).writeTakeResult.mem = _
    simp only [State.writeTakeResult, hleft, hresult, hwritten]
    rfl
  · have hperform : (s.performOwn .takeResult).part = (State.writeTakeResult _).part.settle := rfl
    rw [hperform, State.writeTakeResult_of_due hleft hresult, hwritten, Part.finishTake, if_pos rfl, hkind]
    rfl

section
variable {p q : Part} {tk : Take} {opened : Rpt → Prop}
  (h : (p.replaced tk).Formed opened (fun k => ((p.replaced tk).channel k).accepted) q)
include h

/-- Configuration, line, samples and state of a channel (R137, Table 7-2). -/
theorem Part.Formed.channel_loaded {k : Nat} (hk : k < Config.channels) :
    (q.channel k).config = some (readChannel tk.word k)
      ∧ (q.channel k).lineRef = readChannelText tk.word k 2 ∧ (q.channel k).bannerRef = readChannelText tk.word k 4
      ∧ (q.channel k).samples = (p.channel k).samples ∧ (q.channel k).accepted = (p.channel k).accepted
      ∧ (q.channel k).memory = false ∧ (q.channel k).latch = (p.channel k).accepted := by
  have hbare : (q.channel k).bare = ((p.channel k).loaded tk.word k).bare := by
    rw [h.channel_bare k, p.replaced_channel tk hk]
  have hlatch := h.latch k hk
  rw [p.replaced_channel tk hk] at hlatch
  exact ⟨(congrArg Channel.config hbare :), (congrArg Channel.lineRef hbare :), (congrArg Channel.bannerRef hbare :),
    (congrArg Channel.samples hbare :), (congrArg Channel.accepted hbare :), (congrArg Channel.memory hbare :), hlatch⟩

/-- An override text has no data yet (R135). -/
theorem Part.Formed.ownerText_empty {k : Nat} (hk : k < Config.channels) (b : Bool) :
    (q.ownerText (channelOwner k b)).buffer = [] ∧ (q.ownerText (channelOwner k b)).version = 0 := by
  have hbare : (q.channel k).bare = ((p.channel k).loaded tk.word k).bare := by
    rw [h.channel_bare k, p.replaced_channel tk hk]
  have hempty : ∀ ref, (overrideText ref).buffer = [] ∧ (overrideText ref).version = 0 := fun ref => by
    cases ref <;> exact ⟨rfl, rfl⟩
  have hline := congrArg (fun c : Channel => (c.lineText.buffer, c.lineText.version)) hbare
  have hbanner := congrArg (fun c : Channel => (c.bannerText.buffer, c.bannerText.version)) hbare
  obtain ⟨hlineBuffer, hlineVersion⟩ := Prod.mk.inj hline
  obtain ⟨hbannerBuffer, hbannerVersion⟩ := Prod.mk.inj hbanner
  cases b with
  | false => exact ⟨hlineBuffer.trans (hempty _).1, hlineVersion.trans (hempty _).2⟩
  | true => exact ⟨hbannerBuffer.trans (hempty _).1, hbannerVersion.trans (hempty _).2⟩

/-- The sources under the configuration taken (Table 6-5). -/
theorem Part.Formed.sourceOf_loaded (n : NodeConfig) (r : Region) :
    q.sourceOf n r = ((q.governing n).elim .normal fun k =>
      if (r = .floor ∧ (readChannel tk.word k).floorBlank = false)
          ∨ (r = .arrow ∧ (readChannel tk.word k).arrowBlank = false) then .normal
      else .channel k) := by
  unfold Part.sourceOf
  cases hk : q.governing n with
  | none => rfl
  | some k =>
    obtain ⟨hconfig, -⟩ := h.channel_loaded (List.mem_range.mp (List.mem_of_find?_eq_some hk))
    simp only [Option.elim_some, hconfig, Option.map_some, Option.getD_some]

/-- The rings are freshly formed (R163). -/
theorem Part.Formed.ring_fresh {r : Nat} (hr : r < Config.rings) :
    q.disp.ring r = freshRing (readNodes tk.word) r (readRingWindow tk.word r) p.now := by
  rw [Disp.ring, h.lnk]
  simp only [Part.replaced, List.getD_eq_getElem?_getD, List.getElem?_map, List.getElem?_range hr]
  rfl

end

/-- Settles O29: what stands after the acceptance is carried through the checks of the override texts, the activation of the
asserted lines and the end of the command. -/
theorem fullAcceptanceCompletes : Obligations.FullAcceptanceCompletes := by
  intro s tk hwaits htake hkind hresult hheld
  obtain ⟨t, x, hexec, hmem, hpart⟩ := exec_takeResultWrite_full hwaits htake hkind hresult hheld
  obtain ⟨hformed, hsourced⟩ := (s.part.onPath fun _ => x).acceptFull_formed tk
  rw [← hpart] at hformed hsourced
  have hconst : ∀ {α : Type} (f : Part → α), (∀ (q : Part) own txf ovr disp,
      f { q with path := { q.path with own := own }, txf := txf, ovr := ovr, disp := disp } = f q) →
      f t.part = f ((s.part.onPath fun _ => x).replaced tk) := fun f hf => (congrArg f hformed.texts).trans (hf ..)
  have hprm := hconst (·.prm) fun _ _ _ _ _ => rfl
  have hpath := hconst (fun q => (q.path.take, q.path.state, q.path.watch, q.path.mirror, q.path.lastSeq)) fun _ _ _ _ _ => rfl
  simp only [Prod.mk.injEq] at hpath
  obtain ⟨hnone, hstate, hwatch, hmirror, hseq⟩ := hpath
  have hclock := hconst (fun q => (q.now, q.tenth, q.sampledAt, q.lines, q.hostData)) fun _ _ _ _ _ => rfl
  simp only [Prod.mk.injEq] at hclock
  refine ⟨t, hexec, hmem, hnone, hstate, hwatch, hmirror, hseq, hconst (·.params) fun _ _ _ _ _ => rfl,
    hconst (·.geo) fun _ _ _ _ _ => rfl, hconst (·.nodes) fun _ _ _ _ _ => rfl, hconst (·.trk) fun _ _ _ _ _ => rfl,
    hconst (·.arr) fun _ _ _ _ _ => rfl, congrArg Prm.table hprm, hprm, hconst (·.msg) fun _ _ _ _ _ => rfl,
    hconst (·.trg) fun _ _ _ _ _ => rfl, hformed.ready, fun j hj => ?_, fun n hn => ?_, fun j n r hnode hr => ?_,
    hformed.unreachable, fun r hr => hformed.ring_fresh hr, hformed.rpt.area, hformed.rpt.slots, hformed.rpt.attention,
    hformed.rpt.producer, hformed.rpt.sequence, fun i hi => ?_, hformed.rpt.counters, hformed.rpt.waiting, hclock⟩
  · obtain ⟨k, hk, b, howner, -⟩ := hformed.jobs j hj
    refine ⟨k, hk, ?_⟩
    cases b with
    | false => exact .inl howner
    | true => exact .inr howner
  · obtain ⟨hconfig, hlineRef, hbannerRef, hsamples, haccepted, hmemory, hlatch⟩ := hformed.channel_loaded hn
    have htext : ∀ b, (t.part.ownerText (channelOwner n b)).buffer = [] ∧ (t.part.ownerText (channelOwner n b)).version = 0
        ∧ t.part.Awaits (channelOwner n b) := fun b => by
      obtain ⟨hbuffer, hversion⟩ := hformed.ownerText_empty hn b
      exact ⟨hbuffer, hversion, hformed.awaits n hn b⟩
    refine ⟨hconfig, hlineRef, hbannerRef, hsamples, haccepted, hmemory, hlatch, ?_⟩
    rintro o (rfl | rfl)
    · exact htext false
    · exact htext true
  · exact ⟨_, hsourced j n r hnode hr, rfl, rfl, rfl, hformed.sourceOf_loaded n r⟩
  · have hlength : i < t.part.disp.rpt.records.length := hformed.rpt.length.symm ▸ hi
    exact ⟨_, List.getElem?_eq_getElem hlength, hformed.rpt.records _ (List.getElem_mem hlength)⟩

end Sys2Proof.Machine
end

section
/-! SUPPORT. The stations: node table, channel rules, and what the terminal queues read of the assignments (R61, R66, R134). No
operation outside PRM, OVR and PATH's takes touches them, and a law that reads them alone is a step invariant as soon as
those operations keep it. -/

namespace Sys2Proof.Machine

/-! ### Places, roster and stations -/

/-- What the terminal queues and their order read of an assignment. -/
structure Place where
  number : Nat
  terminal : Nat
  prompt : PromptState
  stepFree : Bool
  order : Nat

def Assignment.place (a : Assignment) : Place where
  number := a.number
  terminal := a.terminal
  prompt := a.prompt
  stepFree := a.stepFree
  order := a.order

/-- What the laws of the queues read of PRM. -/
structure Roster where
  places : List Place
  queues : List PromptQueue
  nextOrder : Nat

def Part.roster (p : Part) : Roster where
  places := p.prm.table.map (·.place)
  queues := p.prm.queues
  nextOrder := p.prm.nextOrder

/-- The channels' configurations and latches (R131, R134). -/
def Part.rules (p : Part) : List (Option ChannelConfig × Bool) := p.ovr.map Channel.rule

structure Stations where
  nodes : List (Option NodeConfig)
  rules : List (Option ChannelConfig × Bool)
  roster : Roster

def Part.stations (p : Part) : Stations where
  nodes := p.nodes
  rules := p.rules
  roster := p.roster

theorem Part.roster_of_prm {p q : Part} (h : q.prm = p.prm) : q.roster = p.roster := by
  rw [Part.roster, h, Part.roster]

/-- An operation that keeps base and channels. -/
theorem Part.stations_of_roster {p q : Part} (hbase : q.base = p.base) (htext : q.text = p.text)
    (hroster : q.roster = p.roster) : q.stations = p.stations := by
  have hovr : q.ovr = p.ovr := congrArg (fun t => t.2.2.2) htext
  rw [Part.stations, Part.rules, nodes_of_base hbase, hovr, hroster]
  rfl

theorem Part.stations_of_prm {p q : Part} (hbase : q.base = p.base) (htext : q.text = p.text) (hprm : q.prm = p.prm) :
    q.stations = p.stations := Part.stations_of_roster hbase htext (Part.roster_of_prm hprm)

/-- An operation on the texts, whose channels keep their rules. -/
theorem Part.stations_of_rules {p q : Part} (hbase : q.base = p.base) (hprm : q.prm = p.prm) (hrules : q.rules = p.rules) :
    q.stations = p.stations := by
  rw [Part.stations, nodes_of_base hbase, hrules, Part.roster_of_prm hprm]
  rfl

theorem Part.onRpt_stations (p : Part) (f : Rpt → Rpt) : (p.onRpt f).stations = p.stations := rfl

theorem Part.stations_ite {p q r : Part} {c : Prop} [Decidable c] (hq : q.stations = p.stations)
    (hr : r.stations = p.stations) : (if c then q else r).stations = p.stations := by
  split
  · exact hq
  · exact hr

/-! ### ARR (chapter 3) -/

theorem Part.setAssignment_roster (p : Part) (n : Nat) {f : Assignment → Assignment} (h : ∀ a, (f a).place = a.place) :
    (p.setAssignment n f).roster = p.roster := by
  have hplaces : (p.setAssignment n f).prm.table.map (·.place) = p.prm.table.map (·.place) := by
    simp only [Part.setAssignment, List.map_map]
    refine List.map_congr_left fun a _ => ?_
    simp only [Function.comp_apply]
    split
    · exact h a
    · rfl
  exact congrArg (fun l => ({ p.roster with places := l } : Roster)) hplaces

theorem Part.setHeld_roster (p : Part) (n : Nat) (old : Option Estimate) (new : Estimate) :
    (p.setHeld n old new).roster = p.roster := by
  have held := p.setAssignment_roster n (f := (·.holding new)) fun _ => rfl
  rw [Part.setHeld_eq]
  split
  · exact held
  · exact (Part.roster_of_prm (Part.cmpEstimateChange_prm ..)).trans held

theorem Part.promptEstimate_roster (p : Part) (n : Nat) (fresh : Bool) : (p.promptEstimate n fresh).roster = p.roster := by
  refine (Part.roster_of_prm (Part.onlyArr_prm p _)).trans ?_
  split
  · rfl
  · split
    · rfl
    · simp only
      split
      · exact Part.setHeld_roster _ n _ _
      · exact p.setHeld_roster n _ _

/-- A lamping operation is none of PRM's. -/
theorem Lamping.prm {f : Part → Nat → Part} {g : Part → Lantern → Lantern} (h : Lamping f g) (p : Part) (i : Nat) :
    (f p i).prm = p.prm := by
  cases hi : p.arr.lanterns[i]? with
  | none => rw [h.absent hi]
  | some l => exact (congrArg Part.prm (h.sets hi) :)

theorem Part.arrArrival_prm (p : Part) (c d f : Nat) : (p.arrArrival c d f).prm = p.prm :=
  foldl_keeps Part.prm (f := Part.arriveLantern c) (arriveLantern_lamping c).prm (p.lanternsAt c d f) p

theorem Part.arrDeparture_prm (p : Part) (c d f : Nat) : (p.arrDeparture c d f).prm = p.prm :=
  foldl_keeps Part.prm (f := Part.departLantern) departLantern_lamping.prm (p.lanternsAt c d f) p

theorem Part.withdrawLanterns_prm (p : Part) (c : Nat) : (p.withdrawLanterns c).prm = p.prm :=
  foldl_keeps Part.prm Part.withdrawLantern_prm _ _

theorem Part.arrEvaluation_roster (p : Part) (c : Nat) : (p.arrEvaluation c).roster = p.roster := by
  obtain ⟨disp, hdecks⟩ := p.evaluateDecks_eq c
  refine (foldl_keeps Part.roster (fun q n => q.promptEstimate_roster n false) _ _).trans (Part.roster_of_prm ?_)
  rw [hdecks]
  rfl

theorem Part.arrWithdraw_roster (p : Part) (c : Nat) : (p.arrWithdraw c).roster = p.roster := by
  rw [Part.arrWithdraw_eq]
  exact (foldl_keeps Part.roster (fun q (a : Assignment) => q.setHeld_roster a.number a.estimate .none) _ _).trans
    (Part.roster_of_prm (p.withdrawLanterns_prm c))

theorem Part.arrEvaluation_stations (p : Part) (c : Nat) : (p.arrEvaluation c).stations = p.stations :=
  Part.stations_of_roster (p.arrEvaluation_base c) (p.arrEvaluation_text c) (p.arrEvaluation_roster c)

theorem Part.arrWithdraw_stations (p : Part) (c : Nat) : (p.arrWithdraw c).stations = p.stations :=
  Part.stations_of_roster (p.arrWithdraw_base c) (p.arrWithdraw_text c) (p.arrWithdraw_roster c)

theorem Part.arrArrival_stations (p : Part) (c d f : Nat) : (p.arrArrival c d f).stations = p.stations :=
  Part.stations_of_prm (p.arrArrival_base c d f) (p.arrArrival_text c d f) (p.arrArrival_prm c d f)

theorem Part.arrDeparture_stations (p : Part) (c d f : Nat) : (p.arrDeparture c d f).stations = p.stations :=
  Part.stations_of_prm (p.arrDeparture_base c d f) (p.arrDeparture_text c d f) (p.arrDeparture_prm c d f)

/-- An arrival marks entries as BOARDING and moves none (R76). -/
theorem Part.prmArrival_stations (p : Part) (c d f : Nat) : (p.prmArrival c d f).stations = p.stations := by
  have hplaces : (p.prm.table.map (Assignment.boarded c d f)).map (·.place) = p.prm.table.map (·.place) := by
    rw [List.map_map]
    refine List.map_congr_left fun a _ => ?_
    simp only [Function.comp_apply, Assignment.boarded]
    split <;> rfl
  exact congrArg (fun l => ({ p.stations with roster := { p.roster with places := l } } : Stations)) hplaces

/-! ### Texts (chapter 5) -/

/-- A channel replaced by one of the same rule. -/
theorem Part.setChannel_rules (p : Part) (k : Nat) {c : Channel} (h : c.rule = (p.channel k).rule) :
    (p.setChannel k c).rules = p.rules := map_set_of_same Channel.rule (dflt := Channel.reset) h

theorem Part.setOwnerText_rules (p : Part) (o : TextOwner) (t : Text) : (p.setOwnerText o t).rules = p.rules := by
  cases o with
  | message m => rfl
  | line k => exact p.setChannel_rules k rfl
  | banner k => exact p.setChannel_rules k rfl

theorem Part.ownerNotice_rules (p : Part) (o : TextOwner) : (p.ownerNotice o).rules = p.rules := by
  cases o <;> rfl

theorem Part.faultJob_rules (p : Part) (o : TextOwner) (cause : TextCause) : (p.faultJob o cause).rules = p.rules :=
  (Part.ownerNotice_rules _ o).trans (Part.setOwnerText_rules _ o _)

theorem Part.completeJob_rules (p : Part) (j : Job) : (p.completeJob j).rules = p.rules :=
  (Part.ownerNotice_rules _ j.owner).trans (Part.setOwnerText_rules _ j.owner _)

theorem Part.checkHeads_rules (fuel : Nat) (p : Part) : (Part.checkHeads fuel p).rules = p.rules := by
  induction fuel generalizing p with
  | zero => rfl
  | succ fuel ih =>
    have counted : ∀ b : Bool, (if b then p.count .textTruncation 1 else p).rules = p.rules := fun b => by
      split <;> rfl
    have checked : ∀ (q : Part) (j : Job),
        (match q.checkJob j with
          | .error cause => Part.checkHeads fuel (q.faultJob j.owner cause)
          | .ok j' => q.setHead j').rules = q.rules := by
      intro q j
      split
      · exact (ih _).trans (q.faultJob_rules _ _)
      · rfl
    unfold Part.checkHeads
    split
    · rfl
    · split
      · exact (checked _ _).trans (counted _)
      · rfl

theorem Part.issueRead_rules (p : Part) : p.issueRead.rules = p.rules := by
  unfold Part.issueRead
  split
  · split <;> rfl
  · rfl

theorem Part.txfPump_rules (p : Part) : p.txfPump.rules = p.rules :=
  (Part.issueRead_rules _).trans (Part.checkHeads_rules _ p)

theorem Part.takeBytes_rules (p : Part) (j : Job) (bytes : List Byte) : (p.takeBytes j bytes).rules = p.rules := by
  unfold Part.takeBytes
  simp only
  split
  · exact p.completeJob_rules _
  · rfl

theorem Part.feedHead_rules (p : Part) (w : Word) : (p.feedHead w).rules = p.rules := by
  unfold Part.feedHead
  split
  · rfl
  · split
    · rfl
    · exact p.takeBytes_rules _ _
    · simp only
      split
      · exact p.faultJob_rules _ _
      · split
        · exact p.faultJob_rules _ _
        · exact p.takeBytes_rules _ _

theorem Part.textData_rules (p : Part) (w : Word) : (p.textData w).rules = p.rules := by
  unfold Part.textData
  split
  · rfl
  · refine Eq.trans (b := Part.rules (if _ then _ else _)) rfl ?_
    split
    · rfl
    · exact Part.feedHead_rules _ w

theorem Part.textWrite_rules (p : Part) (a : Nat) : (p.textWrite a).rules = p.rules := by
  refine foldl_keeps Part.rules (fun q o => ?_) _ p
  split
  · rfl
  · unfold Part.refetch
    split <;> rfl

theorem Part.txfPump_stations (p : Part) : p.txfPump.stations = p.stations :=
  Part.stations_of_rules p.txfPump_base rfl p.txfPump_rules

theorem Part.textData_stations (p : Part) (w : Word) : (p.textData w).stations = p.stations :=
  Part.stations_of_rules (p.textData_base w) (p.textData_prm w) (p.textData_rules w)

theorem Part.textWrite_stations (p : Part) (a : Nat) : (p.textWrite a).stations = p.stations :=
  Part.stations_of_rules rfl rfl (p.textWrite_rules a)

/-! ### MSG and TRG (R86 to R108) -/

theorem Part.messageNotice_ovr (p before : Part) (m : Nat) : (p.messageNotice before m).ovr = p.ovr := by
  unfold Part.messageNotice
  simp only
  split <;> rfl

theorem Part.dealReference_ovr (p : Part) (m : Nat) (old : Option TextRef) (new : TextRef) :
    (p.dealReference m old new).ovr = p.ovr := by
  unfold Part.dealReference
  simp only
  split <;> rfl

theorem Part.msgRecord_ovr (p : Part) (m : Nat) (words : List Word) : (p.msgRecord m words).ovr = p.ovr := by
  have dealt : ∀ (q : Part) old new, ((q.dealReference m old new).messageNotice p m).ovr = q.ovr := fun q old new =>
    (Part.messageNotice_ovr _ p m).trans (q.dealReference_ovr m old new)
  unfold Part.msgRecord
  split
  · split
    · rfl
    · exact dealt _ _ _
  · split
    · rfl
    · exact dealt _ _ _
  · unfold Part.msgCancel
    split <;> rfl
  · unfold Part.msgClear
    split
    · rfl
    · exact Eq.trans (b := Part.ovr (if _ then _ else _)) rfl (by split <;> rfl)
  · rfl

theorem Part.msgExpire_ovr (p : Part) (m : Nat) : (p.msgExpire m).ovr = p.ovr := by
  unfold Part.msgExpire
  split <;> rfl

theorem Part.levelActivate_ovr (p : Part) (x : Trigger) (m : Nat) (last new : Bool) :
    (p.levelActivate x m last new).ovr = p.ovr := by
  unfold Part.levelActivate
  simp only
  split
  · rfl
  · rfl
  · exact Part.messageNotice_ovr _ p m
  · split
    · rfl
    · exact Part.messageNotice_ovr _ p m
  all_goals rfl

theorem Part.triggerCancel_ovr (p : Part) (m : Nat) : (p.triggerCancel m).ovr = p.ovr := by
  unfold Part.triggerCancel
  split <;> rfl

theorem Part.triggerAct_edge_ovr (p : Part) (t : Nat) (x : Trigger) (new : Bool) :
    (Part.triggerAct.edge p t x new).ovr = p.ovr := by
  unfold Part.triggerAct.edge
  split
  · unfold Part.edgeActivate
    simp only
    split
    · rfl
    · split
      · rfl
      · exact Part.messageNotice_ovr _ p _
  · exact p.triggerCancel_ovr _
  · rfl

theorem Part.triggerAct_ovr (p : Part) (t : Nat) (x : Trigger) (last new : Bool) :
    (p.triggerAct t x last new).ovr = p.ovr := by
  have edge : ∀ b : Bool, (if b then Part.triggerAct.edge p t x new else p).ovr = p.ovr := fun b => by
    split
    · exact p.triggerAct_edge_ovr t x new
    · rfl
  unfold Part.triggerAct
  split
  · split
    · exact p.levelActivate_ovr x _ last new
    · split
      · exact p.triggerCancel_ovr _
      · rfl
    · rfl
  all_goals exact edge _

theorem Part.evaluateTrigger_ovr (p : Part) (c : Nat) (words : List Word) (t : Nat) :
    (p.evaluateTrigger c words t).ovr = p.ovr := by
  have recorded : ∀ (q : Part) (new : Bool), (q.recordCondition t new).ovr = q.ovr := fun q new => by
    unfold Part.recordCondition
    split <;> rfl
  unfold Part.evaluateTrigger
  split
  · rfl
  · split
    · rfl
    · simp only
      split
      · exact recorded p _
      · exact (recorded _ _).trans (p.triggerAct_ovr ..)

theorem Part.trgHandOn_ovr (p : Part) (c : Nat) (words : List Word) : (p.trgHandOn c words).ovr = p.ovr :=
  foldl_keeps Part.ovr (fun q t => q.evaluateTrigger_ovr c words t) _ p

theorem Part.rules_of_ovr {p q : Part} (h : q.ovr = p.ovr) : q.rules = p.rules := by
  rw [Part.rules, h, Part.rules]

theorem Part.msgRecord_stations (p : Part) (m : Nat) (words : List Word) : (p.msgRecord m words).stations = p.stations :=
  Part.stations_of_rules (p.msgRecord_base m words) (p.msgRecord_prm m words) (Part.rules_of_ovr (p.msgRecord_ovr m words))

theorem Part.msgExpire_stations (p : Part) (m : Nat) : (p.msgExpire m).stations = p.stations :=
  Part.stations_of_rules (p.msgExpire_base m) (p.msgExpire_prm m) (Part.rules_of_ovr (p.msgExpire_ovr m))

theorem Part.trgHandOn_stations (p : Part) (c : Nat) (words : List Word) : (p.trgHandOn c words).stations = p.stations :=
  Part.stations_of_rules (p.trgHandOn_base c words) (p.trgHandOn_prm c words) (Part.rules_of_ovr (p.trgHandOn_ovr c words))

theorem Part.sampleLines_stations (p : Part) : p.sampleLines.stations = p.stations := by
  unfold Part.sampleLines
  refine Part.stations_ite ?_ rfl
  refine congrArg (fun l => ({ p.stations with rules := l } : Stations)) (List.ext_getElem (by simp [Part.rules]) fun k hk hk' => ?_)
  simp only [Part.rules, List.length_map, List.length_range] at hk hk'
  simp only [Part.rules, List.getElem_map, List.getElem_range, Channel.rule, Part.channel]
  simp [List.getD_eq_getElem?_getD, List.getElem?_eq_getElem hk']

end Sys2Proof.Machine
end

section
/-! SUPPORT. Laws of the stations are step invariants once PRM's own operations, the channels' activations and latch clears, and the
acceptances keep them. -/

namespace Sys2Proof.Machine

theorem Part.noticeChanges_stations (p : Part) (c : Nat) (before : Car) : (p.noticeChanges c before).stations = p.stations :=
  Part.stations_of_prm (p.noticeChanges_base c before) (p.noticeChanges_text c before) (p.noticeChanges_prm c before)

theorem Part.noticeStatus_stations (p : Part) (c : Nat) (before : Car) : (p.noticeStatus c before).stations = p.stations :=
  Part.stations_of_prm (p.noticeStatus_base c before) (p.noticeStatus_text c before) (p.noticeStatus_prm c before)

/-- What has to be shown of a law that reads the stations alone for every step to keep it. -/
structure StationLaw (I : Part → Prop) : Prop where
  same : ∀ {p q : Part}, I p → q.stations = p.stations → I q
  reset : ∀ anchor lines, I (Part.reset anchor lines)
  formed : ∀ (p : Part) t, I (p.replaced t)
  removed : ∀ (p : Part) gone, I p → I (p.removeEntries gone)
  recorded : ∀ (p : Part) slot words, I p → I (p.prmRecord slot words)
  shown : ∀ (p : Part) j, I p → I (p.showDeadline j)
  activated : ∀ (p : Part) k, I p → I (p.activateChannel k)
  cleared : ∀ (p : Part) k, I p → I (p.clearLatch k)

section
variable {I : Part → Prop} (hI : StationLaw I)
include hI

/-! ### Removals (R72, R75, R78) -/

theorem StationLaw.retired {p : Part} (h : I p) (gone : Assignment → Bool) (w : Nat → Word × Word) :
    I (p.retireEntries gone w) := by
  unfold Part.retireEntries
  simp only
  split
  · exact h
  · exact hI.same (hI.removed p gone h) rfl

theorem StationLaw.lifetime {p : Part} (h : I p) : I p.lifetime := by
  unfold Part.lifetime
  simp only
  split
  · exact h
  · exact hI.same (hI.removed p _ h) rfl

/-! ### Channels (R127 to R133) -/

theorem StationLaw.sourceChange {p : Part} (h : I p) (k : Nat) : I (p.sourceChange k) := by
  unfold Part.sourceChange
  refine hI.same (p := if _ then _ else _) ?_ rfl
  split
  · exact hI.activated p k h
  · exact h

/-- A channel replaced by one of the same rule. -/
theorem StationLaw.setChannel {p : Part} (h : I p) (k : Nat) {c : Channel} (hc : c.rule = (p.channel k).rule) :
    I (p.setChannel k c) := hI.same h (Part.stations_of_rules rfl rfl (p.setChannel_rules k hc))

theorem StationLaw.testLine {p : Part} (h : I p) (k : Nat) : I (p.testLine k) := by
  unfold Part.testLine
  simp only
  split
  · exact h
  · split
    · exact hI.setChannel h k (by rfl)
    · exact hI.sourceChange (hI.setChannel h k (by rfl)) k

theorem StationLaw.ovrRecord {p : Part} (h : I p) (words : List Word) : I (p.ovrRecord words) := by
  have requested : ∀ q k, I q → I (Part.memoryRequest q words k) := by
    intro q k hq
    unfold Part.memoryRequest
    refine iteInduction (fun _ => hq) fun _ => ?_
    exact hI.sourceChange (hI.setChannel hq k (by rfl)) k
  unfold Part.ovrRecord
  split
  · exact hI.same h rfl
  · exact StepInvariant.foldl requested _ h

theorem StationLaw.applyLines {p : Part} (h : I p) : I p.applyLines :=
  StepInvariant.foldl (I := I) (fun _ k hq => iteInduction (fun _ => hI.sourceChange hq k) fun _ => hq) _ h

/-! ### The tracker (R19, R30 to R38) -/

theorem StationLaw.endVisit {p : Part} (h : I p) (c d : Nat) : I (p.endVisit c d) := by
  unfold Part.endVisit
  split
  · exact h
  · refine hI.same (p := if _ then _ else _) ?_ rfl
    split
    · exact hI.removed _ _ (hI.same h (p.arrDeparture_stations c d _))
    · exact h

theorem StationLaw.updateVisit {p : Part} (h : I p) (c d : Nat) : I (p.updateVisit c d) := by
  have begun : ∀ f, I (p.beginVisit c d f) := fun f =>
    iteInduction (fun _ => h) fun _ => hI.same (hI.endVisit h c d) rfl
  have opened : ∀ {q : Part} f, I q → I (q.openVisit c d f) := fun {q} f hq =>
    iteInduction (fun _ => hI.same
      (hI.same (hI.same hq (q.arrArrival_stations c d f)) (Part.prmArrival_stations _ c d f)) rfl) fun _ => hq
  unfold Part.updateVisit
  split
  · exact opened _ (begun _)
  · exact h
  · exact hI.endVisit h c d
  · exact hI.endVisit h c d
  all_goals exact h

theorem StationLaw.noticeWithdrawal {p : Part} (h : I p) (c : Nat) (before : Car) : I (p.noticeWithdrawal c before) := by
  unfold Part.noticeWithdrawal
  simp only
  split
  · exact hI.same (hI.retired (p := p.prmMark c true) (hI.same h rfl) _ _) (Part.arrWithdraw_stations _ c)
  · exact iteInduction (fun _ => hI.same h rfl) fun _ => h

theorem StationLaw.evaluateCar {p : Part} (h : I p) (c : Nat) (cfg : CarConfig) (words : List Word) :
    I (p.evaluateCar c cfg words) := by
  have counted : I (p.countInterpretation words) := hI.same h
    (Part.stations_of_prm (p.countInterpretation_base words) (p.countInterpretation_text words) (p.countInterpretation_prm words))
  have received : I (p.received c words) := by
    unfold Part.received
    split
    · exact hI.same counted (Part.onRpt_stations _ _)
    · exact counted
  have handed : ∀ q : Part, I q →
      I ((((q.trgHandOn c (words.take 15)).arrEvaluation c).noticeChanges c (p.car c)).noticeStatus c (p.car c)) := fun q hq =>
    hI.same hq (((Part.noticeStatus_stations _ c _).trans (Part.noticeChanges_stations _ c _)).trans
      ((Part.arrEvaluation_stations _ c).trans (q.trgHandOn_stations c _)))
  have tracked : I ((p.received c words).setCar c (trackCar p cfg c words)) := hI.same received rfl
  have visited := StepInvariant.foldl (I := I) (f := fun q d => q.updateVisit c d) (fun _ d hq => hI.updateVisit hq c d)
    (List.range cfg.decks) tracked
  exact handed _ (hI.noticeWithdrawal visited c (p.car c))

theorem StationLaw.staleExpiry {p : Part} (h : I p) (c : Nat) : I (p.staleExpiry c) := by
  have shown : ∀ (l : List Nat) (q : Part), (l.foldl (fun q d => q.cmpDeckChange c d) q).stations = q.stations := fun l q =>
    foldl_keeps Part.stations (f := fun (q : Part) d => q.cmpDeckChange c d) (fun _ _ => rfl) l q
  refine iteInduction (fun _ => ?_) fun _ => h
  exact hI.same h ((Part.noticeStatus_stations _ c _).trans ((Part.arrEvaluation_stations _ c).trans (shown _ _)))

theorem StationLaw.staleNow {p : Part} (h : I p) : I p.staleNow :=
  StepInvariant.foldl (I := I) (fun _ c hq => hI.staleExpiry hq c) _ h

/-! ### Records, events and acceptances -/

theorem StationLaw.handRecord {p : Part} (h : I p) (k slot : Nat) (words : List Word) : I (p.handRecord k slot words) := by
  unfold Part.handRecord
  split
  · unfold Part.trkRecord
    split
    · exact hI.same h rfl
    · exact hI.evaluateCar h slot _ words
  · exact hI.same h (p.msgRecord_stations slot words)
  · exact hI.recorded p slot words h
  · exact hI.ovrRecord h words

theorem StationLaw.event {f : Part → Part} (hf : PartEvent f) {p : Part} (h : I p) : I (f p) := by
  have kept : ∀ {q : Part}, q.base = p.base → q.text = p.text → q.prm = p.prm → I q := fun hbase htext hprm =>
    hI.same h (Part.stations_of_prm hbase htext hprm)
  cases hf with
  | carStale c => exact hI.staleExpiry h c
  | historyEmptied c => exact kept (p.emptyHistory_base c) (p.emptyHistory_text c) (p.emptyHistory_prm c)
  | showDeadline j => exact hI.shown p j h
  | lifetime => exact hI.lifetime h
  | messageExpired m => exact hI.same h (p.msgExpire_stations m)
  | dwellDeadline j r => exact hI.same h rfl
  | lineAccepted k => exact hI.testLine h k
  | lineSampling levels => exact hI.same (p := { p with lines := levels }) (hI.same h rfl) (Part.sampleLines_stations _)
  | sendFrame r => exact kept (p.sendFrame_base r) (p.sendFrame_text r) (p.sendFrame_prm r)
  | frameReturn r port bytes =>
    exact kept (p.frameReturn_base r port bytes) (p.frameReturn_text r port bytes) (p.frameReturn_prm r port bytes)
  | returnTimeout r tag => exact kept (p.returnTimeout_base r tag) (p.returnTimeout_text r tag) (p.returnTimeout_prm r tag)
  | trailingTimeout r tag =>
    exact kept (p.trailingTimeout_base r tag) (p.trailingTimeout_text r tag) (p.trailingTimeout_prm r tag)
  | busyBackoff r position region =>
    exact kept (p.busyBackoff_base r position region) (p.busyBackoff_text r position region)
      (p.busyBackoff_prm r position region)
  | pollTimer r position => exact kept (p.pollTimer_base r position) (p.pollTimer_text r position) (p.pollTimer_prm r position)
  | joinTimer r position => exact kept (p.joinTimer_base r position) (p.joinTimer_text r position) (p.joinTimer_prm r position)
  | ringCheck r => exact kept (p.ringCheck_base r) (p.ringCheck_text r) (p.ringCheck_prm r)
  | traceEnd r => exact kept (p.traceEnd_base r) (p.traceEnd_text r) (p.traceEnd_prm r)

/-- A law of the stations is a step invariant. -/
theorem StationLaw.stepInvariant : StepInvariant I where
  reset := hI.reset
  hostData _ _ h := hI.same h rfl
  tick p h := hI.same h (by simp only [Part.stations, Part.rules, Part.roster, Part.tick_nodes, Part.tick_ovr, Part.tick_prm])
  onPath _ _ h := hI.same h rfl
  onRpt _ _ h := hI.same h rfl
  txfPump p h := hI.same h p.txfPump_stations
  textWrite p a h := hI.same h (p.textWrite_stations a)
  textData p w h := hI.same h (p.textData_stations w)
  statistics _ h := hI.same h rfl
  repaint _ h := hI.same h rfl
  clearLatch p k h := hI.cleared p k h
  handRecord _ k slot words h := hI.handRecord h k slot words
  acceptFull p t _ := hI.applyLines (hI.same (hI.same (hI.formed p t) rfl) (Part.txfPump_stations _))
  acceptParams p t h := hI.lifetime (hI.staleNow (p := p.paramsDone t) (hI.same h rfl))
  event _ hf h := hI.event hf h

end

end Sys2Proof.Machine
end

section
/-! SUPPORT and PROOFS. The law of scopes (R62, R63, R79): no live assignment at a terminal under a channel that is on. -/

namespace Sys2Proof.Machine

/-! ### Free terminals -/

/-- Node `j` is a TERMINAL that no channel governs (R63). -/
def Part.freeTerminal (p : Part) (j : Nat) : Bool := (p.terminalNode j).any fun n => p.governing n = none

/-- The terminals of the live assignments. -/
def Part.manned (p : Part) : List Nat := p.prm.table.map (·.terminal)

theorem Part.scopeLaw_iff (p : Part) : p.scopeLaw ↔ ∀ j ∈ p.manned, p.freeTerminal j = true := by
  simp only [Part.scopeLaw, Part.manned, List.forall_mem_map]
  rfl

theorem Part.terminalNode_eq_some {p : Part} {j : Nat} {n : NodeConfig} :
    p.terminalNode j = some n ↔ p.node j = some n ∧ n.type = .terminal := by
  unfold Part.terminalNode
  cases hn : p.node j with
  | none => simp
  | some m =>
    by_cases hm : m.type = .terminal
    · simp only [hm, if_true, Option.some.injEq]
      constructor
      · rintro rfl
        exact ⟨rfl, hm⟩
      · exact And.left
    · simp only [hm, if_false, Option.some.injEq]
      constructor
      · nofun
      · rintro ⟨rfl, h⟩
        exact absurd h hm

/-- The channels that are on leave the terminal out of their scope (R134). -/
theorem Part.freeTerminal_iff {p : Part} {j : Nat} : p.freeTerminal j = true ↔ ∃ n, p.node j = some n ∧ n.type = .terminal
    ∧ ∀ k < Config.channels, p.channelOn k = true → p.inScope k n = false := by
  simp only [Part.freeTerminal, Option.any_eq_true, Part.terminalNode_eq_some, decide_eq_true_eq, Part.governing,
    List.find?_eq_none, List.mem_range, Bool.and_eq_true, not_and, Bool.not_eq_true, and_assoc]

theorem Part.channelOn_eq (p : Part) (k : Nat) : p.channelOn k = (p.channel k).latch := by
  rw [Bool.eq_iff_iff, Part.channelOn, decide_eq_true_eq, Channel.state_ne_off]

/-- The scope of a channel over a terminal is a matter of its configuration. -/
theorem Part.inScope_congr {p q : Part} {k : Nat} {n : NodeConfig} (hn : n.type = .terminal)
    (h : (q.channel k).config = (p.channel k).config) : q.inScope k n = p.inScope k n := by
  unfold Part.inScope Part.nodeFloor
  rw [h, hn]

/-- `q` has `p`'s nodes, every channel that is on in `q` is on in `p` with its configuration, and no terminal is manned anew. -/
structure Part.Eases (p q : Part) : Prop where
  nodes : q.nodes = p.nodes
  config : ∀ k, (q.channel k).config = (p.channel k).config
  latch : ∀ k, (q.channel k).latch = true → (p.channel k).latch = true
  manned : ∀ j ∈ q.manned, j ∈ p.manned

theorem Part.Eases.of_rules {p q : Part} (hnodes : q.nodes = p.nodes) (hrules : q.rules = p.rules)
    (hmanned : ∀ j ∈ q.manned, j ∈ p.manned) : p.Eases q where
  nodes := hnodes
  config k := (channel_rule hrules k).1
  latch k h := (channel_rule hrules k).2 ▸ h
  manned := hmanned

/-- A free terminal stays free. -/
theorem Part.Eases.free {p q : Part} (h : p.Eases q) {j : Nat} (hj : p.freeTerminal j = true) : q.freeTerminal j = true := by
  obtain ⟨n, hn, htype, hclear⟩ := Part.freeTerminal_iff.mp hj
  refine Part.freeTerminal_iff.mpr ⟨n, (Part.node_of_nodes h.nodes j).trans hn, htype, fun k hk hon => ?_⟩
  rw [Part.inScope_congr htype (h.config k)]
  exact hclear k hk (by rw [Part.channelOn_eq] at hon ⊢; exact h.latch k hon)

theorem Part.Eases.law {p q : Part} (h : p.Eases q) (hp : p.scopeLaw) : q.scopeLaw := by
  rw [Part.scopeLaw_iff] at hp ⊢
  exact fun j hj => h.free (hp j (h.manned j hj))

/-! ### PRM (R61 to R79) -/

theorem Part.manned_eq_roster (p : Part) : p.manned = p.roster.places.map (·.terminal) := by
  simp only [Part.manned, Part.roster, List.map_map]
  rfl

theorem Part.manned_eq_ledger (p : Part) : p.manned = p.ledger.entries.map (·.terminal) := by
  simp only [Part.manned, Part.ledger, List.map_map]
  rfl

/-- An operation on PRM's table, by the entries it leaves. -/
theorem Part.Eases.of_entries {p q : Part} (hbase : q.base = p.base) (htext : q.text = p.text)
    (h : ∀ a ∈ q.ledger.entries, a.terminal ∈ p.manned) : p.Eases q := by
  refine .of_rules (nodes_of_base hbase) (Part.rules_of_ovr (congrArg (fun t => t.2.2.2) htext)) fun j hj => ?_
  rw [Part.manned_eq_ledger] at hj
  obtain ⟨a, ha, rfl⟩ := List.mem_map.mp hj
  exact h a ha

theorem Part.Eases.of_ledger {p q : Part} (hbase : q.base = p.base) (htext : q.text = p.text)
    (h : q.ledger.entries = p.ledger.entries) : p.Eases q :=
  .of_entries hbase htext fun a ha => by
    rw [h] at ha
    rw [Part.manned_eq_ledger]
    exact List.mem_map_of_mem ha

theorem Part.removeEntries_eases (p : Part) (gone : Assignment → Bool) : p.Eases (p.removeEntries gone) := by
  refine .of_entries (p.removeEntries_base gone) (p.removeEntries_text gone) fun a ha => ?_
  rw [Part.removeEntries_ledger] at ha
  obtain ⟨b, hb, rfl⟩ := List.mem_map.mp ha
  show b.terminal ∈ p.manned
  exact List.mem_map_of_mem (List.mem_of_mem_filter hb)

/-- RPT has no part in it. -/
theorem Part.Eases.onRpt {p q : Part} (h : p.Eases q) (f : Rpt → Rpt) : p.Eases (q.onRpt f) :=
  ⟨h.nodes, h.config, h.latch, h.manned⟩

theorem Part.displace_eases (p : Part) (a : Assignment) : p.Eases (p.displace a) := by
  have hremoved := (p.removeEntries_eases fun x => x.number = a.number).onRpt (·.count .displaced 1)
  exact hremoved.onRpt (·.hand p.now (repRetiredDisplaced a.number))

theorem Part.reassign_eases (p : Part) (a : Assignment) (car deck : Nat) : p.Eases (p.reassign a car deck) := by
  refine .of_entries (p.reassign_base a car deck) (p.reassign_text a car deck) fun b hb => ?_
  rw [Part.reassign_ledger] at hb
  obtain ⟨x, hx, rfl⟩ := List.mem_map.mp hb
  obtain ⟨y, hy, rfl⟩ := List.mem_map.mp hx
  have hterminal : (if y.number = a.number then
      { y with car := car, deck := deck, isBoarding := p.standsOpenAt car deck a.boarding } else y).terminal = y.terminal := by
    split <;> rfl
  exact List.mem_map.mpr ⟨y, hy, hterminal.symm⟩

/-- A NEW is created at a free terminal alone (R62, R63). -/
theorem Part.createEntry_scopeLaw {p : Part} (h : p.scopeLaw) {terminal : Nat} (hfree : p.freeTerminal terminal = true)
    (order number boarding destination car deck : Nat) (stepFree : Bool) :
    (p.createEntry order number terminal boarding destination car deck stepFree).scopeLaw := by
  have heases : (p.withEntry (p.newEntry order number terminal boarding destination car deck stepFree)).Eases
      (p.createEntry order number terminal boarding destination car deck stepFree) :=
    .of_ledger (Part.createEntry_base ..) (Part.createEntry_text ..) (congrArg Ledger.entries (Part.createEntry_ledger ..))
  refine heases.law ((Part.scopeLaw_iff _).mpr fun j hj => ?_)
  simp only [Part.manned, Part.withEntry, List.map_append, List.map_cons, List.map_nil, List.mem_append,
    List.mem_singleton] at hj
  obtain hj | rfl := hj
  · exact (Part.scopeLaw_iff p).mp h j hj
  · exact hfree

theorem Part.examineNew_scopeLaw {p : Part} (h : p.scopeLaw) (order : Nat) (words : List Word) :
    (p.examineNew order words).scopeLaw := by
  simp only [Part.examineNew]
  split
  · exact h
  · next n hn =>
    split
    · unfold Part.dropNew
      simp only
      split <;> exact h
    · next hclear =>
      have hfree : p.freeTerminal (assignTerminal words) = true := by
        rw [Part.freeTerminal, hn]
        simpa using hclear
      split
      · exact h
      · split
        · exact h
        · split
          · split
            · exact h
            · next a _ =>
              have heases := p.displace_eases a
              exact Part.createEntry_scopeLaw (heases.law h) (heases.free hfree) _ _ _ _ _ _ _
          · exact Part.createEntry_scopeLaw h hfree _ _ _ _ _ _ _

theorem Part.prmRecord_scopeLaw {p : Part} (h : p.scopeLaw) (slot : Nat) (words : List Word) :
    (p.prmRecord slot words).scopeLaw := by
  unfold Part.prmRecord
  split
  · exact Part.examineNew_scopeLaw (p := p.takeNew) h _ words
  · unfold Part.prmCancel
    split
    · exact h
    · exact (p.removeEntries_eases _).law h
  · simp only [Part.prmReassign]
    split
    · exact h
    · split
      · exact h
      · split
        · exact h
        · exact (p.reassign_eases _ _ _).law h
  · exact h

theorem Part.showDeadline_eases (p : Part) (t : Nat) : p.Eases (p.showDeadline t) := by
  refine .of_ledger (p.showDeadline_base t) (p.showDeadline_text t) ?_
  unfold Part.showDeadline
  split
  · exact congrArg Ledger.entries
      (Part.onlyPrm_ledger ((Part.becomeHead_ledger _ t).trans (p.endShowing_ledger t)) rfl rfl)
  · rfl

/-! ### OVR (R131 to R133, R79) -/

theorem Part.inFlush_of_node {p : Part} {k : Nat} {a : Assignment} {n : NodeConfig} (hn : p.node a.terminal = some n) :
    p.inFlush k a = p.inScope k n := by
  simp only [Part.inFlush, hn]

/-- No entry that a retirement names stays (R75, R79). -/
theorem Part.retireEntries_manned {p : Part} {gone : Assignment → Bool} {w : Nat → Word × Word} {j : Nat}
    (hj : j ∈ (p.retireEntries gone w).manned) : ∃ a ∈ p.prm.table, a.terminal = j ∧ gone a = false := by
  unfold Part.retireEntries at hj
  simp only at hj
  split at hj
  · next hnone =>
    obtain ⟨a, ha, rfl⟩ := List.mem_map.mp hj
    exact ⟨a, ha, rfl, by simpa using List.countP_eq_zero.mp hnone a ha⟩
  · have hentries : j ∈ (p.removeEntries gone).manned := hj
    rw [Part.manned_eq_ledger, Part.removeEntries_ledger, List.map_map] at hentries
    obtain ⟨a, ha, rfl⟩ := List.mem_map.mp hentries
    obtain ⟨hin, hkept⟩ := List.mem_filter.mp ha
    exact ⟨a, hin, rfl, by simpa using hkept⟩

theorem Part.retireEntries_eases (p : Part) (gone : Assignment → Bool) (w : Nat → Word × Word) :
    p.Eases (p.retireEntries gone w) :=
  .of_rules (nodes_of_base (p.retireEntries_base gone w))
    (Part.rules_of_ovr (congrArg (fun t => t.2.2.2) (p.retireEntries_text gone w))) fun j hj => by
    obtain ⟨a, ha, rfl, -⟩ := Part.retireEntries_manned hj
    exact List.mem_map_of_mem ha

/-- The flush of a channel that alone may be on anew (R79). -/
theorem Part.prmFlush_scopeLaw {p q : Part} (h : p.scopeLaw) {k : Nat} (hnodes : q.nodes = p.nodes)
    (htable : q.prm.table = p.prm.table) (hconfig : ∀ k', (q.channel k').config = (p.channel k').config)
    (hothers : ∀ k', k' ≠ k → (q.channel k').latch = true → (p.channel k').latch = true) : (q.prmFlush k).scopeLaw := by
  rw [Part.scopeLaw_iff] at h ⊢
  intro j hj
  obtain ⟨a, ha, rfl, hkept⟩ := Part.retireEntries_manned hj
  have ha : a ∈ q.prm.table := ha
  have hkept : q.inFlush k a = false := hkept
  obtain ⟨n, hn, htype, hclear⟩ := Part.freeTerminal_iff.mp (h a.terminal (List.mem_map_of_mem (htable ▸ ha)))
  have hn : q.node a.terminal = some n := (Part.node_of_nodes hnodes _).trans hn
  have hfree : q.freeTerminal a.terminal = true := by
    refine Part.freeTerminal_iff.mpr ⟨n, hn, htype, fun k' hk' hon => ?_⟩
    by_cases hk : k' = k
    · subst hk
      rwa [Part.inFlush_of_node hn] at hkept
    · rw [Part.inScope_congr htype (hconfig k')]
      rw [Part.channelOn_eq] at hon
      exact hclear k' hk' (by rw [Part.channelOn_eq]; exact hothers k' hk hon)
  exact (Part.retireEntries_eases _ _ _).free hfree

theorem Part.setChannel_latch (p : Part) (k : Nat) (b : Bool) (k' : Nat) :
    ((p.setChannel k { p.channel k with latch := b }).channel k').config = (p.channel k').config
      ∧ (((p.setChannel k { p.channel k with latch := b }).channel k').latch = (p.channel k').latch
        ∨ k' = k ∧ ((p.setChannel k { p.channel k with latch := b }).channel k').latch = b) := by
  by_cases hk : k' = k
  · subst hk
    obtain hsame | hsame := p.setChannel_channel k' { p.channel k' with latch := b }
    · rw [hsame]
      exact ⟨rfl, .inr ⟨rfl, rfl⟩⟩
    · rw [hsame]
      exact ⟨rfl, .inl rfl⟩
  · rw [p.setChannel_channel_other _ hk]
    exact ⟨rfl, .inl rfl⟩

/-- An activation flushes the terminals in its scope (R79, R133). -/
theorem Part.activateChannel_scopeLaw {p : Part} (h : p.scopeLaw) (k : Nat) : (p.activateChannel k).scopeLaw := by
  have hset := p.setChannel_latch k true
  have hflushed := Part.prmFlush_scopeLaw (q := p.setChannel k { p.channel k with latch := true }) h rfl rfl
    (fun k' => (hset k').1) fun k' hk hon => (hset k').2.elim (fun heq => heq ▸ hon) fun hsame => absurd hsame.1 hk
  have handed : ∀ (q : Part) w, q.Eases (q.cmpChannelChange.report w) := fun _ _ => ⟨rfl, fun _ => rfl, fun _ => id, fun _ => id⟩
  exact (handed _ _).law hflushed

theorem Part.clearLatch_eases (p : Part) (k : Nat) : p.Eases (p.clearLatch k) := by
  have hset := p.setChannel_latch k false
  have hoff : p.Eases (p.setChannel k { p.channel k with latch := false }) :=
    ⟨rfl, fun k' => (hset k').1, fun k' hon => (hset k').2.elim (fun heq => heq ▸ hon) fun hsame =>
      Bool.noConfusion (hsame.2.symm.trans hon), fun _ => id⟩
  unfold Part.clearLatch
  split
  · exact ⟨hoff.nodes, hoff.config, hoff.latch, hoff.manned⟩
  · exact .of_rules rfl rfl fun _ => id

/-! ### The step lemma -/

theorem Part.scopeLaw_of_empty {p : Part} (h : p.prm.table = []) : p.scopeLaw := by
  unfold Part.scopeLaw
  rw [h]
  exact nofun

theorem scopeLaw_stationLaw : StationLaw Part.scopeLaw where
  same {p q} h hsame := by
    refine Part.Eases.law (.of_rules (congrArg Stations.nodes hsame) (congrArg Stations.rules hsame) fun j hj => ?_) h
    have hroster : q.roster = p.roster := congrArg Stations.roster hsame
    rwa [Part.manned_eq_roster, hroster, ← Part.manned_eq_roster] at hj
  reset _ _ := Part.scopeLaw_of_empty rfl
  formed _ _ := Part.scopeLaw_of_empty rfl
  removed p gone h := (p.removeEntries_eases gone).law h
  recorded _ slot words h := Part.prmRecord_scopeLaw h slot words
  shown p j h := (p.showDeadline_eases j).law h
  activated _ k h := Part.activateChannel_scopeLaw h k
  cleared p k h := (p.clearLatch_eases k).law h

/-- Settles O11: a NEW under a channel that is on is dropped, an activation flushes the terminals in its scope, and no other
operation turns a channel on or brings a terminal into the table. -/
theorem stepKeepsScope : Obligations.StepKeepsScope := fun _ _ h hstep => scopeLaw_stationLaw.stepInvariant.step hstep h

end Sys2Proof.Machine
end

section
/-! SUPPORT. What each of PRM's small operations makes of the terminal queues and of the entries they refer to (R66 to R72). -/

namespace Sys2Proof.Machine

/-! ### Terminals with a queue -/

/-- The terminals that have a queue. -/
def Part.homes (p : Part) : List Nat := p.prm.queues.map (·.terminal)

theorem Part.homes_of_queues {p q : Part} (h : q.prm.queues = p.prm.queues) : q.homes = p.homes := by
  rw [Part.homes, h, Part.homes]

theorem Part.setQueue_homes (p : Part) (t : Nat) (l : List Nat) : (p.setQueue t l).homes = p.homes := by
  simp only [Part.homes, Part.setQueue, List.map_map]
  refine List.map_congr_left fun q _ => ?_
  simp only [Function.comp_apply]
  split <;> rfl

theorem Part.struck_homes (p : Part) (gone : Assignment → Bool) : (p.struck gone).homes = p.homes := by
  simp only [Part.homes, Part.struck, List.map_map]
  rfl

/-- A terminal without a queue holds no reference. -/
theorem Part.queueOf_of_not_home {p : Part} {t : Nat} (h : t ∉ p.homes) : p.queueOf t = [] := by
  have hfind : p.prm.queues.find? (·.terminal = t) = none :=
    List.find?_eq_none.mpr fun q hq ht => h (List.mem_map.mpr ⟨q, hq, by simpa using ht⟩)
  rw [Part.queueOf, hfind]
  rfl

theorem Part.setQueue_queueOf_home {p : Part} {t : Nat} (h : t ∈ p.homes) (l : List Nat) : (p.setQueue t l).queueOf t = l := by
  have hterminal : ∀ q : PromptQueue, (if q.terminal = t then { q with refs := l } else q).terminal = q.terminal := fun q => by
    split <;> rfl
  obtain ⟨x, hx, hxt⟩ := List.mem_map.mp h
  obtain ⟨y, hy⟩ := Option.isSome_iff_exists.mp
    (List.find?_isSome.mpr ⟨x, hx, decide_eq_true hxt⟩ : (p.prm.queues.find? (·.terminal = t)).isSome = true)
  have hyt : y.terminal = t := by simpa using List.find?_some hy
  simp only [Part.queueOf, Part.setQueue, List.find?_map, Function.comp_def, hterminal, hy]
  simp [hyt]

/-- Each queue is that of its terminal. -/
theorem Part.queueOf_of_mem {p : Part} (h : p.homes.Nodup) {q : PromptQueue} (hq : q ∈ p.prm.queues) :
    p.queueOf q.terminal = q.refs := by
  obtain ⟨y, hy⟩ := Option.isSome_iff_exists.mp
    (List.find?_isSome.mpr ⟨q, hq, by simp⟩ : (p.prm.queues.find? (·.terminal = q.terminal)).isSome = true)
  have hsame : y = q := List.inj_on_of_nodup_map h (List.mem_of_find?_eq_some hy) hq (by simpa using List.find?_some hy)
  rw [Part.queueOf, hy, hsame]
  rfl

/-! ### Entries by their places -/

theorem Part.assignment_place (p : Part) (n : Nat) :
    (p.assignment n).map (·.place) = p.roster.places.find? (·.number = n) := by
  simp only [Part.assignment, Part.roster, List.find?_map]
  rfl

theorem Part.queueOf_of_roster {p q : Part} (h : q.roster = p.roster) (t : Nat) : q.queueOf t = p.queueOf t := by
  have hqueues : q.prm.queues = p.prm.queues := congrArg Roster.queues h
  rw [Part.queueOf, hqueues, Part.queueOf]

theorem Part.homes_of_roster {p q : Part} (h : q.roster = p.roster) : q.homes = p.homes :=
  Part.homes_of_queues (congrArg Roster.queues h)

/-- The same roster, and an entry of the same place. -/
theorem Part.entry_of_roster {p q : Part} (h : q.roster = p.roster) {n : Nat} {a : Assignment} (ha : q.assignment n = some a) :
    ∃ b, p.assignment n = some b ∧ a.place = b.place := by
  have hplace := q.assignment_place n
  rw [h, ← Part.assignment_place, ha, Option.map_some] at hplace
  obtain ⟨b, hb, hsame⟩ := Option.map_eq_some_iff.mp hplace.symm
  exact ⟨b, hb, hsame.symm⟩

theorem Part.isShowing_iff {p : Part} {n : Nat} :
    p.isShowing n = true ↔ ∃ a, p.assignment n = some a ∧ a.prompt = .showing := by
  simp only [Part.isShowing, decide_eq_true_eq, Option.map_eq_some_iff]

theorem Part.isShowing_congr {p q : Part} {n : Nat} (h : q.assignment n = p.assignment n) : q.isShowing n = p.isShowing n := by
  rw [Part.isShowing, h, Part.isShowing]

theorem Part.isStepFree_congr {p q : Part} {n : Nat} (h : q.assignment n = p.assignment n) :
    q.isStepFree n = p.isStepFree n := by
  rw [Part.isStepFree, h, Part.isStepFree]

theorem Part.isShowing_of_roster {p q : Part} (h : q.roster = p.roster) (n : Nat) : q.isShowing n = p.isShowing n := by
  have hprompt : ∀ r : Part, (r.assignment n).map (·.prompt) = (r.roster.places.find? (·.number = n)).map (·.prompt) :=
    fun r => by rw [← Part.assignment_place, Option.map_map]; rfl
  rw [Part.isShowing, hprompt, h, ← hprompt, Part.isShowing]

/-- The references behind the head are not SHOWING. -/
theorem Part.Seated.unshown_behind {p : Part} (h : p.Seated) {t n : Nat} {rest : List Nat} (hqueue : p.queueOf t = n :: rest) :
    ∀ m ∈ rest, p.isShowing m = false := by
  intro m hm
  by_contra hshowing
  obtain ⟨a, ha, hs⟩ := Part.isShowing_iff.mp (by simpa using hshowing)
  obtain ⟨b, hb, -, -, hhead⟩ := h.entry (t := t) (n := m) (by rw [hqueue]; exact List.mem_cons_of_mem n hm)
  obtain rfl : a = b := Option.some.inj (ha.symm.trans hb)
  have heq := hhead hs
  rw [hqueue, List.head?_cons, Option.some.injEq] at heq
  exact (List.nodup_cons.mp (hqueue ▸ h.once t)).1 (heq ▸ hm)

/-! ### The ordered place of a reference (R66) -/

/-- A list of waiting references with one more: a step-free one after the step-free ones, any other at the end. -/
def Part.placed (p : Part) (l : List Nat) (n : Nat) (stepFree : Bool) : List Nat :=
  if stepFree then l.takeWhile p.isStepFree ++ n :: l.dropWhile p.isStepFree else l ++ [n]

theorem Part.mem_placed (p : Part) (l : List Nat) (n m : Nat) (stepFree : Bool) :
    m ∈ p.placed l n stepFree ↔ m = n ∨ m ∈ l := by
  unfold Part.placed
  split
  · simp only [List.mem_append, List.mem_cons]
    conv_rhs => rw [← List.takeWhile_append_dropWhile (p := p.isStepFree) (l := l), List.mem_append]
    tauto
  · simp [or_comm]

theorem Part.placed_congr {p q : Part} {l : List Nat} (h : ∀ m ∈ l, q.assignment m = p.assignment m) (n : Nat)
    (stepFree : Bool) : q.placed l n stepFree = p.placed l n stepFree := by
  have hfree : l.takeWhile q.isStepFree = l.takeWhile p.isStepFree ∧ l.dropWhile q.isStepFree = l.dropWhile p.isStepFree := by
    induction l with
    | nil => exact ⟨rfl, rfl⟩
    | cons m l ih =>
      obtain ⟨htake, hdrop⟩ := ih fun x hx => h x (List.mem_cons_of_mem m hx)
      have hm := Part.isStepFree_congr (h m (List.mem_cons_self ..))
      simp only [List.takeWhile_cons, List.dropWhile_cons, hm, htake, hdrop, and_self]
  unfold Part.placed
  rw [hfree.1, hfree.2]

theorem Part.joined_of_unshown {p : Part} {l : List Nat} (h : ∀ m ∈ l, p.isShowing m = false) (n : Nat) (stepFree : Bool) :
    p.joined l n stepFree = p.placed l n stepFree := by
  have hahead : l.takeWhile (fun m => p.isShowing m || p.isStepFree m) = l.takeWhile p.isStepFree
      ∧ l.dropWhile (fun m => p.isShowing m || p.isStepFree m) = l.dropWhile p.isStepFree := by
    induction l with
    | nil => exact ⟨rfl, rfl⟩
    | cons m l ih =>
      obtain ⟨htake, hdrop⟩ := ih fun x hx => h x (List.mem_cons_of_mem m hx)
      simp only [List.takeWhile_cons, List.dropWhile_cons, h m (List.mem_cons_self ..), Bool.false_or, htake, hdrop, and_self]
  unfold Part.joined Part.placed
  simp only [hahead]

theorem Part.joined_of_showing {p : Part} {m : Nat} (h : p.isShowing m = true) (l : List Nat) (n : Nat) (stepFree : Bool) :
    p.joined (m :: l) n stepFree = m :: p.joined l n stepFree := by
  unfold Part.joined
  split
  · simp [h]
  · rfl

theorem Part.joined_length (p : Part) (l : List Nat) (n : Nat) (stepFree : Bool) :
    (p.joined l n stepFree).length = l.length + 1 := by
  unfold Part.joined
  split
  · have hlength := congrArg List.length
      (List.takeWhile_append_dropWhile (p := fun m => p.isShowing m || p.isStepFree m) (l := l))
    simp only [List.length_append, List.length_cons] at hlength ⊢
    omega
  · simp

/-! ### A new head (R69) -/

theorem Part.becomeHead_eq {p : Part} {t n : Nat} {rest : List Nat} {a : Assignment} (hqueue : p.queueOf t = n :: rest)
    (ha : p.assignment n = some a) (hqueued : a.prompt = .queued) :
    p.becomeHead t
      = (p.setAssignment n (·.heading (p.after (showInterval p.params (rest.length + 1) a.stepFree)))).cmpHeadChange t := by
  unfold Part.becomeHead
  simp only [hqueue, ha, hqueued]
  rfl

theorem Part.becomeHead_queues (p : Part) (t : Nat) : (p.becomeHead t).prm.queues = p.prm.queues := by
  unfold Part.becomeHead
  split
  · rfl
  · split
    · rfl
    · simp only
      split <;> rfl

theorem Part.becomeHead_queueOf (p : Part) (t j : Nat) : (p.becomeHead t).queueOf j = p.queueOf j := by
  rw [Part.queueOf, Part.becomeHead_queues, Part.queueOf]

theorem Part.becomeHead_nil {p : Part} {t : Nat} (hqueue : p.queueOf t = []) : p.becomeHead t = p.cmpHeadChange t := by
  simp [Part.becomeHead, hqueue]

/-- A head that is not QUEUED stays as it is. -/
theorem Part.becomeHead_of_not_queued {p : Part} {t n : Nat} {rest : List Nat} (hqueue : p.queueOf t = n :: rest)
    (h : ∀ a, p.assignment n = some a → a.prompt ≠ .queued) : p.becomeHead t = p := by
  unfold Part.becomeHead
  rw [hqueue]
  cases ha : p.assignment n with
  | none => simp [ha]
  | some a => simp [ha, h a ha]

/-- The entry that becomes head, and every other. -/
theorem Part.becomeHead_assignment {p : Part} {t n : Nat} {rest : List Nat} {a : Assignment} (hqueue : p.queueOf t = n :: rest)
    (ha : p.assignment n = some a) (hqueued : a.prompt = .queued) (m : Nat) :
    (p.becomeHead t).assignment m
      = if m = n then some (a.heading (p.after (showInterval p.params (rest.length + 1) a.stepFree))) else p.assignment m := by
  rw [Part.becomeHead_eq hqueue ha hqueued]
  refine (p.setAssignment_assignment n m (f := (·.heading _)) fun _ => rfl).trans ?_
  by_cases hm : m = n
  · simp only [hm, if_true, ha, Option.map_some]
  · simp only [hm, if_false]

/-! ### Held values (R43, R67) -/

/-- An estimate changes an entry's estimate alone. -/
theorem Part.promptEstimate_entry {p : Part} {m : Nat} {a : Assignment} (ha : p.assignment m = some a) (n : Nat) (fresh : Bool) :
    ∃ e, (p.promptEstimate n fresh).assignment m = some { a with estimate := e } := by
  have held : ∀ (q : Part) old new, q.prm = p.prm → ∃ e, (q.setHeld n old new).assignment m = some { a with estimate := e } := by
    intro q old new hq
    have hsame : q.assignment m = some a := by rw [Part.assignment, hq, ← Part.assignment, ha]
    rw [Part.setHeld_assignment, hsame]
    split
    · exact ⟨some new, rfl⟩
    · exact ⟨a.estimate, rfl⟩
  have made : ∀ q : Part, (p.onlyArr q).assignment m = q.assignment m := fun _ => rfl
  unfold Part.promptEstimate
  rw [made]
  split
  · exact ⟨a.estimate, ha⟩
  · split
    · exact ⟨a.estimate, ha⟩
    · simp only
      split
      · exact held _ _ _ rfl
      · exact held _ _ _ rfl

/-! ### The end of a showing (R68, R70) -/

theorem Part.endShowing_homes (p : Part) (t : Nat) : (p.endShowing t).homes = p.homes := by
  cases hqueue : p.queueOf t with
  | nil => simp [Part.endShowing, hqueue]
  | cons n rest =>
    rw [Part.endShowing_cons hqueue, Part.setQueue_homes]
    rfl

theorem Part.endShowing_assignment_head {p : Part} {t n : Nat} {rest : List Nat} {a : Assignment}
    (hqueue : p.queueOf t = n :: rest) (ha : p.assignment n = some a) :
    (p.endShowing t).assignment n = some a.ended := by
  rw [Part.endShowing_cons hqueue, Part.setQueue_assignment,
    p.setAssignment_assignment n n (f := Assignment.ended) fun _ => rfl, if_pos rfl, ha]
  rfl

/-! ### Entries in and out of the table -/

/-- An entry that stays is none of those that leave. -/
theorem Part.struck_entry {p : Part} (hnumbers : (p.prm.table.map (·.number)).Nodup) {gone : Assignment → Bool} {m : Nat}
    {a : Assignment} (ha : (p.struck gone).assignment m = some a) : p.assignment m = some a ∧ m ∉ p.goneNumbers gone := by
  obtain ⟨hin, hkept⟩ := List.mem_filter.mp (Part.assignment_mem ha)
  obtain rfl := Part.assignment_number ha
  refine ⟨Part.assignment_of_mem hnumbers hin, fun hgone => ?_⟩
  obtain ⟨b, hb, hnumber⟩ := List.mem_map.mp hgone
  obtain ⟨hbin, hbgone⟩ := List.mem_filter.mp hb
  rw [List.inj_on_of_nodup_map hnumbers hbin hin hnumber] at hbgone
  simp [hbgone] at hkept

theorem Part.referred_homes (p : Part) (n t : Nat) (stepFree : Bool) : (p.referred n t stepFree).homes = p.homes :=
  p.setQueue_homes t _

theorem Part.referred_queueOf {p : Part} {t : Nat} (h : t ∈ p.homes) (n : Nat) (stepFree : Bool) (j : Nat) :
    (p.referred n t stepFree).queueOf j = if j = t then p.joined (p.queueOf t) n stepFree else p.queueOf j := by
  split
  · next heq =>
    rw [heq]
    exact Part.setQueue_queueOf_home h _
  · next hne => exact p.setQueue_queueOf_other _ hne

end Sys2Proof.Machine
end

section
/-! SUPPORT. The law of the terminal queues, operation by operation, between two steps of which a queue may be without its head
(R61, R66 to R72). -/

namespace Sys2Proof.Machine

/-- The law of the queues, but that the first reference of a terminal in `off` may still wait to become head. -/
structure Part.Lined (p : Part) (off : Nat → Prop) : Prop where
  seated : p.Seated
  housed : ∀ {n a}, p.assignment n = some a → a.terminal ∈ p.homes
  room : ∀ t, (p.queueOf t).length ≤ Config.queueLimit
  listed : ∀ {n a}, p.assignment n = some a → a.prompt ≠ .none → n ∈ p.queueOf a.terminal
  headed : ∀ {t n}, ¬off t → (p.queueOf t).head? = some n → p.isShowing n = true

/-- Every TERMINAL has one queue. -/
structure Part.Homed (p : Part) : Prop where
  once : p.homes.Nodup
  every : ∀ j < p.nodes.length, (p.terminalNode j).isSome = true → j ∈ p.homes

/-- No terminal waits for its head. -/
def Nowhere : Nat → Prop := fun _ => False

theorem Part.terminalNode_congr {p q : Part} (h : q.nodes = p.nodes) (j : Nat) : q.terminalNode j = p.terminalNode j := by
  rw [Part.terminalNode, Part.node, h, ← Part.node, ← Part.terminalNode]

theorem Part.Homed.congr {p q : Part} (h : p.Homed) (hnodes : q.nodes = p.nodes) (hhomes : q.homes = p.homes) : q.Homed where
  once := hhomes ▸ h.once
  every j hj hterminal := hhomes ▸ h.every j (hnodes ▸ hj) (Part.terminalNode_congr hnodes j ▸ hterminal)

theorem Part.Homed.mem {p : Part} (h : p.Homed) {j : Nat} {n : NodeConfig} (hn : p.terminalNode j = some n) : j ∈ p.homes := by
  refine h.every j ?_ (by rw [hn]; rfl)
  obtain ⟨hnode, -⟩ := Part.terminalNode_eq_some.mp hn
  by_contra hge
  rw [Part.node, List.getElem?_eq_none (by omega)] at hnode
  cases hnode

/-- The law of the queues, by terminals and by numbers. -/
theorem Part.queueLaw_iff (p : Part) : p.queueLaw ↔ p.Homed ∧ p.Lined Nowhere := by
  constructor
  · intro h
    have hseated := h.seated
    obtain ⟨hnumbers, honce, hevery, hhoused, hqueues⟩ := h
    have hhomed : p.Homed := ⟨honce, hevery⟩
    have found : ∀ {t}, t ∈ p.homes → p.queueOrdered { terminal := t, refs := p.queueOf t } := by
      intro t ht
      obtain ⟨q, hq, rfl⟩ := List.mem_map.mp ht
      rw [Part.queueOf_of_mem honce hq]
      exact hqueues q hq
    have home : ∀ {t n}, n ∈ p.queueOf t → t ∈ p.homes := fun hn => by_contra fun hnot => by
      rw [Part.queueOf_of_not_home hnot] at hn
      cases hn
    refine ⟨hhomed, hseated, fun ha => hhoused _ (Part.assignment_mem ha), fun t => ?_, fun ha hprompt => ?_,
      fun {t n} _ hhead => ?_⟩
    · by_cases ht : t ∈ p.homes
      · exact (found ht).1
      · rw [Part.queueOf_of_not_home ht]
        exact Nat.zero_le _
    · obtain ⟨-, -, hlisted, -⟩ := found (hhoused _ (Part.assignment_mem ha))
      exact Part.assignment_number ha ▸ (hlisted _ (Part.assignment_mem ha) rfl).mp hprompt
    · have hn := List.mem_of_head? hhead
      obtain ⟨-, -, -, -, hheaded⟩ := found (home hn)
      obtain ⟨a, ha, hterminal, -⟩ := hseated.entry hn
      rw [← Part.assignment_number ha] at hhead
      exact Part.isShowing_iff.mpr ⟨a, ha, (hheaded a (Part.assignment_mem ha) hterminal).mpr hhead⟩
  · rintro ⟨hhomed, h⟩
    have entry : ∀ {a}, a ∈ p.prm.table → p.assignment a.number = some a := Part.assignment_of_mem h.seated.numbers
    refine ⟨h.seated.numbers, hhomed.once, hhomed.every, fun a ha => h.housed (entry ha), fun q hq => ?_⟩
    unfold Part.queueOrdered
    rw [← Part.queueOf_of_mem hhomed.once hq]
    refine ⟨h.room _, h.seated.once _, fun a ha hterminal => ?_, fun n hn => ?_, fun a ha hterminal => ?_⟩
    · rw [← hterminal]
      exact ⟨h.listed (entry ha), fun hn hnone => h.seated.not_mem (entry ha) hnone _ hn⟩
    · obtain ⟨a, ha, hnumber, hterminal, -⟩ := h.seated.seat hn
      exact ⟨a, ha, hnumber, hterminal⟩
    · rw [← hterminal]
      constructor
      · intro hs
        obtain ⟨b, hb, -, -, hhead⟩ := h.seated.entry (h.listed (entry ha) (by rw [hs]; nofun))
        obtain rfl : a = b := Option.some.inj ((entry ha).symm.trans hb)
        exact hhead hs
      · intro hhead
        obtain ⟨b, hb, hs⟩ := Part.isShowing_iff.mp (h.headed (by nofun) hhead)
        obtain rfl : a = b := Option.some.inj ((entry ha).symm.trans hb)
        exact hs

theorem Assignment.of_place {a b : Assignment} (h : a.place = b.place) : a.terminal = b.terminal ∧ a.prompt = b.prompt :=
  ⟨congrArg Place.terminal h, congrArg Place.prompt h⟩

section
variable {p : Part} {off : Nat → Prop} (h : p.Lined off)
include h

theorem Part.Lined.mono {off' : Nat → Prop} (hoff : ∀ t, off t → off' t) : p.Lined off' :=
  ⟨h.seated, h.housed, h.room, h.listed, fun ht => h.headed fun hin => ht (hoff _ hin)⟩

/-- The law reads the roster alone. -/
theorem Part.Lined.of_roster {q : Part} (hroster : q.roster = p.roster) : q.Lined off where
  seated := h.seated.congr (by
    have hplaces := congrArg (List.map fun x : Place => (x.number, x.terminal, x.prompt)) (congrArg Roster.places hroster)
    simp only [Part.roster, List.map_map] at hplaces
    exact hplaces) (Part.queueOf_of_roster hroster)
  housed ha := by
    obtain ⟨b, hb, hplace⟩ := Part.entry_of_roster hroster ha
    obtain ⟨hterminal, -⟩ := Assignment.of_place hplace
    rw [Part.homes_of_roster hroster, hterminal]
    exact h.housed hb
  room t := Part.queueOf_of_roster hroster t ▸ h.room t
  listed ha hprompt := by
    obtain ⟨b, hb, hplace⟩ := Part.entry_of_roster hroster ha
    obtain ⟨hterminal, hsame⟩ := Assignment.of_place hplace
    rw [Part.queueOf_of_roster hroster, hterminal]
    exact h.listed hb (hsame ▸ hprompt)
  headed ht hhead := by
    rw [Part.queueOf_of_roster hroster] at hhead
    rw [Part.isShowing_of_roster hroster]
    exact h.headed ht hhead

theorem Part.Lined.of_prm {q : Part} (hprm : q.prm = p.prm) : q.Lined off := h.of_roster (Part.roster_of_prm hprm)

/-- A terminal gets its head (R69). -/
theorem Part.Lined.becomeHead (t : Nat) : (p.becomeHead t).Lined fun j => off j ∧ j ≠ t := by
  have other : ∀ {j}, ¬(off j ∧ j ≠ t) → j ≠ t → ¬off j := fun hj hne hoff => hj ⟨hoff, hne⟩
  cases hqueue : p.queueOf t with
  | nil =>
    rw [Part.becomeHead_nil hqueue]
    refine (⟨h.seated, h.housed, h.room, h.listed, fun {j n} hj hhead => h.headed (other hj ?_) hhead⟩ : p.Lined _).of_prm rfl
    rintro rfl
    rw [hqueue] at hhead
    cases hhead
  | cons n rest =>
    have hn : n ∈ p.queueOf t := by rw [hqueue]; exact List.mem_cons_self
    obtain ⟨a, ha, hterminal, hprompt, -⟩ := h.seated.entry hn
    by_cases hqueued : a.prompt = .queued
    · have hentry := Part.becomeHead_assignment hqueue ha hqueued
      have same : ∀ {m b}, (p.becomeHead t).assignment m = some b →
          ∃ c, p.assignment m = some c ∧ b.terminal = c.terminal ∧ (b.prompt ≠ .none → c.prompt ≠ .none) := by
        intro m b hb
        rw [hentry] at hb
        split at hb
        · next heq => exact ⟨a, heq ▸ ha, by rw [← Option.some.inj hb]; rfl, fun _ => hprompt⟩
        · exact ⟨b, hb, rfl, id⟩
      refine ⟨((p.becomeHead_serves t).upholds h.seated).1, fun hb => ?_, fun j => ?_, fun hb hsome => ?_,
        fun {j m} hj hhead => ?_⟩
      · obtain ⟨c, hc, hsame, -⟩ := same hb
        rw [hsame, Part.homes_of_queues (p.becomeHead_queues t)]
        exact h.housed hc
      · rw [p.becomeHead_queueOf]
        exact h.room j
      · obtain ⟨c, hc, hsame, hback⟩ := same hb
        rw [hsame, p.becomeHead_queueOf]
        exact h.listed hc (hback hsome)
      · rw [p.becomeHead_queueOf] at hhead
        by_cases hm : m = n
        · exact Part.isShowing_iff.mpr ⟨_, by rw [hentry, if_pos hm], rfl⟩
        · have hjt : j ≠ t := by
            rintro rfl
            rw [hqueue, List.head?_cons, Option.some.injEq] at hhead
            exact hm hhead.symm
          rw [Part.isShowing_congr (p := p) (by rw [hentry, if_neg hm])]
          exact h.headed (other hj hjt) hhead
    · rw [Part.becomeHead_of_not_queued hqueue fun b hb => Option.some.inj (ha.symm.trans hb) ▸ hqueued]
      refine ⟨h.seated, h.housed, h.room, h.listed, fun {j m} hj hhead => ?_⟩
      by_cases hjt : j = t
      · subst hjt
        rw [hqueue, List.head?_cons, Option.some.injEq] at hhead
        subst hhead
        refine Part.isShowing_iff.mpr ⟨a, ha, ?_⟩
        cases hp : a.prompt with
        | none => exact absurd hp hprompt
        | queued => exact absurd hp hqueued
        | showing => rfl
      · exact h.headed (other hj hjt) hhead

/-- Several terminals get their heads (R83). -/
theorem Part.Lined.becomeHeads (l : List Nat) : (l.foldl (fun q t => q.becomeHead t) p).Lined fun j => off j ∧ j ∉ l := by
  induction l generalizing p off with
  | nil => exact h.mono fun _ hj => ⟨hj, List.not_mem_nil⟩
  | cons t l ih =>
    refine (ih (h.becomeHead t)).mono fun j hj => ?_
    obtain ⟨⟨hoff, hne⟩, hnot⟩ := hj
    exact ⟨hoff, fun hin => (List.mem_cons.mp hin).elim hne hnot⟩

/-- A head leaves its queue and stays live (R68, R70). -/
theorem Part.Lined.endShowing (t : Nat) : (p.endShowing t).Lined fun j => off j ∨ j = t := by
  cases hqueue : p.queueOf t with
  | nil =>
    rw [show p.endShowing t = p by simp [Part.endShowing, hqueue]]
    exact h.mono fun _ hj => .inl hj
  | cons n rest =>
    have hn : n ∈ p.queueOf t := by rw [hqueue]; exact List.mem_cons_self
    obtain ⟨a, ha, hterminal, -⟩ := h.seated.entry hn
    have kept : ∀ {m}, m ≠ n → (p.endShowing t).assignment m = p.assignment m := fun hm =>
      Part.endShowing_assignment (by rw [hqueue]; simpa using fun heq => hm heq.symm)
    have same : ∀ {m b}, (p.endShowing t).assignment m = some b → ∃ c, p.assignment m = some c
        ∧ b.terminal = c.terminal ∧ (b.prompt ≠ .none → m ≠ n ∧ c.prompt ≠ .none) := by
      intro m b hb
      by_cases hm : m = n
      · subst hm
        rw [Part.endShowing_assignment_head hqueue ha] at hb
        exact ⟨a, ha, by rw [← Option.some.inj hb]; rfl, fun hsome => absurd (by rw [← Option.some.inj hb]; rfl) hsome⟩
      · exact ⟨b, (kept hm).symm.trans hb, rfl, fun hsome => ⟨hm, hsome⟩⟩
    refine ⟨h.seated.endShowing t, fun hb => ?_, fun j => ?_, fun {m b} hb hsome => ?_, fun {j m} hj hhead => ?_⟩
    · obtain ⟨c, hc, hsame, -⟩ := same hb
      rw [hsame, p.endShowing_homes]
      exact h.housed hc
    · rw [p.endShowing_queueOf]
      have hroom := h.room
      split
      · rw [List.length_tail]
        exact (Nat.sub_le _ _).trans (hroom t)
      · exact hroom j
    · obtain ⟨c, hc, hsame, hback⟩ := same hb
      obtain ⟨hm, hsome⟩ := hback hsome
      have hin := h.listed hc hsome
      rw [hsame, p.endShowing_queueOf]
      split
      · next heq =>
        rw [heq, hqueue] at hin
        rw [hqueue]
        exact (List.mem_cons.mp hin).resolve_left hm
      · exact hin
    · obtain ⟨hoff, hjt⟩ := not_or.mp hj
      rw [p.endShowing_queueOf, if_neg hjt] at hhead
      have hm : m ≠ n := fun heq => hjt (h.seated.terminal_unique (List.mem_of_head? hhead) (heq ▸ hn))
      rw [Part.isShowing_congr (kept hm)]
      exact h.headed hoff hhead

/-- A reference joins a queue with room (R66, R67). -/
theorem Part.Lined.referred {n t : Nat} {a : Assignment} (ha : p.assignment n = some a) (hterminal : a.terminal = t)
    (hprompt : a.prompt = .none) (hroom : (p.queueOf t).length < Config.queueLimit) (stepFree : Bool) :
    (p.referred n t stepFree).Lined fun j => off j ∨ j = t ∧ p.queueOf t = [] := by
  have hhome : t ∈ p.homes := hterminal ▸ h.housed ha
  have hqueues := Part.referred_queueOf hhome n stepFree
  have hnew : n ∈ (p.referred n t stepFree).queueOf t := by
    rw [hqueues, if_pos rfl, Part.mem_joined]
    exact .inl rfl
  have kept : ∀ {m}, m ≠ n → (p.referred n t stepFree).assignment m = p.assignment m := fun hm => by
    rw [Part.referred_assignment, if_neg hm]
  have hself : (p.referred n t stepFree).assignment n = some a.waiting := by
    rw [Part.referred_assignment, if_pos rfl, ha, Option.map_some]
  have hother : ∀ {j m}, (p.queueOf j).head? = some m → m ≠ n := fun hhead heq =>
    h.seated.not_referenced ha hprompt _ (heq ▸ List.mem_of_head? hhead)
  refine ⟨h.seated.referred ha hterminal hprompt stepFree, fun {m b} hb => ?_, fun j => ?_, fun {m b} hb hsome => ?_,
    fun {j m} hj hhead => ?_⟩
  · rw [p.referred_homes]
    by_cases hm : m = n
    · rw [hm, hself] at hb
      rw [← Option.some.inj hb]
      exact hterminal ▸ hhome
    · exact h.housed ((kept hm).symm.trans hb)
  · rw [hqueues]
    split
    · rw [Part.joined_length]
      exact hroom
    · exact h.room j
  · by_cases hm : m = n
    · subst hm
      rw [hself] at hb
      rw [← Option.some.inj hb]
      exact hterminal.symm ▸ hnew
    · rw [kept hm] at hb
      have hin := h.listed hb hsome
      rw [hqueues]
      split
      · next heq => exact (Part.mem_joined ..).mpr (.inr (heq ▸ hin))
      · exact hin
  · obtain ⟨hoff, hnil⟩ := not_or.mp hj
    have shows : ∀ {m}, (p.queueOf j).head? = some m → (p.referred n t stepFree).isShowing m = true := fun hm => by
      rw [Part.isShowing_congr (kept (hother hm))]
      exact h.headed hoff hm
    by_cases hjt : j = t
    · subst hjt
      rw [hqueues, if_pos rfl] at hhead
      cases hold : (p.queueOf j).head? with
      | none => exact absurd ⟨rfl, List.head?_eq_none_iff.mp hold⟩ hnil
      | some x =>
        obtain hstays | ⟨-, hunshown⟩ := p.joined_head n stepFree hold
        · rw [hstays, Option.some.injEq] at hhead
          exact hhead ▸ shows hold
        · rw [h.headed hoff hold] at hunshown
          cases hunshown
    · rw [hqueues, if_neg hjt] at hhead
      exact shows hhead

/-- Entries and their references are struck out, and heads with them (R72). -/
theorem Part.Lined.struck (gone : Assignment → Bool) : (p.struck gone).Lined fun j => off j ∨ j ∈ p.headless gone where
  seated := h.seated.struck gone
  housed ha := by
    rw [p.struck_homes]
    exact h.housed (Part.struck_entry h.seated.numbers ha).1
  room t := by
    rw [p.struck_queueOf]
    exact (List.length_filter_le _ _).trans (h.room t)
  listed ha hprompt := by
    obtain ⟨hin, hstays⟩ := Part.struck_entry h.seated.numbers ha
    exact (p.mem_struck_queueOf gone).mpr ⟨h.listed hin hprompt, hstays⟩
  headed {t n} ht hhead := by
    obtain ⟨hoff, hkept⟩ := not_or.mp ht
    obtain ⟨-, hstays⟩ := (p.mem_struck_queueOf gone).mp (List.mem_of_head? hhead)
    cases hold : (p.queueOf t).head? with
    | none =>
      rw [p.struck_queueOf, List.head?_eq_none_iff.mp hold] at hhead
      cases hhead
    | some m =>
      have hm : m ∉ p.goneNumbers gone := fun hm => hkept (p.mem_headless gone hold hm)
      rw [p.struck_head gone hold hm, Option.some.injEq] at hhead
      subst hhead
      rw [Part.isShowing_congr (p.struck_assignment gone hm)]
      exact h.headed hoff hold

/-- The table gains an entry without a prompt (R65). -/
theorem Part.Lined.withEntry {a : Assignment} (hfresh : p.assignment a.number = none) (hhome : a.terminal ∈ p.homes)
    (hprompt : a.prompt = .none) : (p.withEntry a).Lined off where
  seated := h.seated.withEntry hfresh
  housed {m b} hb := by
    by_cases hm : m = a.number
    · rw [hm, Part.withEntry_assignment_self hfresh] at hb
      exact Option.some.inj hb ▸ hhome
    · exact h.housed ((Part.withEntry_assignment hm).symm.trans hb)
  room := h.room
  listed {m b} hb hsome := by
    by_cases hm : m = a.number
    · rw [hm, Part.withEntry_assignment_self hfresh] at hb
      exact absurd (Option.some.inj hb ▸ hprompt) hsome
    · exact h.listed ((Part.withEntry_assignment hm).symm.trans hb) hsome
  headed {t m} ht hhead := by
    have hm : m ≠ a.number := h.seated.ne_fresh hfresh (j := t) (List.mem_of_head? hhead)
    rw [Part.isShowing_congr (Part.withEntry_assignment hm)]
    exact h.headed ht hhead

end

end Sys2Proof.Machine
end

section
/-! SUPPORT. How an entry enters its terminal's queue, and what becomes of the order behind the heads (R61, R66 to R68). -/

namespace Sys2Proof.Machine

/-! ### Entering a queue (R67, R68) -/

theorem Part.inQueue_of_room {p : Part} {t : Nat} (hroom : (p.queueOf t).length < Config.queueLimit) (n : Nat) (stepFree : Bool) :
    p.madeRoom t = p ∧ p.inQueue n t stepFree = (p.referred n t stepFree).promptEstimate n true := by
  have hsame : p.madeRoom t = p := by
    rw [Part.madeRoom, if_neg]
    simpa using hroom
  rw [Part.inQueue, hsame]
  exact ⟨rfl, rfl⟩

theorem Part.enterQueue_of_empty {p : Part} {t : Nat} (hnil : p.queueOf t = []) (n : Nat) (stepFree : Bool) :
    p.enterQueue n t stepFree = ((p.referred n t stepFree).promptEstimate n true).becomeHead t := by
  obtain ⟨hsame, hin⟩ := Part.inQueue_of_room (p := p) (t := t) (by rw [hnil]; decide) n stepFree
  rw [Part.enterQueue_eq, hsame, hin]
  simp [hnil]

theorem Part.enterQueue_of_room {p : Part} {t : Nat} (hne : p.queueOf t ≠ []) (hroom : (p.queueOf t).length < Config.queueLimit)
    (n : Nat) (stepFree : Bool) : p.enterQueue n t stepFree = (p.referred n t stepFree).promptEstimate n true := by
  obtain ⟨hsame, hin⟩ := Part.inQueue_of_room hroom n stepFree
  rw [Part.enterQueue_eq, hsame, hin]
  simp [hne, hroom]

theorem Part.enterQueue_of_full {p : Part} {t : Nat} (hfull : Config.queueLimit ≤ (p.queueOf t).length) (n : Nat)
    (stepFree : Bool) :
    p.enterQueue n t stepFree = (((p.endShowing t).referred n t stepFree).promptEstimate n true).becomeHead t := by
  have hroom : p.madeRoom t = p.endShowing t := by simp [Part.madeRoom, hfull]
  rw [Part.enterQueue_eq, Part.inQueue, hroom]
  simp [hfull, Part.referred]

theorem Part.promptEstimate_queueOf (p : Part) (n : Nat) (fresh : Bool) (j : Nat) :
    (p.promptEstimate n fresh).queueOf j = p.queueOf j := Part.queueOf_of_roster (p.promptEstimate_roster n fresh) j

section
variable {p : Part} (h : p.Lined Nowhere) {n t : Nat} {a : Assignment} (ha : p.assignment n = some a)
  (hterminal : a.terminal = t) (stepFree : Bool)
include h ha hterminal

/-- The queues of other terminals stay. -/
theorem Part.Lined.enterQueue_queueOf_other {j : Nat} (hj : j ≠ t) : (p.enterQueue n t stepFree).queueOf j = p.queueOf j := by
  have hhome : t ∈ p.homes := hterminal ▸ h.housed ha
  by_cases hroom : (p.queueOf t).length < Config.queueLimit
  · by_cases hnil : p.queueOf t = []
    · rw [Part.enterQueue_of_empty hnil, Part.becomeHead_queueOf, Part.promptEstimate_queueOf, Part.referred_queueOf hhome, if_neg hj]
    · rw [Part.enterQueue_of_room hnil hroom, Part.promptEstimate_queueOf, Part.referred_queueOf hhome, if_neg hj]
  · rw [Part.enterQueue_of_full (by omega), Part.becomeHead_queueOf, Part.promptEstimate_queueOf,
      Part.referred_queueOf (p.endShowing_homes t ▸ hhome), if_neg hj, p.endShowing_queueOf, if_neg hj]

/-- Alone at its terminal. -/
theorem Part.Lined.enterQueue_queueOf_empty (hnil : p.queueOf t = []) : (p.enterQueue n t stepFree).queueOf t = [n] := by
  have hhome : t ∈ p.homes := hterminal ▸ h.housed ha
  rw [Part.enterQueue_of_empty hnil, Part.becomeHead_queueOf, Part.promptEstimate_queueOf, Part.referred_queueOf hhome,
    if_pos rfl, hnil]
  simp [Part.joined]

/-- In a queue with room, in the ordered place behind the head. -/
theorem Part.Lined.enterQueue_queueOf_room {x : Nat} {rest : List Nat} (hqueue : p.queueOf t = x :: rest)
    (hroom : (p.queueOf t).length < Config.queueLimit) :
    (p.enterQueue n t stepFree).queueOf t = x :: p.placed rest n stepFree := by
  have hhome : t ∈ p.homes := hterminal ▸ h.housed ha
  rw [Part.enterQueue_of_room (by rw [hqueue]; nofun) hroom, Part.promptEstimate_queueOf, Part.referred_queueOf hhome,
    if_pos rfl, hqueue, Part.joined_of_showing (h.headed nofun (by rw [hqueue, List.head?_cons])),
    Part.joined_of_unshown (h.seated.unshown_behind hqueue)]

/-- In a full queue, in the ordered place among the references behind the old head. -/
theorem Part.Lined.enterQueue_queueOf_full {x : Nat} {rest : List Nat} (hqueue : p.queueOf t = x :: rest)
    (hfull : Config.queueLimit ≤ (p.queueOf t).length) : (p.enterQueue n t stepFree).queueOf t = p.placed rest n stepFree := by
  have hhome : t ∈ (p.endShowing t).homes := p.endShowing_homes t ▸ hterminal ▸ h.housed ha
  have hrest : (p.endShowing t).queueOf t = rest := by rw [p.endShowing_queueOf, if_pos rfl, hqueue, List.tail_cons]
  have hkept : ∀ m ∈ rest, (p.endShowing t).assignment m = p.assignment m := fun m hm =>
    (h.seated.endShowing_entry (hrest.symm ▸ hm)).2.1
  rw [Part.enterQueue_of_full hfull, Part.becomeHead_queueOf, Part.promptEstimate_queueOf, Part.referred_queueOf hhome,
    if_pos rfl, hrest, Part.joined_of_unshown fun m hm => ?_, Part.placed_congr hkept]
  rw [Part.isShowing_congr (hkept m hm)]
  exact h.seated.unshown_behind hqueue m hm

theorem Part.Lined.enterQueue (hprompt : a.prompt = .none) : (p.enterQueue n t stepFree).Lined Nowhere := by
  by_cases hroom : (p.queueOf t).length < Config.queueLimit
  · have hjoined := (h.referred ha hterminal hprompt hroom stepFree).of_roster (Part.promptEstimate_roster _ n true)
    by_cases hnil : p.queueOf t = []
    · rw [Part.enterQueue_of_empty hnil]
      refine (hjoined.becomeHead t).mono fun j hj => ?_
      obtain ⟨hoff | ⟨hjt, -⟩, hne⟩ := hj
      · exact hoff
      · exact hne hjt
    · rw [Part.enterQueue_of_room hnil hroom]
      exact hjoined.mono fun j hj => hj.elim id fun hnil' => hnil hnil'.2
  · have hended := h.endShowing t
    have hkept : (p.endShowing t).assignment n = some a := by
      rw [Part.endShowing_assignment fun hhead => h.seated.not_referenced ha hprompt t (List.mem_of_head? hhead), ha]
    have hlength : ((p.endShowing t).queueOf t).length < Config.queueLimit := by
      have hmost : (p.queueOf t).length ≤ 4 := h.room t
      rw [p.endShowing_queueOf, if_pos rfl, List.length_tail]
      show _ < 4
      omega
    rw [Part.enterQueue_of_full (by omega)]
    refine (((hended.referred hkept hterminal hprompt hlength stepFree).of_roster
      (Part.promptEstimate_roster _ n true)).becomeHead t).mono fun j hj => ?_
    obtain ⟨(hoff | hjt) | ⟨hjt, -⟩, hne⟩ := hj
    · exact hoff
    · exact hne hjt
    · exact hne hjt

end

/-! ### The order behind the heads (R66) -/

/-- What orders the references behind a head: step-free entries first, each group by take order. -/
def Assignment.rank (a : Assignment) : Bool × Nat := (a.stepFree, a.order)

theorem Assignment.ahead_congr {x x' y y' : Assignment} (hx : x'.rank = x.rank) (hy : y'.rank = y.rank) :
    x'.ahead y' = x.ahead y := by
  simp only [Assignment.rank, Prod.mk.injEq] at hx hy
  rw [Assignment.ahead, hx.1, hx.2, hy.1, hy.2, Assignment.ahead]

/-- References in the order of their entries. -/
def Part.Ascending (p : Part) (l : List Nat) : Prop :=
  l.Pairwise fun m n => ∀ x, p.assignment m = some x → ∀ y, p.assignment n = some y → x.ahead y = true

/-- The entries of `q` among the references of `l` rank as they do in `p`. -/
def Part.RanksIn (p q : Part) (l : List Nat) : Prop :=
  ∀ m ∈ l, ∀ x, q.assignment m = some x → ∃ y, p.assignment m = some y ∧ x.rank = y.rank

theorem Part.Ascending.congr {p q : Part} {l : List Nat} (h : p.Ascending l) (hranks : p.RanksIn q l) : q.Ascending l :=
  List.Pairwise.imp_of_mem (fun {m n} hm hn hahead x hx y hy => by
    obtain ⟨x', hx', hxr⟩ := hranks m hm x hx
    obtain ⟨y', hy', hyr⟩ := hranks n hn y hy
    rw [Assignment.ahead_congr hxr hyr]
    exact hahead x' hx' y' hy') h

/-- The same table but for prompts and estimates, and the entries that carry a number. -/
theorem Part.core_of_entries {p q : Part} (h : q.ledger.entries = p.ledger.entries) (m : Nat) :
    (q.assignment m).map (·.core) = (p.assignment m).map (·.core) := by
  have hcore : ∀ r : Part, (r.assignment m).map (·.core) = r.ledger.entries.find? (·.number = m) := fun r => by
    simp only [Part.assignment, Part.ledger, List.find?_map]
    rfl
  rw [hcore, h, hcore]

theorem Part.RanksIn.of_entries {p q : Part} (h : q.ledger.entries = p.ledger.entries) (l : List Nat) : p.RanksIn q l := by
  intro m _ x hx
  have hsame := Part.core_of_entries h m
  rw [hx, Option.map_some] at hsame
  obtain ⟨y, hy, heq⟩ := Option.map_eq_some_iff.mp hsame.symm
  exact ⟨y, hy, (congrArg Assignment.rank heq).symm⟩

/-- The newest reference, in its ordered place. -/
theorem Part.Ascending.placed {p : Part} {l : List Nat} (h : p.Ascending l) {n : Nat} {a : Assignment}
    (ha : p.assignment n = some a) (hnewest : ∀ m ∈ l, ∃ b, p.assignment m = some b ∧ b.order < a.order) :
    p.Ascending (p.placed l n a.stepFree) := by
  unfold Part.placed
  cases hfree : a.stepFree with
  | false =>
    refine List.pairwise_append.mpr ⟨h, List.pairwise_singleton .., fun m hm x hx y hy z hz => ?_⟩
    obtain ⟨b, hb, hless⟩ := hnewest m hm
    obtain rfl : y = b := Option.some.inj (hy.symm.trans hb)
    rw [List.mem_singleton.mp hx] at hz
    obtain rfl : z = a := Option.some.inj (hz.symm.trans ha)
    simp [Assignment.ahead, hfree, hless]
  | true =>
    simp only [if_true]
    induction l with
    | nil => exact List.pairwise_singleton ..
    | cons m l ih =>
      obtain ⟨hm, hl⟩ := List.pairwise_cons.mp h
      obtain ⟨b, hb, hless⟩ := hnewest m List.mem_cons_self
      have hnewest' : ∀ m ∈ l, ∃ b, p.assignment m = some b ∧ b.order < a.order := fun x hx =>
        hnewest x (List.mem_cons_of_mem m hx)
      by_cases hmfree : b.stepFree = true
      · have hstep : p.isStepFree m = true := by simp [Part.isStepFree, hb, hmfree]
        simp only [List.takeWhile_cons, List.dropWhile_cons, hstep, if_true, List.cons_append]
        refine List.pairwise_cons.mpr ⟨fun x hx => ?_, ih hl hnewest'⟩
        have hin : x = n ∨ x ∈ l := by
          have hplaced := p.mem_placed l n x true
          simp only [Part.placed, if_true] at hplaced
          exact hplaced.mp hx
        obtain rfl | hin := hin
        · intro y hy z hz
          obtain rfl : y = b := Option.some.inj (hy.symm.trans hb)
          obtain rfl : z = a := Option.some.inj (hz.symm.trans ha)
          simp [Assignment.ahead, hmfree, hfree, hless]
        · exact hm x hin
      · have hstep : p.isStepFree m = false := by simp [Part.isStepFree, hb, hmfree]
        simp only [List.takeWhile_cons, List.dropWhile_cons, hstep, List.nil_append, Bool.false_eq_true, if_false]
        refine List.pairwise_cons.mpr ⟨fun x hx y hy z hz => ?_, h⟩
        obtain rfl : y = a := Option.some.inj (hy.symm.trans ha)
        have hzfree : z.stepFree = false := by
          obtain rfl | hin := List.mem_cons.mp hx
          · rw [← Option.some.inj (hb.symm.trans hz)]
            simpa using hmfree
          · have hahead := hm x hin b hb z hz
            simp only [Assignment.ahead, hmfree, Bool.false_and, Bool.false_or, Bool.and_eq_true, decide_eq_true_eq] at hahead
            exact hahead.1.symm
        simp [Assignment.ahead, hfree, hzfree]

/-- Every entry was taken before place `bound`, and behind every head the references ascend. -/
structure Part.Ordered (p : Part) (bound : Nat) : Prop where
  taken : ∀ {n a}, p.assignment n = some a → a.order < bound
  waiting : ∀ t, p.Ascending (p.queueOf t).tail

/-- The order of the queues, by terminals and by numbers. -/
theorem Part.queueOrder_iff {p : Part} (hhomes : p.Homed) (h : p.Lined Nowhere) : p.queueOrder ↔ p.Ordered p.prm.nextOrder := by
  have ascending : ∀ l : List Nat, ((l.drop 1).filterMap p.assignment).Pairwise (fun x y => x.ahead y = true)
      ↔ p.Ascending l.tail := fun l => by
    rw [List.pairwise_filterMap, List.drop_one]
    rfl
  constructor
  · rintro ⟨htaken, hqueues⟩
    refine ⟨fun ha => htaken _ (Part.assignment_mem ha), fun t => ?_⟩
    by_cases ht : t ∈ p.homes
    · obtain ⟨q, hq, rfl⟩ := List.mem_map.mp ht
      rw [Part.queueOf_of_mem hhomes.once hq]
      exact (ascending _).mp (hqueues q hq)
    · rw [Part.queueOf_of_not_home ht]
      exact List.Pairwise.nil
  · rintro ⟨htaken, hwaiting⟩
    refine ⟨fun a ha => htaken (Part.assignment_of_mem h.seated.numbers ha), fun q hq => (ascending _).mpr ?_⟩
    rw [← Part.queueOf_of_mem hhomes.once hq]
    exact hwaiting q.terminal

section
variable {p : Part} {bound : Nat} (h : p.Ordered bound)
include h

/-- An operation that keeps the entries and only shortens what waits. -/
theorem Part.Ordered.of_ledger {q : Part} (hentries : q.ledger.entries = p.ledger.entries)
    (hqueues : ∀ t, (q.queueOf t).tail.Sublist (p.queueOf t).tail) : q.Ordered bound where
  taken {n a} ha := by
    obtain ⟨b, hb, hrank⟩ := Part.RanksIn.of_entries hentries [n] n (List.mem_singleton.mpr rfl) a ha
    exact (congrArg Prod.snd hrank).trans_lt (h.taken hb)
  waiting t := Part.Ascending.congr ((h.waiting t).sublist (hqueues t)) (.of_entries hentries _)

/-- The order reads the roster alone. -/
theorem Part.Ordered.of_roster {q : Part} (hroster : q.roster = p.roster) : q.Ordered bound where
  taken {n a} ha := by
    obtain ⟨b, hb, hplace⟩ := Part.entry_of_roster hroster ha
    exact (congrArg Place.order hplace).trans_lt (h.taken hb)
  waiting t := by
    rw [Part.queueOf_of_roster hroster]
    refine (h.waiting t).congr fun m _ x hx => ?_
    obtain ⟨y, hy, hplace⟩ := Part.entry_of_roster hroster hx
    exact ⟨y, hy, congrArg (fun z : Place => (z.stepFree, z.order)) hplace⟩

theorem Part.Ordered.of_prm {q : Part} (hprm : q.prm = p.prm) : q.Ordered bound := h.of_roster (Part.roster_of_prm hprm)

theorem Part.Ordered.mono {bound' : Nat} (hle : bound ≤ bound') : p.Ordered bound' :=
  ⟨fun ha => (h.taken ha).trans_le hle, h.waiting⟩

theorem Part.Ordered.becomeHead (t : Nat) : (p.becomeHead t).Ordered bound :=
  h.of_ledger (congrArg Ledger.entries (p.becomeHead_ledger t)) fun j => by
    rw [p.becomeHead_queueOf]

theorem Part.Ordered.becomeHeads (l : List Nat) : (l.foldl (fun q t => q.becomeHead t) p).Ordered bound := by
  induction l generalizing p with
  | nil => exact h
  | cons t l ih => exact ih (h.becomeHead t)

theorem Part.Ordered.endShowing (t : Nat) : (p.endShowing t).Ordered bound :=
  h.of_ledger (congrArg Ledger.entries (p.endShowing_ledger t)) fun j => by
    rw [p.endShowing_queueOf]
    split
    · next heq => exact heq ▸ List.tail_sublist _
    · exact List.Sublist.refl _

theorem Part.Ordered.struck (hnumbers : (p.prm.table.map (·.number)).Nodup) (gone : Assignment → Bool) :
    (p.struck gone).Ordered bound where
  taken ha := h.taken (Part.struck_entry hnumbers ha).1
  waiting t := by
    have behind : ∀ (f : Nat → Bool) (l : List Nat), (l.filter f).tail.Sublist l.tail := fun f l => by
      cases l with
      | nil => exact List.Sublist.refl _
      | cons x l =>
        rw [List.filter_cons]
        split
        · exact List.filter_sublist
        · exact (List.tail_sublist _).trans List.filter_sublist
    rw [p.struck_queueOf]
    exact Part.Ascending.congr ((h.waiting t).sublist (behind _ _)) fun m _ x hx =>
      ⟨x, (Part.struck_entry hnumbers hx).1, rfl⟩

/-- The newest entry joins the table. -/
theorem Part.Ordered.withEntry (hseated : p.Seated) {a : Assignment} (hfresh : p.assignment a.number = none)
    (horder : a.order = bound) : (p.withEntry a).Ordered (bound + 1) where
  taken {n b} hb := by
    by_cases hn : n = a.number
    · rw [hn, Part.withEntry_assignment_self hfresh] at hb
      rw [← Option.some.inj hb, horder]
      exact Nat.lt_succ_self _
    · exact (h.taken ((Part.withEntry_assignment hn).symm.trans hb)).trans (Nat.lt_succ_self _)
  waiting t := (h.waiting t).congr fun m hm x hx => by
    have hin : m ∈ p.queueOf t := List.mem_of_mem_tail hm
    exact ⟨x, (Part.withEntry_assignment (hseated.ne_fresh hfresh hin)).symm.trans hx, rfl⟩

/-- The newest entry enters its queue. -/
theorem Part.Ordered.enterQueue (hlined : p.Lined Nowhere) {n t : Nat} {a : Assignment} (ha : p.assignment n = some a)
    (hterminal : a.terminal = t) (hprompt : a.prompt = .none)
    (hnewest : ∀ {m b}, m ≠ n → p.assignment m = some b → b.order < a.order) :
    (p.enterQueue n t a.stepFree).Ordered bound := by
  have hentries := congrArg Ledger.entries (p.enterQueue_ledger n t a.stepFree)
  have hbehind : p.Ascending (p.placed (p.queueOf t).tail n a.stepFree) := by
    refine (h.waiting t).placed ha fun m hm => ?_
    have hin : m ∈ p.queueOf t := List.mem_of_mem_tail hm
    obtain ⟨b, hb, -⟩ := hlined.seated.entry hin
    exact ⟨b, hb, hnewest (fun heq => hlined.seated.not_referenced ha hprompt t (heq ▸ hin)) hb⟩
  have hqueues : ∀ j, p.Ascending ((p.enterQueue n t a.stepFree).queueOf j).tail := by
    intro j
    by_cases hj : j = t
    · subst hj
      cases hqueue : p.queueOf j with
      | nil =>
        rw [hlined.enterQueue_queueOf_empty ha hterminal _ hqueue]
        exact List.Pairwise.nil
      | cons x rest =>
        rw [hqueue, List.tail_cons] at hbehind
        by_cases hroom : (p.queueOf j).length < Config.queueLimit
        · rw [hlined.enterQueue_queueOf_room ha hterminal _ hqueue hroom]
          exact hbehind
        · rw [hlined.enterQueue_queueOf_full ha hterminal _ hqueue (by omega)]
          exact hbehind.sublist (List.tail_sublist _)
    · rw [hlined.enterQueue_queueOf_other ha hterminal _ hj]
      exact h.waiting j
  refine ⟨fun {m x} hx => ?_, fun j => (hqueues j).congr (.of_entries hentries _)⟩
  obtain ⟨y, hy, hrank⟩ := Part.RanksIn.of_entries hentries [m] m (List.mem_singleton.mpr rfl) x hx
  exact (congrArg Prod.snd hrank).trans_lt (h.taken hy)

end

end Sys2Proof.Machine
end

section
/-! SUPPORT and PROOFS. The law of the terminal queues and their order (R61, R66 to R72). -/

namespace Sys2Proof.Machine

/-! ### Removals, creations, reassignments, show deadlines -/

theorem Part.removeEntries_prm (p : Part) (gone : Assignment → Bool) :
    (p.removeEntries gone).prm = ((p.headless gone).foldl (fun q t => q.becomeHead t) (p.struck gone)).prm :=
  (Part.tripNotices_frame _ p _).2

theorem Part.createEntry_prm (p : Part) (order number terminal boarding destination car deck : Nat) (stepFree : Bool) :
    (p.createEntry order number terminal boarding destination car deck stepFree).prm
      = ((p.withEntry (p.newEntry order number terminal boarding destination car deck stepFree)).enterQueue number terminal
          stepFree).prm :=
  (Part.tripNotices_frame _ p _).2

theorem Part.reassign_prm (p : Part) (a : Assignment) (car deck : Nat) :
    (p.reassign a car deck).prm = (p.movedAnew a car deck).prm :=
  (Part.tripNotices_frame ((p.movedAnew a car deck).reshown a) p _).2.trans (Part.reshown_prm _ a)

theorem Part.showDeadline_prm (p : Part) (t : Nat) :
    (p.showDeadline t).prm = if p.showDeadlineDue t then ((p.endShowing t).becomeHead t).prm else p.prm := by
  unfold Part.showDeadline
  split <;> rfl

/-- A REASSIGN moves no entry to another place of a queue. -/
theorem Part.reassign_roster (p : Part) (a : Assignment) (car deck : Nat) : (p.reassign a car deck).roster = p.roster := by
  have hmoved : (p.moved a car deck).roster = p.roster := p.setAssignment_roster a.number fun _ => rfl
  refine (Part.roster_of_prm (p.reassign_prm a car deck)).trans ?_
  unfold Part.movedAnew
  split
  · exact hmoved
  · exact (Part.promptEstimate_roster ..).trans hmoved

theorem Part.becomeHead_homes (p : Part) (t : Nat) : (p.becomeHead t).homes = p.homes :=
  Part.homes_of_queues (p.becomeHead_queues t)

theorem Part.enterQueue_homes (p : Part) (n t : Nat) (stepFree : Bool) : (p.enterQueue n t stepFree).homes = p.homes := by
  have joined : ∀ q : Part, ((q.referred n t stepFree).promptEstimate n true).homes = q.homes := fun q =>
    (Part.homes_of_roster (Part.promptEstimate_roster ..)).trans (q.referred_homes n t stepFree)
  by_cases hroom : (p.queueOf t).length < Config.queueLimit
  · by_cases hnil : p.queueOf t = []
    · rw [Part.enterQueue_of_empty hnil, Part.becomeHead_homes, joined]
    · rw [Part.enterQueue_of_room hnil hroom, joined]
  · rw [Part.enterQueue_of_full (by omega), Part.becomeHead_homes, joined, p.endShowing_homes]

theorem Part.removeEntries_homes (p : Part) (gone : Assignment → Bool) : (p.removeEntries gone).homes = p.homes :=
  (Part.homes_of_queues (congrArg Prm.queues (p.removeEntries_prm gone))).trans
    ((foldl_keeps Part.homes (fun q t => q.becomeHead_homes t) _ _).trans (p.struck_homes gone))

/-! ### The two laws together -/

/-- The law of the queues, and, when `ordered` asks for it, their order with every entry taken before place `bound`. -/
structure Part.Tidy (ordered : Prop) (bound : Nat) (p : Part) : Prop where
  homed : p.Homed
  lined : p.Lined Nowhere
  order : ordered → p.Ordered bound

theorem Part.tidy_queueLaw (p : Part) : p.Tidy False p.prm.nextOrder ↔ p.queueLaw := by
  rw [Part.queueLaw_iff]
  exact ⟨fun h => ⟨h.homed, h.lined⟩, fun h => ⟨h.1, h.2, nofun⟩⟩

theorem Part.tidy_queueOrder (p : Part) : p.Tidy True p.prm.nextOrder ↔ p.queueLaw ∧ p.queueOrder := by
  rw [Part.queueLaw_iff]
  constructor
  · intro h
    exact ⟨⟨h.homed, h.lined⟩, (Part.queueOrder_iff h.homed h.lined).mpr (h.order trivial)⟩
  · rintro ⟨⟨hhomed, hlined⟩, horder⟩
    exact ⟨hhomed, hlined, fun _ => (Part.queueOrder_iff hhomed hlined).mp horder⟩

section
variable {ordered : Prop} {bound : Nat} {p : Part} (h : p.Tidy ordered bound)
include h

theorem Part.Tidy.of_roster {q : Part} (hnodes : q.nodes = p.nodes) (hroster : q.roster = p.roster) : q.Tidy ordered bound where
  homed := h.homed.congr hnodes (Part.homes_of_roster hroster)
  lined := h.lined.of_roster hroster
  order ho := (h.order ho).of_roster hroster

/-- The take order's next place does not matter to the queues. -/
theorem Part.Tidy.takeNew : p.takeNew.Tidy ordered bound where
  homed := ⟨h.homed.once, h.homed.every⟩
  lined := ⟨⟨h.lined.seated.numbers, h.lined.seated.once, h.lined.seated.seat⟩, h.lined.housed, h.lined.room, h.lined.listed,
    h.lined.headed⟩
  order ho := ⟨(h.order ho).taken, (h.order ho).waiting⟩

theorem Part.Tidy.removeEntries (gone : Assignment → Bool) : (p.removeEntries gone).Tidy ordered bound := by
  have hprm := p.removeEntries_prm gone
  have hheads := ((h.lined.struck gone).becomeHeads (p.headless gone)).mono (off' := Nowhere) fun j hj => hj.1.resolve_right hj.2
  exact ⟨h.homed.congr rfl (p.removeEntries_homes gone), hheads.of_prm hprm,
    fun ho => (((h.order ho).struck h.lined.seated.numbers gone).becomeHeads _).of_prm hprm⟩

theorem Part.Tidy.showDeadline (t : Nat) : (p.showDeadline t).Tidy ordered bound := by
  have hprm := p.showDeadline_prm t
  have hnodes := nodes_of_base (p.showDeadline_base t)
  split at hprm
  · have hhomes : ((p.endShowing t).becomeHead t).homes = p.homes := (Part.becomeHead_homes _ t).trans (p.endShowing_homes t)
    have hhead := ((h.lined.endShowing t).becomeHead t).mono (off' := Nowhere) fun j hj => hj.1.resolve_right hj.2
    exact ⟨h.homed.congr hnodes ((Part.homes_of_queues (congrArg Prm.queues hprm)).trans hhomes), hhead.of_prm hprm,
      fun ho => (((h.order ho).endShowing t).becomeHead t).of_prm hprm⟩
  · exact h.of_roster hnodes (Part.roster_of_prm hprm)

/-- A NEW is created as the newest entry, at a terminal with a queue (R65, R67). -/
theorem Part.Tidy.createEntry {number terminal : Nat} (hfresh : p.assignment number = none) (hhome : terminal ∈ p.homes)
    (boarding destination car deck : Nat) (stepFree : Bool) :
    (p.createEntry bound number terminal boarding destination car deck stepFree).Tidy ordered (bound + 1) := by
  have hprm := p.createEntry_prm bound number terminal boarding destination car deck stepFree
  generalize ha : p.newEntry bound number terminal boarding destination car deck stepFree = a at hprm
  have hnumber : a.number = number := ha ▸ rfl
  have hterminal : a.terminal = terminal := ha ▸ rfl
  have hprompt : a.prompt = .none := ha ▸ rfl
  have horder : a.order = bound := ha ▸ rfl
  have hfree : a.stepFree = stepFree := ha ▸ rfl
  subst hnumber hterminal hfree
  have hself := Part.withEntry_assignment_self hfresh
  have hlined := h.lined.withEntry hfresh hhome hprompt
  have hhomes := (p.withEntry a).enterQueue_homes a.number a.terminal a.stepFree
  have hnewest : p.Ordered bound → ∀ {m b}, m ≠ a.number → (p.withEntry a).assignment m = some b → b.order < a.order :=
    fun ho m b hm hb => horder ▸ ho.taken ((Part.withEntry_assignment hm).symm.trans hb)
  exact ⟨h.homed.congr rfl ((Part.homes_of_queues (congrArg Prm.queues hprm)).trans hhomes),
    (hlined.enterQueue hself rfl _ hprompt).of_prm hprm, fun ho =>
      (((h.order ho).withEntry h.lined.seated hfresh horder).enterQueue hlined hself rfl hprompt (hnewest (h.order ho))).of_prm
        hprm⟩

theorem Part.Tidy.mono {bound' : Nat} (hle : bound ≤ bound') : p.Tidy ordered bound' :=
  ⟨h.homed, h.lined, fun ho => (h.order ho).mono hle⟩

/-! ### Assignment records (R60 to R74) -/

/-- RPT has no part in it. -/
theorem Part.Tidy.onRpt (f : Rpt → Rpt) : (p.onRpt f).Tidy ordered bound := h.of_roster rfl rfl

theorem Part.Tidy.displace (a : Assignment) : (p.displace a).Tidy ordered bound :=
  ((h.removeEntries fun x => x.number = a.number).onRpt (·.count .displaced 1)).onRpt (·.hand p.now (repRetiredDisplaced a.number))

theorem Part.Tidy.dropNew (k t number : Nat) (n : NodeConfig) : (p.dropNew k t number n).Tidy ordered bound := by
  unfold Part.dropNew
  simp only
  split
  · exact h.of_roster rfl rfl
  · exact h.of_roster rfl rfl

theorem Part.Tidy.examineNew (words : List Word) : (p.examineNew bound words).Tidy ordered (bound + 1) := by
  have later := h.mono (Nat.le_succ bound)
  have refused : ∀ k n why, (p.refuseAssign k n why).Tidy ordered (bound + 1) := fun _ _ _ => later.of_roster rfl rfl
  simp only [Part.examineNew]
  split
  · exact refused _ _ _
  · next n hn =>
    have hhome := h.homed.mem hn
    split
    · exact later.dropNew _ _ _ _
    · split
      · exact refused _ _ _
      · split
        · exact refused _ _ _
        · next hfresh =>
          have hfresh : p.assignment (assignNumber words) = none := by simpa using hfresh
          split
          · split
            · exact refused _ _ _
            · next a _ =>
              have hroom : (p.displace a).homes = p.homes := p.removeEntries_homes _
              exact (h.displace a).createEntry (Part.removeEntries_assignment_none hfresh _) (hroom ▸ hhome) _ _ _ _ _
          · exact h.createEntry hfresh hhome _ _ _ _ _

end

theorem Part.removeEntries_nextOrder (p : Part) (gone : Assignment → Bool) :
    (p.removeEntries gone).prm.nextOrder = p.prm.nextOrder := congrArg Ledger.nextOrder (p.removeEntries_ledger gone)

theorem Part.createEntry_nextOrder (p : Part) (order number terminal boarding destination car deck : Nat) (stepFree : Bool) :
    (p.createEntry order number terminal boarding destination car deck stepFree).prm.nextOrder = p.prm.nextOrder :=
  congrArg Ledger.nextOrder (p.createEntry_ledger order number terminal boarding destination car deck stepFree)

theorem Part.showDeadline_nextOrder (p : Part) (t : Nat) : (p.showDeadline t).prm.nextOrder = p.prm.nextOrder := by
  rw [Part.showDeadline_prm]
  split
  · exact congrArg Ledger.nextOrder ((Part.becomeHead_ledger _ t).trans (p.endShowing_ledger t))
  · rfl

theorem Part.examineNew_nextOrder (p : Part) (order : Nat) (words : List Word) :
    (p.examineNew order words).prm.nextOrder = p.prm.nextOrder := by
  simp only [Part.examineNew]
  split
  · rfl
  · split
    · simp only [Part.dropNew]
      split <;> rfl
    · split
      · rfl
      · split
        · rfl
        · split
          · split
            · rfl
            · exact (Part.createEntry_nextOrder ..).trans (p.removeEntries_nextOrder _)
          · exact Part.createEntry_nextOrder ..

/-- The law after an assignment record. -/
theorem Part.Tidy.prmRecord {ordered : Prop} {p : Part} (h : p.Tidy ordered p.prm.nextOrder) (slot : Nat) (words : List Word) :
    (p.prmRecord slot words).Tidy ordered (p.prmRecord slot words).prm.nextOrder := by
  unfold Part.prmRecord
  split
  · have hnext : (p.prmNew words).prm.nextOrder = p.prm.nextOrder + 1 := Part.examineNew_nextOrder _ _ _
    rw [hnext]
    exact h.takeNew.examineNew words
  · unfold Part.prmCancel
    split
    · exact h.of_roster rfl rfl
    · rw [Part.removeEntries_nextOrder]
      exact h.removeEntries _
  · simp only [Part.prmReassign]
    split
    · exact h.of_roster rfl rfl
    · split
      · exact h.of_roster rfl rfl
      · split
        · exact h
        · have hroster := p.reassign_roster (by assumption) (assignCar words) (assignDeck words)
          rw [show (p.reassign _ _ _).prm.nextOrder = p.prm.nextOrder from congrArg Roster.nextOrder hroster]
          exact h.of_roster (nodes_of_base (Part.reassign_base ..)) hroster
  · exact h.of_roster rfl rfl

/-! ### Blocks formed anew (R85) -/

/-- With an empty table and one empty queue per TERMINAL the law holds. -/
theorem Part.Tidy.of_empty {ordered : Prop} {bound : Nat} {p : Part} (hhomed : p.Homed) (htable : p.prm.table = [])
    (hqueues : ∀ t, p.queueOf t = []) : p.Tidy ordered bound := by
  have hnone : ∀ n, p.assignment n = none := fun n => by rw [Part.assignment, htable, List.find?_nil]
  have absent : ∀ {n a}, p.assignment n ≠ some a := fun ha => by
    rw [hnone] at ha
    cases ha
  refine ⟨hhomed, ⟨⟨by rw [htable]; exact List.nodup_nil, fun t => ?_, fun hn => ?_⟩, fun ha => absurd ha absent, fun t => ?_,
    fun ha => absurd ha absent, fun _ hhead => ?_⟩, fun _ => ⟨fun ha => absurd ha absent, fun t => ?_⟩⟩
  · rw [hqueues]
    exact List.nodup_nil
  · rw [hqueues] at hn
    cases hn
  · rw [hqueues]
    exact Nat.zero_le _
  · rw [hqueues] at hhead
    cases hhead
  · rw [hqueues]
    exact List.Pairwise.nil

theorem freshPrm_homes (nodes : List (Option NodeConfig)) :
    (freshPrm nodes).queues.map (·.terminal)
      = (List.range nodes.length).filter fun j => ((nodes[j]?).join).any fun n => n.type = .terminal := by
  simp only [freshPrm, List.map_filterMap]
  rw [← List.filterMap_eq_filter]
  refine List.filterMap_congr fun j _ => ?_
  cases hnode : (nodes[j]?).join with
  | none => simp [Option.guard, hnode]
  | some n => by_cases hn : n.type = .terminal <;> simp [Option.guard, hnode, hn]

theorem Part.Fresh.homed {p : Part} (h : p.Fresh) : p.Homed := by
  have hhomes := freshPrm_homes p.nodes
  rw [← h.prm, ← Part.homes] at hhomes
  refine ⟨hhomes ▸ List.nodup_range.filter _, fun j hj hterminal => ?_⟩
  obtain ⟨n, hn⟩ := Option.isSome_iff_exists.mp hterminal
  obtain ⟨hnode, htype⟩ := Part.terminalNode_eq_some.mp hn
  have hnode : (p.nodes[j]?).join = some n := hnode
  rw [hhomes]
  refine List.mem_filter.mpr ⟨List.mem_range.mpr hj, ?_⟩
  simp [hnode, htype]

/-! ### The step lemma -/

theorem tidy_stationLaw (ordered : Prop) : StationLaw fun p => p.Tidy ordered p.prm.nextOrder where
  same {p q} h hsame := by
    have hroster : q.roster = p.roster := congrArg Stations.roster hsame
    rw [show q.prm.nextOrder = p.prm.nextOrder from congrArg Roster.nextOrder hroster]
    exact h.of_roster (congrArg Stations.nodes hsame) hroster
  reset anchor lines := by
    refine .of_empty ⟨List.nodup_nil, fun j _ hterminal => ?_⟩ rfl fun _ => rfl
    rw [Part.terminalNode, Part.reset_node] at hterminal
    cases hterminal
  formed p t := by
    have hfresh := p.replaced_fresh t
    exact .of_empty hfresh.homed (by rw [hfresh.prm]; rfl) hfresh.queueOf
  removed p gone h := by
    rw [Part.removeEntries_nextOrder]
    exact h.removeEntries gone
  recorded _ slot words h := h.prmRecord slot words
  shown p j h := by
    rw [Part.showDeadline_nextOrder]
    exact h.showDeadline j
  activated p k h := by
    have retired : ∀ (q : Part) gone w, q.Tidy ordered q.prm.nextOrder →
        (q.retireEntries gone w).Tidy ordered (q.retireEntries gone w).prm.nextOrder := fun q gone w hq => by
      unfold Part.retireEntries
      simp only
      split
      · exact hq
      · show ((q.removeEntries gone).report _).Tidy ordered (q.removeEntries gone).prm.nextOrder
        rw [Part.removeEntries_nextOrder]
        exact (hq.removeEntries gone).onRpt _
    have flushed : ∀ q : Part, q.Tidy ordered q.prm.nextOrder → (q.prmFlush k).Tidy ordered (q.prmFlush k).prm.nextOrder :=
      fun q hq => retired { q with prm := { q.prm with dropReported := q.prm.dropReported.set k false } } _ _
        (hq.of_roster rfl rfl)
    have handed : ∀ (q : Part) w, q.Tidy ordered q.prm.nextOrder →
        (q.cmpChannelChange.report w).Tidy ordered (q.cmpChannelChange.report w).prm.nextOrder := fun q w hq => hq.of_roster rfl rfl
    exact handed _ _ (flushed (p.setChannel k { p.channel k with latch := true }) (h.of_roster rfl rfl))
  cleared p k h := by
    unfold Part.clearLatch
    split
    · exact h.of_roster rfl rfl
    · exact h

/-- Settles O12: every operation of PRM keeps the law of the queues, each queue without its head until the operation's last
part chooses it, and a reference joins at its ordered place, as the newest in the take order. -/
theorem stepKeepsQueues : Obligations.StepKeepsQueues := by
  refine ⟨fun s t h hstep => ?_, fun s t h horder hstep => ?_⟩
  · exact t.part.tidy_queueLaw.mp
      ((tidy_stationLaw False).stepInvariant.step hstep (s.part.tidy_queueLaw.mpr h))
  · exact (t.part.tidy_queueOrder.mp
      ((tidy_stationLaw True).stepInvariant.step hstep (s.part.tidy_queueOrder.mpr ⟨h, horder⟩))).2

end Sys2Proof.Machine
end

section
/-! SUPPORT and PROOFS. What a command of PRM leaves of a part whose text fetch reads: the records of the assignment window but for
NEW, show deadlines and lifetimes (R60 to R64, R69 to R74, R78). -/

namespace Sys2Proof.Machine

/-! ### An operation of PRM and the end of its command -/

/-- `r` is what a command leaves of `p` whose operation in PRM came to `q`: PRM and the display side of `q`, where the report writer
chooses anew, and everything else as `p` has it. -/
structure Part.Ends (p q r : Part) : Prop where
  prm : r.prm = q.prm
  disp : r.disp = { q.disp with rpt := q.disp.rpt.choose }
  trk : r.trk = p.trk
  arr : r.arr = p.arr
  texts : r.sameTexts p
  config : r.sameConfig p
  clock : r.sameClock p

theorem Part.Ends.of_settle {p q : Part} (hreading : p.txf.headReading = true) (hbase : q.base = p.base) (htrk : q.trk = p.trk)
    (harr : q.arr = p.arr) (htext : q.text = p.text) : p.Ends q q.settle := by
  have htxf : q.txf = p.txf := congrArg (fun y => y.2.1) htext
  obtain ⟨⟨hmsg, htxf', htrg, hovr⟩, hdisp⟩ := Part.settle_sameTexts (p := q) (htxf ▸ hreading)
  obtain ⟨hmsg', htxf'', htrg', hovr'⟩ := Part.sameTexts_of_text htext
  obtain ⟨hconfig, hclock⟩ := Part.settle_same_of_base hbase
  exact ⟨q.settle_prm, hdisp, q.settle_trk.trans htrk, q.settle_arr.trans harr,
    ⟨hmsg.trans hmsg', htxf'.trans htxf'', htrg.trans htrg', hovr.trans hovr'⟩, hconfig, hclock⟩

section
variable {p q r : Part} (h : p.Ends q r)
include h

theorem Part.Ends.waiting : r.disp.rpt.waiting = q.disp.rpt.waiting := by
  rw [h.disp]
  exact Rpt.choose_waiting _

theorem Part.Ends.counter (c : CounterId) : r.disp.rpt.counter c = q.disp.rpt.counter c := by
  rw [h.disp, Rpt.counter, Rpt.counter]
  exact congrArg (·.getD c.index 0) (Rpt.choose_counters _)

theorem Part.Ends.links : r.sameLinks q := by
  rw [Part.sameLinks, h.disp]
  exact ⟨rfl, rfl⟩

theorem Part.Ends.queueOf (t : Nat) : r.queueOf t = q.queueOf t := by
  rw [Part.queueOf, h.prm, Part.queueOf]

theorem Part.Ends.assignment (n : Nat) : r.assignment n = q.assignment n := by
  rw [Part.assignment, h.prm, Part.assignment]

theorem Part.Ends.cores : r.prm.table.map (·.core) = q.ledger.entries := by
  rw [h.prm]
  rfl

end

/-- A record of the assignment window is PRM's operation on it. -/
theorem State.Takes.assignment {s : State} {a : Addr} {data : Word} {be : BitVec 4} {slot : Nat} {words : List Word}
    (h : s.Takes a data be 2 slot words) (hrest : s.part.atRest) :
    (s.hostWrite a data be).mem = writeWord s.mem a data be
      ∧ ∃ x : Path, s.part.Ends ((s.part.onPath fun _ => x).prmRecord slot words) (s.hostWrite a data be).part := by
  obtain ⟨x, hwatch, hanchor, -, hwrite⟩ := h.hostWrite
  have hends : (s.part.onPath fun _ => x).Ends ((s.part.onPath fun _ => x).prmRecord slot words)
      ((s.part.onPath fun _ => x).prmRecord slot words).settle :=
    .of_settle hrest.1 (Part.prmRecord_base ..) (Part.prmRecord_trk ..) (Part.prmRecord_arr ..) (Part.prmRecord_text ..)
  refine ⟨congrArg State.mem hwrite, x, ?_⟩
  have hpart : (s.hostWrite a data be).part = ((s.part.onPath fun _ => x).prmRecord slot words).settle :=
    congrArg State.part hwrite
  rw [hpart]
  exact ⟨hends.prm, hends.disp, hends.trk, hends.arr, hends.texts, hends.config.trans ⟨rfl, rfl, rfl, hwatch, hanchor⟩, hends.clock⟩

/-- An event of PRM. -/
theorem State.event_ends {s : State} {f : Part → Part} (hrest : s.part.atRest) (hbase : (f s.part).base = s.part.base)
    (htrk : (f s.part).trk = s.part.trk) (harr : (f s.part).arr = s.part.arr) (htext : (f s.part).text = s.part.text) :
    s.part.Ends (f s.part) (s.event f).part := .of_settle hrest.1 hbase htrk harr htext

theorem Part.counters_length_of_shaped {p : Part} (h : p.shaped = true) : p.disp.rpt.counters.length = 16 := by
  simp only [Part.shaped, Bool.and_eq_true, decide_eq_true_eq] at h
  exact h.2

/-! ### LIFETIME (R78) -/

/-- Settles O49: the entries past their life leave and are counted. -/
theorem lifetimeCompletes : Obligations.LifetimeCompletes := by
  intro s hrest hshaped
  have hends := State.event_ends (f := (·.lifetime)) hrest (Part.lifetime_base _) (Part.lifetime_trk _) (Part.lifetime_arr _)
    (Part.lifetime_text _)
  have hledger := s.part.lifetime_ledger
  refine ⟨s.event (·.lifetime), rfl, rfl, ?_, ?_, hends.waiting.trans (congrArg (fun l : Ledger => l.stock.waiting) hledger :),
    hends.trk, hends.arr, hends.texts, hends.config, hends.clock⟩
  · refine (hends.cores.trans (congrArg Ledger.entries hledger)).trans (congrArg _ (List.filter_congr fun a _ => ?_))
    rw [Part.pastLife, ← decide_not]
    exact decide_eq_decide.mpr Nat.not_le
  · rw [hends.counter]
    exact s.part.lifetime_expired (Part.counters_length_of_shaped hshaped)

/-! ### SHOW_DEADLINE (R69, R70) -/

/-- In a queue without a SHOWING head, the first reference becomes head. -/
theorem Part.Seated.becomeHead_first {p : Part} (h : p.Seated) {t n : Nat} {rest : List Nat} (hnone : p.promptHead t = none)
    (hqueue : p.queueOf t = n :: rest) :
    ∃ a, p.assignment n = some a ∧ ∀ m, (p.becomeHead t).assignment m
      = if m = n then some (a.heading (p.after (showInterval p.params (rest.length + 1) a.stepFree))) else p.assignment m := by
  obtain ⟨a, ha, -, hprompt, -⟩ := h.entry (t := t) (n := n) (by rw [hqueue]; exact List.mem_cons_self)
  have hqueued : a.prompt = .queued := by
    rw [Part.promptHead_eq, hqueue] at hnone
    cases hp : a.prompt with
    | queued => rfl
    | none => exact absurd hp hprompt
    | showing => simp [ha, Assignment.shownPrompt, hp] at hnone
  exact ⟨a, ha, Part.becomeHead_assignment hqueue ha hqueued⟩

theorem showInterval_eq (params : Params) (references : Nat) (stepFree : Bool) :
    showInterval params references stepFree
      = (if stepFree then 2 else 1) * (if references ≤ 1 then params.promptShowMs else params.promptBusyMs) := by
  unfold showInterval
  cases stepFree <;> simp

theorem Part.endShowing_after (p : Part) (t d : Nat) : (p.endShowing t).after d = p.after d := by
  rw [← p.endShowing_frame t]
  rfl

theorem Part.endShowing_params (p : Part) (t : Nat) : (p.endShowing t).params = p.params := by
  rw [← p.endShowing_frame t]

theorem Part.showDeadline_ledger (p : Part) (t : Nat) : (p.showDeadline t).ledger = p.ledger := by
  unfold Part.showDeadline
  split
  · exact Part.onlyPrm_ledger ((Part.becomeHead_ledger _ t).trans (p.endShowing_ledger t)) rfl rfl
  · rfl

/-- Settles O48: the head leaves its queue without a prompt, and the first of the references left is SHOWING. -/
theorem showDeadlineCompletes : Obligations.ShowDeadlineCompletes := by
  intro s j n rest hj hrest hlaw hdue hqueue
  have hends := State.event_ends (f := (·.showDeadline j)) hrest (Part.showDeadline_base _ j) (Part.showDeadline_trk _ j)
    (Part.showDeadline_arr _ j) (Part.showDeadline_text _ j)
  have hledger := s.part.showDeadline_ledger j
  have hprm := s.part.showDeadline_prm j
  rw [if_pos hdue, ← hends.prm] at hprm
  have hseated := hlaw.seated
  have hended := hseated.endShowing j
  have hnone := hseated.endShowing_headless j
  have hleft : (s.part.endShowing j).queueOf j = rest := by rw [Part.endShowing_queueOf, if_pos rfl, hqueue, List.tail_cons]
  have hqueues : ∀ k, (s.event (·.showDeadline j)).part.queueOf k = (s.part.endShowing j).queueOf k := fun k => by
    rw [Part.queueOf, hprm, ← Part.queueOf, Part.becomeHead_queueOf]
  have hentries : ∀ m, (s.event (·.showDeadline j)).part.assignment m = ((s.part.endShowing j).becomeHead j).assignment m :=
    fun m => by rw [Part.assignment, hprm, Part.assignment]
  obtain ⟨a, ha, -⟩ := hseated.entry (t := j) (n := n) (by rw [hqueue]; exact List.mem_cons_self)
  have hout : n ∉ rest := (List.nodup_cons.mp (hqueue ▸ hseated.once j)).1
  have hhead := Part.endShowing_assignment_head hqueue ha
  refine ⟨s.event (·.showDeadline j), unitStep_of_true (by simpa using hj) _, rfl, (hqueues j).trans hleft, ?_, fun n' e hn' he => ?_,
    hends.cores.trans (congrArg Ledger.entries hledger), fun j' hj' => ?_,
    hends.waiting.trans (congrArg (fun l : Ledger => l.stock.waiting) hledger :), hends.trk, hends.arr, hends.texts, hends.config,
    hends.clock⟩
  · refine ⟨a.ended, ?_, rfl, rfl, rfl⟩
    rw [hentries]
    cases rest with
    | nil =>
      rw [Part.becomeHead_nil hleft]
      exact hhead
    | cons n' l =>
      obtain ⟨b, -, hnew⟩ := hended.becomeHead_first hnone hleft
      rw [hnew, if_neg fun heq : n = n' => hout (heq ▸ List.mem_cons_self), hhead]
  · obtain ⟨l, rfl⟩ := List.head?_eq_some_iff.mp hn'
    obtain ⟨b, hb, hnew⟩ := hended.becomeHead_first hnone hleft
    rw [(hseated.endShowing_entry (t := j) (j := j) (m := n') (by rw [hleft]; exact List.mem_cons_self)).2.1, he,
      Option.some.injEq] at hb
    subst hb
    refine ⟨_, by rw [hentries, hnew, if_pos rfl], rfl, ?_⟩
    rw [Assignment.heading, Part.endShowing_after, Part.endShowing_params, showInterval_eq]
    rfl
  · rw [hqueues, Part.endShowing_queueOf, if_neg hj']

end Sys2Proof.Machine
end

section
/-! SUPPORT and PROOFS. CANCEL, REASSIGN, and the records PRM refuses or drops (R60 to R64, R72 to R74). -/

namespace Sys2Proof.Machine

/-! ### The kinds of records (R60) -/

section
variable {words : List Word} (p : Part) (slot : Nat)

theorem Part.prmRecord_new (h : assignKind words = 1) : p.prmRecord slot words = p.prmNew words := by
  simp only [Part.prmRecord, h]

theorem Part.prmRecord_cancel (h : assignKind words = 2) : p.prmRecord slot words = p.prmCancel words := by
  simp only [Part.prmRecord, h]

theorem Part.prmRecord_reassign (h : assignKind words = 3) : p.prmRecord slot words = p.prmReassign words := by
  simp only [Part.prmRecord, h]

end

/-- A record with an unknown number is counted, and nothing else (R73, R74). -/
theorem Part.Ends.unknown {p p' r : Part} (h : p.Ends (p'.count .unknownNumber 1) r) (hprm : p'.prm = p.prm)
    (hdisp : p'.disp = p.disp) (hshaped : p.shaped = true) :
    r.prm = p.prm ∧ r.sameLinks p
      ∧ (r.disp.rpt.counter .unknownNumber).toNat = min 65535 ((p.disp.rpt.counter .unknownNumber).toNat + 1)
      ∧ r.disp.rpt.waiting = p.disp.rpt.waiting := by
  have hwaiting : (p'.count .unknownNumber 1).disp.rpt.waiting = p'.disp.rpt.waiting :=
    Rpt.count_keeps (·.waiting) (fun _ _ _ => rfl) _ _ _
  obtain ⟨hcmp, hlnk⟩ := h.links
  refine ⟨h.prm.trans hprm, ⟨hcmp.trans (congrArg Disp.cmp hdisp :), hlnk.trans (congrArg Disp.lnk hdisp :)⟩, ?_,
    h.waiting.trans (hwaiting.trans (congrArg (·.rpt.waiting) hdisp))⟩
  rw [h.counter, ← hdisp]
  exact Rpt.counter_count_same _ (hdisp ▸ Part.counters_length_of_shaped hshaped) .unknownNumber 1

/-! ### CANCEL (R72, R73) -/

/-- A removal drops the numbers of those that leave from every queue. -/
theorem Part.removeEntries_queueOf (p : Part) (gone : Assignment → Bool) (j : Nat) :
    (p.removeEntries gone).queueOf j = (p.queueOf j).filter fun n => !(p.goneNumbers gone).contains n := by
  have hkept : ((p.headless gone).foldl (fun q t => q.becomeHead t) (p.struck gone)).queueOf j = (p.struck gone).queueOf j :=
    foldl_keeps (fun q : Part => q.queueOf j) (fun q t => q.becomeHead_queueOf t j) (p.headless gone) (p.struck gone)
  rw [← p.struck_queueOf, ← hkept, Part.queueOf, p.removeEntries_prm, ← Part.queueOf]

theorem Part.assignment_eq_none {p : Part} {n : Nat} : p.assignment n = none ↔ ∀ a ∈ p.prm.table, a.number ≠ n := by
  simp [Part.assignment, List.find?_eq_none]

/-- Settles O38: the number's entry and references are struck out, or one unknown number is counted. -/
theorem assignCancelCompletes : Obligations.AssignCancelCompletes := by
  intro s a data be slot words htakes hrest hshaped hkind
  obtain ⟨hmem, x, hends⟩ := htakes.assignment hrest
  generalize hp : s.part.onPath (fun _ => x) = p at hends
  have hprm : p.prm = s.part.prm := hp ▸ rfl
  have hdisp : p.disp = s.part.disp := hp ▸ rfl
  have hentry : p.assignment (assignNumber words) = s.part.assignment (assignNumber words) := hp ▸ rfl
  rw [p.prmRecord_cancel slot hkind, Part.prmCancel] at hends
  refine ⟨s.hostWrite a data be, rfl, hmem, ?_⟩
  cases hlive : s.part.assignment (assignNumber words) with
  | none =>
    rw [hentry, hlive] at hends
    have hall : s.part.prm.table.filter (fun x => x.number ≠ assignNumber words) = s.part.prm.table :=
      List.filter_eq_self.mpr fun y hy => by simpa using Part.assignment_eq_none.mp hlive y hy
    obtain ⟨hsame, hlinks, hcounted, hwaiting⟩ := hends.unknown hprm hdisp hshaped
    exact ⟨by rw [hall, hsame], nofun, fun _ => ⟨hsame, hlinks, hcounted⟩, hwaiting, hends.trk, hends.arr, hends.texts, hends.config,
      hends.clock⟩
  | some e =>
    rw [hentry, hlive] at hends
    have hledger := p.removeEntries_ledger fun a => a.number = assignNumber words
    refine ⟨?_, fun _ j hin => ?_, nofun, ?_, hends.trk, hends.arr, hends.texts, hends.config, hends.clock⟩
    · rw [hends.cores, hledger, ← hprm]
      exact congrArg _ (List.filter_congr fun y _ => (decide_not ..).symm)
    · rw [hends.queueOf, Part.removeEntries_queueOf, List.mem_filter] at hin
      have hgone : assignNumber words ∈ p.goneNumbers fun a => a.number = assignNumber words := by
        have hnumber := Part.assignment_number hlive
        exact List.mem_map.mpr ⟨e, List.mem_filter.mpr ⟨hprm ▸ Part.assignment_mem hlive, by simpa using hnumber⟩, hnumber⟩
      simp [hgone] at hin
    · exact hends.waiting.trans ((congrArg (fun l : Ledger => l.stock.waiting) hledger :).trans (congrArg (·.rpt.waiting) hdisp))

/-! ### REASSIGN (R74) -/

/-- What does not read an estimate, an estimate leaves. -/
theorem Part.promptEstimate_table {α : Type} {f : Assignment → α} (hf : ∀ a e, f { a with estimate := e } = f a) (p : Part) (n : Nat)
    (fresh : Bool) : (p.promptEstimate n fresh).prm.table.map f = p.prm.table.map f := by
  have held : ∀ (q : Part) old new, (q.setHeld n old new).prm.table.map f = q.prm.table.map f := fun q old new => by
    have hset : (q.setAssignment n (·.holding new)).prm.table.map f = q.prm.table.map f := by
      simp only [Part.setAssignment, List.map_map]
      refine List.map_congr_left fun a _ => ?_
      simp only [Function.comp_apply]
      split
      · exact hf a _
      · rfl
    rw [Part.setHeld_eq]
    split
    · exact hset
    · rw [Part.cmpEstimateChange_prm]
      exact hset
  unfold Part.promptEstimate
  rw [Part.onlyArr_prm]
  split
  · rfl
  · split
    · rfl
    · simp only
      split
      · exact held _ _ _
      · exact held _ _ _

/-- What reads neither an estimate nor the car, deck and phase, a REASSIGN leaves. -/
theorem Part.reassign_table {α : Type} {f : Assignment → α} (hf : ∀ a e, f { a with estimate := e } = f a)
    (hf' : ∀ c d o a, f (a.movedTo c d o) = f a) (p : Part) (a : Assignment) (car deck : Nat) :
    (p.reassign a car deck).prm.table.map f = p.prm.table.map f := by
  have hmoved : (p.moved a car deck).prm.table.map f = p.prm.table.map f := by
    rw [Part.moved_eq]
    simp only [Part.setAssignment, List.map_map]
    refine List.map_congr_left fun b _ => ?_
    simp only [Function.comp_apply]
    split
    · exact hf' _ _ _ b
    · rfl
  rw [Part.reassign_prm, Part.movedAnew]
  split
  · exact hmoved
  · exact (Part.promptEstimate_table hf ..).trans hmoved

/-- The entry that a REASSIGN moves, among the others. -/
theorem Part.reassign_cores (p : Part) (a : Assignment) (car deck : Nat) :
    (p.reassign a car deck).ledger.entries
      = p.prm.table.map fun x => if x.number = a.number then
          { x.core with car := car, deck := deck, isBoarding := p.standsOpenAt car deck a.boarding } else x.core := by
  have hentries : (p.reassign a car deck).ledger.entries = _ := congrArg Ledger.entries (p.reassign_ledger a car deck)
  rw [hentries, Part.moved]
  simp only [Part.ledger, Part.setAssignment, List.map_map]
  refine List.map_congr_left fun x _ => ?_
  simp only [Function.comp_apply]
  split <;> rfl

/-- Settles O39: one entry gets the record's car, deck and phase, or nothing changes when it has them. -/
theorem assignReassignCompletes : Obligations.AssignReassignCompletes := by
  refine ⟨fun s a data be slot words e htakes hrest hkind hlive hpass => ?_,
    fun s a data be slot words htakes hrest hshaped hkind hlive => ?_⟩
  · obtain ⟨hmem, x, hends⟩ := htakes.assignment hrest
    refine ⟨s.hostWrite a data be, rfl, hmem, ?_⟩
    have hopen : ∀ c d f, (s.part.onPath fun _ => x).standsOpenAt c d f = s.part.standsOpenAt c d f := fun _ _ _ => rfl
    generalize hp : s.part.onPath (fun _ => x) = p at hends hopen
    have hprm : p.prm = s.part.prm := hp ▸ rfl
    have hdisp : p.disp = s.part.disp := hp ▸ rfl
    have hentry : p.assignment (assignNumber words) = some e := hp ▸ hlive
    have hcheck : p.checkCar (assignCar words) (assignDeck words) e.boarding e.destination = none := hp ▸ hpass
    rw [p.prmRecord_reassign slot hkind] at hends
    simp only [Part.prmReassign, hentry, hcheck] at hends
    by_cases hsame : e.car = assignCar words ∧ e.deck = assignDeck words
    · rw [if_pos (by simpa using hsame)] at hends
      have hwhole := hends.disp
      rw [hdisp, hrest.2.1] at hwhole
      have hprm' := hends.prm.trans hprm
      refine ⟨?_, by rw [hprm'], by rw [hprm'], by rw [hprm'], by rw [hwhole],
        fun _ _ => ⟨hprm', hwhole, congrArg Disp.cmp hwhole, congrArg Disp.lnk hwhole⟩, hends.trk, hends.arr, hends.texts, hends.config, hends.clock⟩
      rw [hprm']
      exact List.map_congr_left fun y _ => by rw [if_neg fun h => h.2 hsame]
    · rw [if_neg (by simpa using hsame)] at hends
      have hcores := p.reassign_cores e (assignCar words) (assignDeck words)
      have hledger := p.reassign_ledger e (assignCar words) (assignDeck words)
      have hroster := p.reassign_roster e (assignCar words) (assignDeck words)
      refine ⟨?_, ?_, ?_, ?_, ?_, fun hcar hdeck => absurd ⟨hcar, hdeck⟩ hsame, hends.trk, hends.arr, hends.texts, hends.config,
        hends.clock⟩
      · rw [hends.cores, hcores, hprm, Part.assignment_number hlive]
        exact List.map_congr_left fun y _ => by simp only [hsame, not_false_eq_true, and_true, hopen]
      · rw [hends.prm, ← hprm]
        exact Part.reassign_table (f := (·.prompt)) (fun _ _ => rfl) (fun _ _ _ _ => rfl) ..
      · rw [hends.prm, ← hprm]
        exact Part.reassign_table (f := (·.deadline)) (fun _ _ => rfl) (fun _ _ _ _ => rfl) ..
      · rw [hends.prm, ← hprm]
        exact congrArg Roster.queues hroster
      · rw [hends.waiting, ← hdisp]
        exact congrArg (fun l : Ledger => l.stock.waiting) hledger
  · obtain ⟨hmem, x, hends⟩ := htakes.assignment hrest
    have hentry : (s.part.onPath fun _ => x).assignment (assignNumber words) = none := hlive
    rw [Part.prmRecord_reassign _ slot hkind] at hends
    simp only [Part.prmReassign, hentry] at hends
    obtain ⟨hsame, hlinks, hcounted, hwaiting⟩ := hends.unknown rfl rfl hshaped
    exact ⟨s.hostWrite a data be, rfl, hmem, hsame, hlinks, hcounted, hwaiting, hends.trk, hends.arr, hends.texts, hends.config,
      hends.clock⟩

/-! ### The checks of a NEW (R62 to R64) -/

section
variable {p : Part} {words : List Word} (order : Nat)

theorem Part.examineNew_badTerminal (h : p.terminalNode (assignTerminal words) = none) :
    p.examineNew order words = p.refuseAssign 1 (assignNumber words) .badTerminal := by
  simp only [Part.examineNew, h]

variable {n : NodeConfig} (hn : p.terminalNode (assignTerminal words) = some n)
include hn

theorem Part.examineNew_dropped {k : Nat} (h : p.governing n = some k) :
    p.examineNew order words = p.dropNew k (assignTerminal words) (assignNumber words) n := by
  simp only [Part.examineNew, hn, h]

variable (hclear : p.governing n = none)
include hclear

theorem Part.examineNew_failed {why : AssignReason}
    (h : p.checkCar (assignCar words) (assignDeck words) n.floor (assignDestination words) = some why) :
    p.examineNew order words = p.refuseAssign 1 (assignNumber words) why := by
  simp only [Part.examineNew, hn, hclear, h]

variable (hcheck : p.checkCar (assignCar words) (assignDeck words) n.floor (assignDestination words) = none)
include hcheck

theorem Part.examineNew_duplicate (h : (p.assignment (assignNumber words)).isSome = true) :
    p.examineNew order words = p.refuseAssign 1 (assignNumber words) .duplicate := by
  simp only [Part.examineNew, hn, hclear, hcheck, h, if_true]

variable (hfresh : p.assignment (assignNumber words) = none)
include hfresh

theorem Part.examineNew_creates (h : p.prm.table.length < Config.maxAssignments) :
    p.examineNew order words = p.createEntry order (assignNumber words) (assignTerminal words) n.floor (assignDestination words)
      (assignCar words) (assignDeck words) (assignStepFree words) := by
  simp only [Part.examineNew, hn, hclear, hcheck, hfresh, Nat.not_le.mpr h, Option.isSome_none, Bool.false_eq_true, if_false]

variable (hfull : Config.maxAssignments ≤ p.prm.table.length)
include hfull

theorem Part.examineNew_tableFull (h : p.displaceable = none) :
    p.examineNew order words = p.refuseAssign 1 (assignNumber words) .tableFull := by
  simp only [Part.examineNew, hn, hclear, hcheck, hfresh, hfull, h, Option.isSome_none, Bool.false_eq_true, if_false, if_true]

theorem Part.examineNew_displaces {v : Assignment} (h : p.displaceable = some v) :
    p.examineNew order words = (p.displace v).createEntry order (assignNumber words) (assignTerminal words) n.floor
      (assignDestination words) (assignCar words) (assignDeck words) (assignStepFree words) := by
  simp only [Part.examineNew, hn, hclear, hcheck, hfresh, hfull, h, Option.isSome_none, Bool.false_eq_true, if_false, if_true]

end

theorem Part.displaceable_eq_none {p : Part} (h : ∀ x ∈ p.prm.table, x.isBoarding = true ∨ x.prompt ≠ .none) :
    p.displaceable = none := by
  have hnone : p.prm.table.filter (fun a => !a.isBoarding && a.prompt = .none) = [] :=
    List.filter_eq_nil_iff.mpr fun x hx => by
      obtain hboarding | hprompt := h x hx
      · simp [hboarding]
      · simp [hprompt]
  rw [Part.displaceable, hnone]
  rfl

/-! ### Checks 3 to 5 (R62) -/

theorem Part.checkCar_badCar {p : Part} {car deck : Nat} (h : ∀ cfg, p.carConfig car = some cfg → cfg.decks ≤ deck)
    (boarding destination : Nat) : p.checkCar car deck boarding destination = some .badCar := by
  have hdeck : p.isDeck car deck = false := by
    unfold Part.isDeck Part.decksOf
    cases hcfg : p.carConfig car with
    | none => rfl
    | some cfg => simpa using h cfg hcfg
  simp [Part.checkCar, hdeck]

theorem Part.checkCar_of_deck {p : Part} {car deck : Nat} {cfg : CarConfig} (hcfg : p.carConfig car = some cfg)
    (hlt : deck < cfg.decks) (boarding destination : Nat) :
    p.checkCar car deck boarding destination =
      (if p.serves car deck boarding = false ∨ p.serves car deck destination = false ∨ destination = boarding then
        some .notServed
      else if p.prm.withdrawn.getD car false then some .carWithdrawn else none) := by
  have hdeck : p.isDeck car deck = true := by simp [Part.isDeck, Part.decksOf, hcfg, hlt]
  simp [Part.checkCar, hdeck, or_assoc]

/-! ### Refusals and drops (R62 to R64) -/

/-- A refusal is counted and reported, and nothing else. -/
theorem Part.Ends.refused {p p' r : Part} {k n : Nat} {why : AssignReason} (h : p.Ends (p'.refuseAssign k n why) r)
    (hdisp : p'.disp = p.disp) (hnow : p'.now = p.now) (hshaped : p.shaped = true) :
    (r.disp.rpt.counter .assignRefusal).toNat = min 65535 ((p.disp.rpt.counter .assignRefusal).toNat + 1)
      ∧ r.disp.rpt.waiting = (p.disp.rpt.hand p.now (repAssignRefused k n why)).waiting
      ∧ r.sameLinks p := by
  obtain ⟨hcmp, hlnk⟩ := h.links
  refine ⟨?_, ?_, ⟨hcmp.trans (congrArg Disp.cmp hdisp :), hlnk.trans (congrArg Disp.lnk hdisp :)⟩⟩
  · rw [h.counter, ← hdisp]
    exact (congrArg BitVec.toNat (Rpt.counter_hand _ _ _ (by decide))).trans
      (Rpt.counter_count_same _ (hdisp ▸ Part.counters_length_of_shaped hshaped) .assignRefusal 1)
  · rw [h.waiting, ← hdisp, ← hnow]
    exact Rpt.hand_waiting_congr (Rpt.count_keeps (·.area) (fun _ _ _ => rfl) _ _ _)
      (Rpt.count_keeps (·.waiting) (fun _ _ _ => rfl) _ _ _) _ _

/-- Of an entry that is already set, setting it again makes nothing new. -/
theorem set_true_of_getD {l : List Bool} {k : Nat} (h : l.getD k false = true) : l.set k true = l := by
  refine List.ext_getElem? fun i => ?_
  rw [List.getElem?_set]
  split
  · next hk =>
    subst hk
    rw [List.getD_eq_getElem?_getD] at h
    cases hget : l[k]? with
    | none => simp [hget] at h
    | some b =>
      obtain ⟨hlt, -⟩ := List.getElem?_eq_some_iff.mp hget
      simp_all
  · rfl

/-- A drop is counted, and reported when it is the channel's first. -/
theorem Part.Ends.dropped {p p' r : Part} {k t number : Nat} {n : NodeConfig} (h : p.Ends (p'.dropNew k t number n) r)
    (hdisp : p'.disp = p.disp) (hnow : p'.now = p.now) (hshaped : p.shaped = true) :
    (r.disp.rpt.counter .dropped).toNat = min 65535 ((p.disp.rpt.counter .dropped).toNat + 1)
      ∧ r.disp.rpt.counter .assignRefusal = p.disp.rpt.counter .assignRefusal
      ∧ r.disp.rpt.waiting = (if p'.prm.dropReported.getD k false then p.disp.rpt.waiting
          else (p.disp.rpt.hand p.now (repAssignDropped t n.ring n.position k number)).waiting)
      ∧ r.prm = { p'.prm with dropReported := p'.prm.dropReported.set k true } ∧ r.sameLinks p := by
  obtain ⟨hcmp, hlnk⟩ := h.links
  have hsixteen : p'.disp.rpt.counters.length = 16 := hdisp ▸ Part.counters_length_of_shaped hshaped
  have hcounted := Rpt.counter_count_same p'.disp.rpt hsixteen .dropped 1
  have hother := Rpt.counter_count_of_ne p'.disp.rpt (c := .dropped) (c' := .assignRefusal) nofun 1
  have hwaiting : (p'.disp.rpt.count .dropped 1).waiting = p'.disp.rpt.waiting :=
    Rpt.count_keeps (·.waiting) (fun _ _ _ => rfl) _ _ _
  have harea : (p'.disp.rpt.count .dropped 1).area = p'.disp.rpt.area := Rpt.count_keeps (·.area) (fun _ _ _ => rfl) _ _ _
  rw [h.counter, h.counter, h.waiting, h.prm, Part.sameLinks, hcmp, hlnk, ← hdisp, ← hnow]
  unfold Part.dropNew
  simp only
  split
  · next hset => exact ⟨hcounted, hother, hwaiting, by rw [set_true_of_getD hset]; rfl, rfl, rfl⟩
  · exact ⟨(congrArg BitVec.toNat (Rpt.counter_hand _ _ _ (by decide))).trans hcounted,
      (Rpt.counter_hand _ _ _ (by decide)).trans hother, Rpt.hand_waiting_congr harea hwaiting _ _, rfl, rfl, rfl⟩

/-- PRM refuses a record, a NEW having taken its place in the take order. -/
def Part.Refuses (p : Part) (slot : Nat) (words : List Word) (why : AssignReason) : Prop :=
  p.prmRecord slot words
    = (if assignKind words = 1 then p.takeNew else p).refuseAssign (assignKind words) (assignNumber words) why

theorem Part.Refuses.of_new {p : Part} {slot : Nat} {words : List Word} {why : AssignReason} (hkind : assignKind words = 1)
    (h : p.takeNew.examineNew p.prm.nextOrder words = p.takeNew.refuseAssign 1 (assignNumber words) why) :
    p.Refuses slot words why := by
  rw [Part.Refuses, p.prmRecord_new slot hkind, if_pos hkind, hkind]
  exact h

theorem Part.Refuses.of_reassign {p : Part} {slot : Nat} {words : List Word} {why : AssignReason} (hkind : assignKind words = 3)
    {e : Assignment} (hlive : p.assignment (assignNumber words) = some e)
    (h : p.checkCar (assignCar words) (assignDeck words) e.boarding e.destination = some why) : p.Refuses slot words why := by
  rw [Part.Refuses, p.prmRecord_reassign slot hkind, if_neg (by rw [hkind]; decide), hkind]
  simp only [Part.prmReassign, hlive, h]

/-- Settles O37: the checks in the order of R62, each with one refusal, and the drop under a channel that is on. -/
theorem assignRefusalCompletes : Obligations.AssignRefusalCompletes := by
  refine ⟨fun p car deck boarding destination => ⟨fun h => Part.checkCar_badCar h boarding destination,
    fun cfg hcfg hlt => Part.checkCar_of_deck hcfg hlt boarding destination⟩, ?_, ?_⟩
  · intro c s a data be slot words why hc htakes hrest hshaped hbad
    obtain ⟨hmem, x, hends⟩ := htakes.assignment hrest
    have hrefuses : (s.part.onPath fun _ => x).Refuses slot words why := by
      obtain ⟨hkind, hnone, rfl⟩ | ⟨hkind, n, hn, hclear, hcheck⟩ | ⟨hkind, n, hn, hclear, hcheck, hlive, rfl⟩
        | ⟨hkind, n, hn, hclear, hcheck, hfresh, hfull, hstay, rfl⟩ | ⟨hkind, e, hlive, hcheck⟩ := hbad
      · exact .of_new hkind (Part.examineNew_badTerminal _ hnone)
      · exact .of_new hkind (Part.examineNew_failed (p := (s.part.onPath fun _ => x).takeNew) _ hn hclear hcheck)
      · exact .of_new hkind (Part.examineNew_duplicate _ hn hclear hcheck hlive)
      · exact .of_new hkind (Part.examineNew_tableFull _ hn hclear hcheck hfresh hfull (Part.displaceable_eq_none hstay))
      · exact .of_reassign hkind hlive hcheck
    rw [hrefuses] at hends
    obtain ⟨hcounted, hwaiting, hlinks⟩ := hends.refused (by split <;> rfl) (by split <;> rfl) hshaped
    refine ⟨s.hostWrite a data be, exec_of_busWrites hc s, hmem, hcounted, hwaiting, hends.trk, hends.arr, hends.prm.trans ?_,
      hends.texts, hlinks, hends.config, hends.clock⟩
    split <;> rfl
  · intro s a data be slot k words n htakes hrest hshaped hkind hn hon
    obtain ⟨hmem, x, hends⟩ := htakes.assignment hrest
    rw [Part.prmRecord_new _ slot hkind, Part.prmNew,
      Part.examineNew_dropped (p := (s.part.onPath fun _ => x).takeNew) _ hn hon] at hends
    obtain ⟨hcounted, hother, hwaiting, hprm, hlinks⟩ := hends.dropped rfl rfl hshaped
    exact ⟨s.hostWrite a data be, rfl, hmem, hcounted, hother, hwaiting, hprm, hends.trk, hends.arr, hends.texts, hlinks, hends.config,
      hends.clock⟩

end Sys2Proof.Machine
end

section
/-! SUPPORT and PROOFS. The members of a trip list (R80). -/

namespace Sys2Proof.Machine

/-- Floor `x` stands before floor `y` in a list seen from floor `f`: nearer, or as near and lower (R80). -/
def Part.nearer (p : Part) (f x y : Nat) : Prop :=
  distance (p.level x) (p.level f) < distance (p.level y) (p.level f)
    ∨ (distance (p.level x) (p.level f) = distance (p.level y) (p.level f) ∧ x < y)

section
variable {p : Part} {f : Nat}

theorem Part.nearer.trans {x y z : Nat} (h : p.nearer f x y) (h' : p.nearer f y z) : p.nearer f x z := by
  unfold Part.nearer at *
  omega

theorem Part.nearer.ne {x y : Nat} (h : p.nearer f x y) : x ≠ y := by
  rintro rfl
  unfold Part.nearer at h
  omega

/-- Two floors that differ stand one before the other. -/
theorem Part.nearer_or {x y : Nat} (h : x ≠ y) : p.nearer f x y ∨ p.nearer f y x := by
  unfold Part.nearer
  omega

variable (x : Nat)

theorem insertByDistance_cons_same (l : List Nat) : insertByDistance p f x (x :: l) = x :: l := by
  simp only [insertByDistance, if_true]

theorem insertByDistance_cons_before {y : Nat} (h : p.nearer f x y) (l : List Nat) :
    insertByDistance p f x (y :: l) = x :: y :: l := by
  have hne := h.ne
  unfold Part.nearer at h
  simp only [insertByDistance, if_neg hne]
  exact if_pos (by simpa using h)

theorem insertByDistance_cons_after {y : Nat} (h : p.nearer f y x) (l : List Nat) :
    insertByDistance p f x (y :: l) = y :: insertByDistance p f x l := by
  have hne := h.ne
  unfold Part.nearer at h
  simp only [insertByDistance, if_neg hne.symm]
  refine if_neg ?_
  simp only [Bool.or_eq_true, Bool.and_eq_true, decide_eq_true_eq]
  omega

/-- The three places of a floor at the front of a list. -/
theorem insertByDistance_cases (y : Nat) : x = y ∨ p.nearer f x y ∨ p.nearer f y x := by
  by_cases h : x = y
  · exact .inl h
  · exact .inr (Part.nearer_or h)

theorem mem_insertByDistance {z : Nat} (l : List Nat) : z ∈ insertByDistance p f x l ↔ z = x ∨ z ∈ l := by
  induction l with
  | nil => simp [insertByDistance]
  | cons y l ih =>
    obtain rfl | hbefore | hafter := insertByDistance_cases (p := p) (f := f) x y
    · rw [insertByDistance_cons_same, List.mem_cons]
      tauto
    · rw [insertByDistance_cons_before x hbefore, List.mem_cons]
    · rw [insertByDistance_cons_after x hafter, List.mem_cons, ih, List.mem_cons]
      tauto

theorem pairwise_insertByDistance {l : List Nat} (h : l.Pairwise (p.nearer f)) :
    (insertByDistance p f x l).Pairwise (p.nearer f) := by
  induction l with
  | nil => exact List.pairwise_singleton ..
  | cons y l ih =>
    obtain ⟨hy, hl⟩ := List.pairwise_cons.mp h
    obtain rfl | hbefore | hafter := insertByDistance_cases (p := p) (f := f) x y
    · rw [insertByDistance_cons_same]
      exact h
    · rw [insertByDistance_cons_before x hbefore]
      exact List.pairwise_cons.mpr ⟨List.forall_mem_cons.mpr ⟨hbefore, fun z hz => hbefore.trans (hy z hz)⟩, h⟩
    · rw [insertByDistance_cons_after x hafter]
      refine List.pairwise_cons.mpr ⟨fun z hz => ?_, ih hl⟩
      obtain rfl | hz := (mem_insertByDistance x l).mp hz
      · exact hafter
      · exact hy z hz

/-- Floors inserted one after the other: those and no others, in order. -/
theorem foldl_insertByDistance (xs : List Nat) {l : List Nat} (h : l.Pairwise (p.nearer f)) :
    (∀ z, z ∈ xs.foldl (fun acc x => insertByDistance p f x acc) l ↔ z ∈ xs ∨ z ∈ l)
      ∧ (xs.foldl (fun acc x => insertByDistance p f x acc) l).Pairwise (p.nearer f) := by
  induction xs generalizing l with
  | nil => exact ⟨fun z => by simp, h⟩
  | cons x xs ih =>
    obtain ⟨hmem, hpairs⟩ := ih (pairwise_insertByDistance x h)
    refine ⟨fun z => ?_, hpairs⟩
    rw [List.foldl_cons, hmem, mem_insertByDistance, List.mem_cons]
    tauto

end

/-- Settles O60: a trip list is the destinations of its key inserted one after the other. -/
theorem tripListsAreBacked : Obligations.TripListsAreBacked := by
  intro p c d f
  obtain ⟨hmem, hpairs⟩ := foldl_insertByDistance (p := p) (f := f)
    ((p.prm.table.filter fun a => a.car = c && a.deck = d && a.boarding = f).map (·.destination)) List.Pairwise.nil
  refine ⟨fun x => (hmem x).trans ?_, hpairs.imp Part.nearer.ne, hpairs⟩
  simp [and_assoc]

end Sys2Proof.Machine
end

section
/-! SUPPORT. What a NEW makes of the entries at its terminal, and what PRM's operations leave of the counter of displaced entries
(R64 to R69, R186). -/

namespace Sys2Proof.Machine

/-! ### An entry in its queue, its head not chosen yet (R67) -/

/-- An entry in its ordered place, its estimate made. -/
def Part.entered (p : Part) (n t : Nat) (stepFree : Bool) : Part := (p.referred n t stepFree).promptEstimate n true

theorem Part.entered_queueOf {p : Part} {t : Nat} (h : t ∈ p.homes) (n : Nat) (stepFree : Bool) :
    (p.entered n t stepFree).queueOf t = p.joined (p.queueOf t) n stepFree := by
  rw [Part.entered, Part.promptEstimate_queueOf, Part.referred_queueOf h, if_pos rfl]

theorem Part.entered_base (p : Part) (n t : Nat) (stepFree : Bool) : (p.entered n t stepFree).base = p.base :=
  Part.promptEstimate_base _ n true

theorem Part.entered_after (p : Part) (n t : Nat) (stepFree : Bool) (d : Nat) : (p.entered n t stepFree).after d = p.after d :=
  congrArg (fun now : Time => now + BitVec.ofNat _ d) (now_of_base (p.entered_base n t stepFree))

theorem Part.entered_params (p : Part) (n t : Nat) (stepFree : Bool) : (p.entered n t stepFree).params = p.params :=
  params_of_base (p.entered_base n t stepFree)

theorem Part.entered_assignment_other (p : Part) {n m : Nat} (h : m ≠ n) (t : Nat) (stepFree : Bool) :
    (p.entered n t stepFree).assignment m = p.assignment m := by
  rw [Part.entered, Part.promptEstimate_assignment_other _ h, Part.referred_assignment, if_neg h]

theorem Part.entered_assignment {p : Part} {n : Nat} {a : Assignment} (ha : p.assignment n = some a) (t : Nat) (stepFree : Bool) :
    ∃ e, (p.entered n t stepFree).assignment n = some { a.waiting with estimate := e } :=
  Part.promptEstimate_entry (by rw [Part.referred_assignment, if_pos rfl, ha, Option.map_some]) n true

section
variable {p : Part} (h : p.Lined Nowhere) {n t : Nat} {a : Assignment} (ha : p.assignment n = some a)
  (hterminal : a.terminal = t) (hprompt : a.prompt = .none)
include h ha hterminal hprompt

/-- The entry has a prompt, and is the one that entered. -/
theorem Part.Lined.enterQueue_entry (stepFree : Bool) :
    n ∈ (p.enterQueue n t stepFree).queueOf t
      ∧ ∃ e, (p.enterQueue n t stepFree).assignment n = some e ∧ e.prompt ≠ .none ∧ e.core = a.core := by
  have hin : n ∈ (p.enterQueue n t stepFree).queueOf t := by
    cases hqueue : p.queueOf t with
    | nil =>
      rw [h.enterQueue_queueOf_empty ha hterminal stepFree hqueue]
      exact List.mem_singleton.mpr rfl
    | cons x rest =>
      by_cases hroom : (p.queueOf t).length < Config.queueLimit
      · rw [h.enterQueue_queueOf_room ha hterminal stepFree hqueue hroom]
        exact List.mem_cons_of_mem x ((p.mem_placed rest n n stepFree).mpr (.inl rfl))
      · rw [h.enterQueue_queueOf_full ha hterminal stepFree hqueue (by omega)]
        exact (p.mem_placed rest n n stepFree).mpr (.inl rfl)
  obtain ⟨e, he, -, hsome, -⟩ := (h.enterQueue ha hterminal stepFree hprompt).seated.entry hin
  have hcore := Part.core_of_entries (congrArg Ledger.entries (p.enterQueue_ledger n t stepFree)) n
  rw [he, ha, Option.map_some, Option.map_some, Option.some.injEq] at hcore
  exact ⟨hin, e, he, hsome, hcore⟩

/-- Alone at its terminal the entry is SHOWING for prompt_show_ms, doubled when step-free. -/
theorem Part.Lined.enterQueue_alone (hnil : p.queueOf t = []) :
    ∃ e, (p.enterQueue n t a.stepFree).assignment n = some e ∧ e.prompt = .showing
      ∧ e.deadline = some (p.after (showInterval p.params 1 a.stepFree)) := by
  obtain ⟨hseated, -, hheads⟩ := h.seated.joinQueue ha hterminal hprompt a.stepFree
  have hqueue : (p.entered n t a.stepFree).queueOf t = [n] := by
    rw [Part.entered_queueOf (hterminal ▸ h.housed ha), hnil]
    simp [Part.joined]
  have hnone : (p.entered n t a.stepFree).promptHead t = none :=
    (hheads t).trans (Part.promptHead_eq_none fun m b hm => by simp [hnil] at hm)
  obtain ⟨b, hb, hnew⟩ := Part.Seated.becomeHead_first (p := p.entered n t a.stepFree) hseated hnone hqueue
  obtain ⟨e, he⟩ := Part.entered_assignment ha t a.stepFree
  obtain rfl : b = { a.waiting with estimate := e } := Option.some.inj (hb.symm.trans he)
  refine ⟨_, by rw [Part.enterQueue_of_empty hnil]; exact (hnew n).trans (if_pos rfl), rfl, ?_⟩
  rw [Assignment.heading, Part.entered_after, Part.entered_params]
  rfl

omit h hterminal hprompt in
/-- Behind a head that stays the entry is QUEUED. -/
theorem Part.enterQueue_behind {stepFree : Bool} (hne : p.queueOf t ≠ []) (hroom : (p.queueOf t).length < Config.queueLimit) :
    (∃ e, (p.enterQueue n t stepFree).assignment n = some { a.waiting with estimate := e })
      ∧ ∀ m, m ≠ n → (p.enterQueue n t stepFree).assignment m = p.assignment m := by
  rw [Part.enterQueue_of_room hne hroom]
  exact ⟨Part.entered_assignment ha t stepFree, fun m hm => p.entered_assignment_other hm t stepFree⟩

/-- In a full queue the old head is without a prompt, and the first of the references left is SHOWING for the interval of so many
references (R68, R69). -/
theorem Part.Lined.enterQueue_cut {stepFree : Bool} {x : Nat} {rest : List Nat} (hqueue : p.queueOf t = x :: rest)
    (hfull : Config.queueLimit ≤ (p.queueOf t).length) :
    (∃ b : Assignment, (p.enterQueue n t stepFree).assignment x = some b.ended)
      ∧ ∃ first b, ((p.enterQueue n t stepFree).queueOf t).head? = some first
        ∧ (p.enterQueue n t stepFree).assignment first = some b ∧ b.prompt = .showing
        ∧ b.deadline = some (p.after (showInterval p.params (rest.length + 1) b.stepFree)) := by
  obtain ⟨b, hb, -⟩ := h.seated.entry (t := t) (n := x) (by rw [hqueue]; exact List.mem_cons_self)
  have hout : x ∉ rest := (List.nodup_cons.mp (hqueue ▸ h.seated.once t)).1
  have hnew : ∀ j, n ∉ p.queueOf j := h.seated.not_referenced ha hprompt
  have hx : x ≠ n := fun heq => hnew t (heq ▸ (by rw [hqueue]; exact List.mem_cons_self))
  have hkept : (p.endShowing t).assignment n = some a := by
    rw [Part.endShowing_assignment fun hhead => hnew t (List.mem_of_head? hhead), ha]
  obtain ⟨(hseated : ((p.endShowing t).entered n t stepFree).Seated), -, hheads⟩ :=
    (h.seated.endShowing t).joinQueue hkept hterminal hprompt stepFree
  have hnone : ((p.endShowing t).entered n t stepFree).promptHead t = none := (hheads t).trans (h.seated.endShowing_headless t)
  have hwhole : p.enterQueue n t stepFree = ((p.endShowing t).entered n t stepFree).becomeHead t :=
    Part.enterQueue_of_full hfull n stepFree
  have hplaced := h.enterQueue_queueOf_full ha hterminal stepFree hqueue hfull
  have hsame : ((p.endShowing t).entered n t stepFree).queueOf t = p.placed rest n stepFree := by
    rw [← hplaced, hwhole, Part.becomeHead_queueOf]
  have hlength : (p.placed rest n stepFree).length = rest.length + 1 := by
    rw [← hsame, Part.entered_queueOf (p.endShowing_homes t ▸ hterminal ▸ h.housed ha), Part.joined_length, p.endShowing_queueOf,
      if_pos rfl, hqueue, List.tail_cons]
  cases hlist : p.placed rest n stepFree with
  | nil => simp [hlist] at hlength
  | cons first l =>
    rw [hlist] at hsame hlength hplaced
    obtain ⟨c, -, hentries⟩ := Part.Seated.becomeHead_first hseated hnone hsame
    have hfirst : x ≠ first := fun heq => by
      have hin : x ∈ p.placed rest n stepFree := by rw [hlist, heq]; exact List.mem_cons_self
      exact ((p.mem_placed rest n x stepFree).mp hin).elim hx hout
    rw [hwhole]
    refine ⟨⟨b, ?_⟩, first, _, by rw [← hwhole, hplaced, List.head?_cons], (hentries first).trans (if_pos rfl), rfl, ?_⟩
    · rw [hentries, if_neg hfirst]
      exact (Part.entered_assignment_other _ hx t stepFree).trans (Part.endShowing_assignment_head hqueue hb)
    · rw [Assignment.heading, Part.entered_after, Part.entered_params, Part.endShowing_after, Part.endShowing_params]
      simp only [List.length_cons] at hlength
      rw [hlength]

end

/-! ### The counter of displaced entries (R64, R186) -/

/-- The displaced entries as counted. -/
def Part.displacements (p : Part) : BitVec 16 := p.disp.rpt.counter .displaced

theorem recompose_displacements (p : Part) (d : Disp) (j : Nat) (r : Region) (mode : RecomposeMode) :
    (recompose p d j r mode).rpt.counter .displaced = d.rpt.counter .displaced := by
  unfold recompose
  split
  · next n x _ _ =>
    generalize (if isMessageRegion r then rotate p n x else x) = x1
    simp only
    split
    · split
      · rw [Disp.request_rpt]
        exact Rpt.counter_count_of_ne _ (c := .substitution) (c' := .displaced) nofun _
      · rfl
    · rfl
  · rfl

theorem Part.recomposeFor_displacements (p : Part) (f : Nat → NodeConfig → List Region) :
    (p.recomposeFor f).displacements = p.displacements :=
  foldl_keeps (fun d : Disp => d.rpt.counter .displaced) (f := fun d (t : Target) => recompose p d t.1 t.2.1 t.2.2)
    (fun d t => recompose_displacements p d t.1 t.2.1 t.2.2) (targetsOf p f) p.disp

theorem Part.setHeld_displacements (p : Part) (n : Nat) (old : Option Estimate) (new : Estimate) :
    (p.setHeld n old new).displacements = p.displacements := by
  rw [Part.setHeld_eq]
  split
  · rfl
  · unfold Part.cmpEstimateChange
    split
    · rfl
    · split
      · exact Part.recomposeFor_displacements _ _
      · rfl

theorem Part.promptEstimate_displacements (p : Part) (n : Nat) (fresh : Bool) :
    (p.promptEstimate n fresh).displacements = p.displacements := by
  have made : ∀ q : Part, (p.onlyArr q).displacements = q.displacements := fun _ => rfl
  unfold Part.promptEstimate
  rw [made]
  split
  · rfl
  · split
    · rfl
    · simp only
      split
      · exact (Part.setHeld_displacements _ n _ _).trans (Rpt.counter_count_of_ne _ (c := .estimateClamp) (c' := .displaced) nofun 1)
      · exact p.setHeld_displacements n _ _

theorem Part.becomeHead_displacements (p : Part) (t : Nat) : (p.becomeHead t).displacements = p.displacements := by
  unfold Part.becomeHead
  split
  · exact p.recomposeFor_displacements _
  · split
    · rfl
    · simp only
      split
      · exact Part.recomposeFor_displacements _ _
      · rfl

theorem Part.enterQueue_displacements (p : Part) (n t : Nat) (stepFree : Bool) :
    (p.enterQueue n t stepFree).displacements = p.displacements := by
  have hroom : (p.madeRoom t).displacements = p.displacements := by
    unfold Part.madeRoom
    split
    · rw [← p.endShowing_frame t]
      rfl
    · rfl
  have hqueue : (p.inQueue n t stepFree).displacements = p.displacements := (Part.promptEstimate_displacements _ n true).trans hroom
  rw [Part.enterQueue_eq]
  split
  · exact (Part.becomeHead_displacements _ t).trans hqueue
  · exact hqueue

theorem Part.tripNotices_displacements (p before : Part) (keys : List TripKey) :
    (p.tripNotices before keys).displacements = p.displacements :=
  foldl_keeps Part.displacements (f := fun q (k : TripKey) => q.cmpTripNotice k.1 k.2.1 k.2.2)
    (fun q _ => q.recomposeFor_displacements _) _ p

theorem Part.removeEntries_displacements (p : Part) (gone : Assignment → Bool) :
    (p.removeEntries gone).displacements = p.displacements :=
  (Part.tripNotices_displacements _ p _).trans
    (foldl_keeps Part.displacements (fun q t => q.becomeHead_displacements t) (p.headless gone) (p.struck gone))

theorem Part.createEntry_displacements (p : Part) (order number terminal boarding destination car deck : Nat) (stepFree : Bool) :
    (p.createEntry order number terminal boarding destination car deck stepFree).displacements = p.displacements :=
  (Part.tripNotices_displacements _ p _).trans (Part.enterQueue_displacements _ number terminal stepFree)

end Sys2Proof.Machine
end

section
/-! SUPPORT and PROOFS. ASSIGN_NEW (R61 to R69). -/

namespace Sys2Proof.Machine

/-! ### A created entry (R65 to R69) -/

section
variable {p q : Part} {a : Assignment} (h : p.Lined Nowhere) (hfresh : p.assignment a.number = none)

include h hfresh in
theorem Part.Lined.withEntry_assignment {t m : Nat} (hm : m ∈ p.queueOf t) :
    m ≠ a.number ∧ (p.withEntry a).assignment m = p.assignment m := by
  have hne := h.seated.ne_fresh hfresh hm
  exact ⟨hne, Part.withEntry_assignment hne⟩

include h hfresh in
theorem Part.Lined.withEntry_placed {t x : Nat} {rest : List Nat} (hqueue : p.queueOf t = x :: rest) :
    (p.withEntry a).placed rest a.number a.stepFree = p.placed rest a.number a.stepFree :=
  Part.placed_congr (fun _ hm => (h.withEntry_assignment hfresh (t := t) (by rw [hqueue]; exact List.mem_cons_of_mem x hm)).2) _ _

variable (hhome : a.terminal ∈ p.homes) (hprompt : a.prompt = .none)
  (hq : q.prm = ((p.withEntry a).enterQueue a.number a.terminal a.stepFree).prm)
include hq

theorem Part.assignment_of_prm {m : Nat} :
    q.assignment m = ((p.withEntry a).enterQueue a.number a.terminal a.stepFree).assignment m := by
  rw [Part.assignment, hq, ← Part.assignment]

theorem Part.queueOf_of_prm {t : Nat} :
    q.queueOf t = ((p.withEntry a).enterQueue a.number a.terminal a.stepFree).queueOf t := by
  rw [Part.queueOf, hq, ← Part.queueOf]

include h hfresh hhome hprompt

/-- The entry is live with a prompt, in its queue, and the last of the table. -/
theorem Part.Lined.created :
    ∃ e, q.assignment a.number = some e ∧ e.prompt ≠ .none ∧ e.core = a.core
      ∧ q.prm.table.map (·.core) = p.prm.table.map (·.core) ++ [e.core] ∧ a.number ∈ q.queueOf a.terminal := by
  obtain ⟨hin, e, he, hsome, hcore⟩ := (h.withEntry hfresh hhome hprompt).enterQueue_entry
    (Part.withEntry_assignment_self hfresh) rfl hprompt a.stepFree
  have hentries := congrArg Ledger.entries ((p.withEntry a).enterQueue_ledger a.number a.terminal a.stepFree)
  refine ⟨e, (Part.assignment_of_prm hq).trans he, hsome, hcore, ?_, (Part.queueOf_of_prm hq).symm ▸ hin⟩
  rw [hq, hcore]
  exact Eq.trans hentries List.map_append

/-- Alone at its terminal. -/
theorem Part.Lined.created_alone (hnil : p.queueOf a.terminal = []) {e : Assignment} (he : q.assignment a.number = some e) :
    e.prompt = .showing ∧ e.deadline = some (p.after (showInterval p.params 1 a.stepFree)) := by
  obtain ⟨b, hb, hshowing, hdeadline⟩ := (h.withEntry hfresh hhome hprompt).enterQueue_alone
    (Part.withEntry_assignment_self hfresh) rfl hprompt hnil
  rw [Part.assignment_of_prm hq] at he
  obtain rfl : e = b := Option.some.inj (he.symm.trans hb)
  exact ⟨hshowing, hdeadline⟩

variable {x : Nat} {rest : List Nat} (hqueue : p.queueOf a.terminal = x :: rest)
include hqueue

/-- Behind a head in a queue with room. -/
theorem Part.Lined.created_behind (hroom : rest.length + 1 < Config.queueLimit) {e : Assignment}
    (he : q.assignment a.number = some e) :
    q.queueOf a.terminal = x :: p.placed rest a.number a.stepFree ∧ e.prompt = .queued ∧ e.deadline = a.deadline
      ∧ q.assignment x = p.assignment x := by
  have hself := Part.withEntry_assignment_self hfresh
  have hqueue' : (p.withEntry a).queueOf a.terminal = x :: rest := hqueue
  obtain ⟨hne, hother⟩ := h.withEntry_assignment hfresh (t := a.terminal) (m := x) (by rw [hqueue]; exact List.mem_cons_self)
  have hshort : ((p.withEntry a).queueOf a.terminal).length < Config.queueLimit := by rwa [hqueue']
  obtain ⟨⟨est, hentry⟩, hkept⟩ := Part.enterQueue_behind (stepFree := a.stepFree) hself (by rw [hqueue']; nofun) hshort
  rw [Part.assignment_of_prm hq] at he ⊢
  rw [Part.queueOf_of_prm hq, (h.withEntry hfresh hhome hprompt).enterQueue_queueOf_room hself rfl _ hqueue' hshort,
    h.withEntry_placed hfresh hqueue, hkept x hne, hother, Option.some.inj (he.symm.trans hentry)]
  exact ⟨rfl, rfl, rfl, rfl⟩

/-- In a full queue, whose head's showing is cut short (R68). -/
theorem Part.Lined.created_cut (hfull : rest.length + 1 = Config.queueLimit) :
    (∃ b : Assignment, q.assignment x = some b.ended)
      ∧ q.queueOf a.terminal = p.placed rest a.number a.stepFree
      ∧ ∃ first b, (q.queueOf a.terminal).head? = some first ∧ q.assignment first = some b ∧ b.prompt = .showing
        ∧ b.deadline = some (p.after ((if b.stepFree then 2 else 1) * p.params.promptBusyMs)) := by
  have hself := Part.withEntry_assignment_self hfresh
  have hqueue' : (p.withEntry a).queueOf a.terminal = x :: rest := hqueue
  have hlined := h.withEntry hfresh hhome hprompt
  have hlong : Config.queueLimit ≤ ((p.withEntry a).queueOf a.terminal).length := by rw [hqueue', List.length_cons, hfull]
  obtain ⟨⟨b, hb⟩, first, c, hfirst, hc, hshowing, hdeadline⟩ :=
    hlined.enterQueue_cut (stepFree := a.stepFree) hself rfl hprompt hqueue' hlong
  simp only [Part.assignment_of_prm hq, Part.queueOf_of_prm hq]
  refine ⟨⟨b, hb⟩, (hlined.enterQueue_queueOf_full hself rfl _ hqueue' hlong).trans (h.withEntry_placed hfresh hqueue), first, c,
    hfirst, hc, hshowing, ?_⟩
  rw [hdeadline, hfull, showInterval_eq]
  rfl

end

/-! ### The entry that makes room (R64) -/

/-- Of the entries that may make room, the one of lowest take order does. -/
theorem Part.displaceable_eq_some {p : Part} {v : Assignment} (hin : v ∈ p.prm.table) (hwaiting : v.isBoarding = false)
    (hprompt : v.prompt = .none)
    (hlowest : ∀ x ∈ p.prm.table, x ≠ v → x.isBoarding = false → x.prompt = .none → v.order < x.order) :
    p.displaceable = some v := by
  have found : ∀ (l : List Assignment) (best : Option Assignment), (∀ x ∈ l, x = v ∨ v.order < x.order) →
      (best = some v ∨ v ∈ l ∧ ∀ b, best = some b → v.order < b.order) →
      l.foldl (fun best a =>
        match best with
        | none => some a
        | some b => if a.order < b.order then some a else some b) best = some v := by
    intro l
    induction l with
    | nil =>
      rintro best - (rfl | ⟨hv, -⟩)
      · rfl
      · cases hv
    | cons x l ih =>
      intro best hl hbest
      refine ih _ (fun y hy => hl y (List.mem_cons_of_mem x hy)) ?_
      obtain rfl | ⟨hv, hless⟩ := hbest
      · obtain rfl | hx := hl x List.mem_cons_self
        · simp
        · exact .inl (if_neg (by omega))
      · by_cases hx : x = v
        · subst hx
          cases best with
          | none => exact .inl rfl
          | some b => exact .inl (if_pos (hless b rfl))
        · have hv : v ∈ l := (List.mem_cons.mp hv).resolve_left (Ne.symm hx)
          have hxless : v.order < x.order := (hl x List.mem_cons_self).resolve_left hx
          refine .inr ⟨hv, fun b hb => ?_⟩
          cases best with
          | none => exact Option.some.inj hb ▸ hxless
          | some c =>
            simp only at hb
            split at hb
            · exact Option.some.inj hb ▸ hxless
            · exact Option.some.inj hb ▸ hless c rfl
  refine found _ none (fun x hx => ?_) (.inr ⟨List.mem_filter.mpr ⟨hin, by simp [hwaiting, hprompt]⟩, nofun⟩)
  obtain ⟨hx, hfit⟩ := List.mem_filter.mp hx
  simp only [Bool.and_eq_true, Bool.not_eq_true', decide_eq_true_eq] at hfit
  by_cases hxv : x = v
  · exact .inl hxv
  · exact .inr (hlowest x hx hxv hfit.1 hfit.2)

/-- A displacement is a removal, counted and reported. -/
theorem Part.displace_waiting (p : Part) (v : Assignment) :
    (p.displace v).disp.rpt.waiting = (p.disp.rpt.hand p.now (repRetiredDisplaced v.number)).waiting := by
  have hstock := congrArg Ledger.stock (p.removeEntries_ledger fun x => x.number = v.number)
  have harea : (p.removeEntries fun x => x.number = v.number).disp.rpt.area = p.disp.rpt.area := (congrArg Stock.area hstock :)
  have hwaiting : (p.removeEntries fun x => x.number = v.number).disp.rpt.waiting = p.disp.rpt.waiting :=
    (congrArg Stock.waiting hstock :)
  refine Rpt.hand_waiting_congr ?_ ?_ p.now _
  · exact (Rpt.count_keeps (·.area) (fun _ _ _ => rfl) _ .displaced 1).trans harea
  · exact (Rpt.count_keeps (·.waiting) (fun _ _ _ => rfl) _ .displaced 1).trans hwaiting

theorem Part.displace_displacements {p : Part} (h : p.disp.rpt.counters.length = 16) (v : Assignment) :
    (p.displace v).displacements.toNat = min 65535 (p.displacements.toNat + 1) := by
  have hstock := congrArg Ledger.stock (p.removeEntries_ledger fun x => x.number = v.number)
  have hlength : (p.removeEntries fun x => x.number = v.number).disp.rpt.counters.length = 16 :=
    (congrArg Stock.counters hstock :).trans h
  rw [← p.removeEntries_displacements fun x => x.number = v.number]
  exact (congrArg BitVec.toNat (Rpt.counter_hand _ _ _ (by decide))).trans (Rpt.counter_count_same _ hlength .displaced 1)

/-- A NEW finds the queues under their law. -/
theorem Part.taken_tidy {p : Part} (h : p.queueLaw) (x : Path) : (p.onPath fun _ => x).takeNew.Tidy False p.prm.nextOrder :=
  ((p.tidy_queueLaw.mpr h).of_roster (q := p.onPath fun _ => x) rfl rfl).takeNew

/-- The entry that a NEW at place `order` of the take order asks for. -/
def Part.askedEntry (p : Part) (order : Nat) (words : List Word) (n : NodeConfig) : Assignment :=
  p.newEntry order (assignNumber words) (assignTerminal words) n.floor (assignDestination words) (assignCar words)
    (assignDeck words) (assignStepFree words)

theorem Part.createEntry_waiting (p : Part) (order number terminal boarding destination car deck : Nat) (stepFree : Bool) :
    (p.createEntry order number terminal boarding destination car deck stepFree).disp.rpt.waiting = p.disp.rpt.waiting :=
  congrArg (fun l : Ledger => l.stock.waiting)
    (p.createEntry_ledger order number terminal boarding destination car deck stepFree)

theorem Part.displace_nextOrder (p : Part) (v : Assignment) : (p.displace v).prm.nextOrder = p.prm.nextOrder :=
  p.removeEntries_nextOrder _

theorem Part.displace_cores (p : Part) (v : Assignment) :
    (p.displace v).prm.table.map (·.core) = (p.prm.table.filter fun x => x.number ≠ v.number).map (·.core) :=
  (congrArg Ledger.entries (p.removeEntries_ledger fun x => x.number = v.number) :).trans
    (congrArg _ (List.filter_congr fun _ _ => (decide_not ..).symm))

/-- Settles O36: the entry is created at its place of the take order in a part whose queues keep their law, after the displacement
where the table is full. -/
theorem assignNewCompletes : Obligations.AssignNewCompletes := by
  refine ⟨fun s a data be slot words n htakes hrest hlaw hkind hn hclear hcheck hnew hroom => ?_,
    fun s a data be slot words n v htakes hrest hshaped hlaw hkind hn hclear hcheck hnew hfull hin hwaiting hprompt hlowest => ?_⟩
  all_goals
    obtain ⟨hmem, x, hends⟩ := htakes.assignment hrest
    have htidy := Part.taken_tidy hlaw x
    have hhome := htidy.homed.mem (p := (s.part.onPath fun _ => x).takeNew) hn
    rw [Part.prmRecord_new _ slot hkind, Part.prmNew, Part.onPath_prm] at hends
  · have hlined := htidy.lined
    have hfresh : (s.part.onPath fun _ => x).takeNew.assignment (s.part.askedEntry s.part.prm.nextOrder words n).number = none := hnew
    rw [Part.examineNew_creates (p := (s.part.onPath fun _ => x).takeNew) _ hn hclear hcheck hnew hroom] at hends
    have hprm := hends.prm.trans (Part.createEntry_prm ..)
    obtain ⟨e, he, hsome, hcore, htable, hqueued⟩ := hlined.created hfresh hhome rfl hprm
    refine ⟨s.hostWrite a data be, e, rfl, hmem, he, hsome, hcore, htable, ?_, hqueued, fun hnil => ?_,
      fun head rest hqueue hshort => ?_, fun head rest hqueue hlong => ?_, hends.trk, hends.arr, hends.texts, hends.config, hends.clock⟩
    · rw [hends.prm]
      exact Part.createEntry_nextOrder ..
    · exact hlined.created_alone hfresh hhome rfl hprm hnil he
    · exact hlined.created_behind hfresh hhome rfl hprm hqueue hshort he
    · obtain ⟨⟨b, hb⟩, hcut⟩ := hlined.created_cut hfresh hhome rfl hprm hqueue hlong
      exact ⟨⟨b.ended, hb, rfl, rfl, rfl⟩, hcut⟩
  · have hplace : (s.part.onPath fun _ => x).takeNew.displaceable = some v := Part.displaceable_eq_some hin hwaiting hprompt hlowest
    rw [Part.examineNew_displaces (p := (s.part.onPath fun _ => x).takeNew) _ hn hclear hcheck hnew hfull hplace] at hends
    have hprm := hends.prm.trans (Part.createEntry_prm ..)
    generalize hp : (s.part.onPath fun _ => x).takeNew = p at hends hprm htidy hhome
    have htable : p.prm.table = s.part.prm.table := hp ▸ rfl
    have hdisp : p.disp = s.part.disp := hp ▸ rfl
    have hnow : p.now = s.part.now := hp ▸ rfl
    have hnext : p.prm.nextOrder = s.part.prm.nextOrder + 1 := hp ▸ rfl
    have hnone : p.assignment (assignNumber words) = none := hp ▸ hnew
    obtain ⟨e, he, hsome, hcore, hcores, -⟩ := (htidy.displace v).lined.created
      (a := (p.displace v).askedEntry s.part.prm.nextOrder words n) (Part.removeEntries_assignment_none hnone _)
      ((p.removeEntries_homes _).symm ▸ hhome) rfl hprm
    refine ⟨s.hostWrite a data be, e, rfl, hmem, he, hsome, (congrArg Assignment.order hcore :), ?_, ?_, ?_, ?_, hends.trk, hends.arr,
      hends.texts, hends.config, hends.clock⟩
    · rw [hcores, p.displace_cores, htable]
    · rw [hends.prm, Part.createEntry_nextOrder, Part.displace_nextOrder, hnext]
    · rw [hends.counter, ← Part.displacements, Part.createEntry_displacements,
        Part.displace_displacements (hdisp ▸ Part.counters_length_of_shaped hshaped), Part.displacements, hdisp]
    · rw [hends.waiting, Part.createEntry_waiting, Part.displace_waiting, hdisp, hnow]

end Sys2Proof.Machine
end
